-- ==== Sys2Proof/Word.lean ====
section
/-! DEFINITION. The word types of the model: what the manual treats as bits. -/

namespace Sys2Proof

/-- A scalar register's contents, and any 64-bit control register or address under computation (R9, R33). -/
abbrev Word := BitVec 64

/-- One thread's element of a v-register (R9). -/
abbrev Word32 := BitVec 32

/-- The smallest addressable unit of every memory level (R6). -/
abbrev Byte := BitVec 8

end Sys2Proof
end

