-- ==== Sys2Proof/Config.lean ====
section
/-! DEFINITION. What an implementation fixes and the manual does not: opaque constants with no body, so that nothing can
be proved of their values (log 9, log 16, log 18). -/

namespace Sys2Proof.Config

/-- A fresh value the manual leaves open, applied to the counter of State that the step advances (log 9). -/
opaque freeValue : Nat → Sys2Proof.Word

/-- ECDSA P-384 verification with SHA-384 under the fused parameter-block key (R366, R394): bytes covered, then the
96-byte signature. The key is fused per operator, so the manual gives no value (log 16). -/
opaque signatureValid : List Sys2Proof.Byte → List Sys2Proof.Byte → Bool

/-- The bytes of the mask ROM that measurement 1 digests (R393, R396; log 16). -/
opaque romBytes : List Sys2Proof.Byte

/-- The ROM revision that FWVER reports (R393; log 16). -/
opaque romRevision : BitVec 16

/-- The smallest security version number the fuses allow (R394; log 16). -/
opaque fusedMinimumSvn : Nat

/-- The form suffix in IDENT: 0 K, 1 P, 2 M (R2, R356; log 16). -/
opaque form : BitVec 8

/-- The body of an SPDM response, a function of the request's code, its bytes and the responder's measurements; the
manual gives only which requests are served (R396; log 18). -/
opaque spdmBody : Nat → List Sys2Proof.Byte → List Sys2Proof.Byte → List Sys2Proof.Byte

/-- Certificate slot 0: the chain stored at manufacture (R395; log 18). -/
opaque certificateChain : List Sys2Proof.Byte

/-- The row of its stack, and the bank of its channel, that a device frame address lies in; the manual gives neither
mapping (R350, R352, R353; log 25). -/
opaque rowOf : Nat → Nat
opaque bankOf : Nat → Nat

/-- Codes that event-log entries carry and the manual does not list: what triggered a fence, why a fibre went down (R385; log
9). -/
opaque eventCode : Nat → Sys2Proof.Byte

/-- Where an SRAM word that no address reaches lies in its bank, by the model's name of it: the manual lays out no bank of a register file,
a weight bank, a TLB or a queue (R375, R385; log 62). -/
opaque sramOffset : Nat → Sys2Proof.Word

end Sys2Proof.Config
end

