-- ==== Sys2Proof/Syntax.lean ====
section
/-! DEFINITION. The steps of the machine as syntax: one constructor per row of spec/opcode_table.json. The first 105 are the
scalar words of R60-R70, the next 82 the lane words of R74-R79, and the last 117 the device's other steps
(spec/95_what_each_step_holds.md), which carry what an input or a pending piece of work needs to be named. -/

namespace Sys2Proof

/-- The fields of a lane instruction word other than its opcode (R74). -/
structure LaneFields where
  /-- U: uniform (R81). -/
  u : Bool := false
  /-- I: source b is imm32. -/
  i : Bool := false
  /-- guard predicate. -/
  pg : Fin 8 := 0
  /-- negate the guard. -/
  pn : Bool := false
  /-- destination: 0-63 v0-v63, 64-127 s0-s63. -/
  d : Fin 128 := 0
  a : Fin 128 := 0
  b : Fin 128 := 0
  c : Fin 128 := 0
  /-- predicate destination; flag and order in the long-latency instructions (R73, R78). -/
  pd : Fin 8 := 0
  /-- rounding, saturation or scope (R77). -/
  rm : Fin 8 := 0
  /-- type code (R76). -/
  ty : Fin 256 := 0
  /-- sub-operation, buffer record, level or command (R80). -/
  x : Fin 256 := 0
  imm : BitVec 32 := 0
  deriving DecidableEq, Repr

/-- The clause header (R72). -/
structure ClauseHeader where
  /-- COUNT: number of instructions minus one. -/
  count : Fin 16
  /-- WAIT: bit n says that the clause waits until fn is clear. -/
  wait : BitVec 12
  /-- flag A, when AV is set. -/
  flagA : Option (Fin 12)
  /-- flag B, when BV is set. -/
  flagB : Option (Fin 12)
  /-- YH: the yield hint. -/
  yieldHint : Bool
  deriving DecidableEq, Repr

/-- The queue entry a command came from (R299, R300): its queue, its number from 1, and its header's choices. -/
structure EntryRef where
  queue : Nat
  n : Nat
  notify : Bool
  /-- address of the status record, 0 for none. -/
  status : Nat
  deriving DecidableEq, Repr

/-- The LAUNCH payload (R304). -/
structure LaunchPayload where
  obj : Nat
  args : Nat
  teams : Nat
  dieMask : BitVec 8
  ctx : Nat
  coop : Bool
  idem : Bool
  place : Bool
  layout : Nat
  /-- two bits per stage. -/
  mxuse : BitVec 16
  kidx : Nat
  deriving DecidableEq, Repr

/-- The CTXCREATE payload (R305). -/
structure CtxPayload where
  ptroot : Nat
  shbase : Nat
  shsize : Nat
  /-- the value of WMTAB (R29). -/
  wmtab : Word
  fqbase : Nat
  fqlen : Nat
  ctx : Nat
  debug : Bool
  wdog : Nat
  fabid : Nat
  savebase : Nat
  savesize : Nat
  deriving DecidableEq, Repr

/-- A fabric packet (R369, R370). -/
structure Packet where
  kind : Nat
  op : Nat
  dpkg : Nat
  ddie : Nat
  relayed : Bool
  spkg : Nat
  sdie : Nat
  stream : Nat
  fabid : Nat
  /-- the 64-bit count on the stream (R371). -/
  scount : Nat
  addr : Word
  ext : Word
  value : Word := 0
  ty : Nat := 0
  anchor : BitVec 8 := 0
  /-- request stream of an RREAD reply. -/
  reqStream : Nat := 0
  /-- width of an RREAD reply, 4 or 8. -/
  width : Nat := 0
  /-- the 128 bytes of an RBULK line, or the partials of a watermark flush. -/
  body : List Byte := []
  /-- of a packet that stays in the package: the issuing context (R221), and whether its addresses are virtual (R218). -/
  ctx : Nat := 0
  virt : Bool := false
  deriving DecidableEq, Repr

/-- A unit that R379's table can fence. -/
inductive UnitRef where
  | lane (core lane : Nat)
  | core (core : Nat)
  /-- level 1 (cluster) or 2 (die), the array's index, the bank. -/
  | beater (level array bank : Nat)
  | channel (stack channel : Nat)
  | clusterScratch (cluster : Nat)
  | die (die : Nat)
  | fibre (fibre : Nat)
  /-- one of the four die-to-die links of a die (R391). -/
  | link (die link : Nat)
  deriving DecidableEq, Repr

/-- A laser module of a fibre that has gone dark: the module, and the nanosecond at which its light went (R387). -/
structure DarkModule where
  module : Nat
  since : Nat
  deriving DecidableEq, Repr

/-- A die-to-die link of a die, and whether the flit that it has replayed arrived (R391). -/
structure LinkReplay where
  link : Nat
  ok : Bool
  deriving DecidableEq, Repr

/-- An in-fibre, or the out-fibre of the same number (R389). -/
structure FibreEnd where
  fibre : Nat
  out : Bool
  deriving DecidableEq, Repr

/-- What the host translates an address to, for 2^size bytes (R361). -/
structure Translated where
  size : Nat
  addr : Nat
  deriving DecidableEq, Repr

/-- One delay canary's reading (R392): its slack in picoseconds, and the core it belongs to, if any. -/
structure Canary where
  slack : Int
  core : Option Nat
  deriving DecidableEq, Repr

/-- Every step of the machine (spec/opcode_table.json). -/
inductive Instr where
  /-- ADD (R94): Scalar register add, wrapping, in 64-bit or .W 32-bit form. -/
  | add (d a b : Fin 64) (w : Bool)
  /-- SUB (R94): Scalar register subtract, wrapping. -/
  | sub (d a b : Fin 64) (w : Bool)
  /-- MUL (R94): Scalar multiply giving the low n bits of the product. -/
  | mul (d a b : Fin 64) (w : Bool)
  /-- MULH (R94): Scalar signed multiply giving the upper half of the exact product. -/
  | mulh (d a b : Fin 64) (w : Bool)
  /-- MULHN (R94): Scalar unsigned multiply giving the upper half of the exact product. -/
  | mulhn (d a b : Fin 64) (w : Bool)
  /-- DIV (R94): Scalar signed division truncating towards zero, with the edge results of R35. -/
  | div (d a b : Fin 64) (w : Bool)
  /-- DIVN (R94): Scalar unsigned division with the edge results of R35. -/
  | divn (d a b : Fin 64) (w : Bool)
  /-- REM (R94): Scalar signed remainder with the sign of the dividend. -/
  | rem (d a b : Fin 64) (w : Bool)
  /-- REMN (R94): Scalar unsigned remainder. -/
  | remn (d a b : Fin 64) (w : Bool)
  /-- AND (R94): Scalar bitwise AND. -/
  | and (d a b : Fin 64) (w : Bool)
  /-- OR (R94): Scalar bitwise OR. -/
  | or (d a b : Fin 64) (w : Bool)
  /-- XOR (R94): Scalar bitwise XOR. -/
  | xor (d a b : Fin 64) (w : Bool)
  /-- ANDN (R94): Scalar x AND NOT y. -/
  | andn (d a b : Fin 64) (w : Bool)
  /-- SHL (R94): Scalar shift left by the count modulo the width. -/
  | shl (d a b : Fin 64) (w : Bool)
  /-- SHR (R94): Scalar logical shift right. -/
  | shr (d a b : Fin 64) (w : Bool)
  /-- SAR (R94): Scalar arithmetic shift right. -/
  | sar (d a b : Fin 64) (w : Bool)
  /-- MIN (R94): Scalar signed minimum. -/
  | min (d a b : Fin 64) (w : Bool)
  /-- MAX (R94): Scalar signed maximum. -/
  | max (d a b : Fin 64) (w : Bool)
  /-- MINN (R94): Scalar unsigned minimum. -/
  | minn (d a b : Fin 64) (w : Bool)
  /-- MAXN (R94): Scalar unsigned maximum. -/
  | maxn (d a b : Fin 64) (w : Bool)
  /-- SLT (R94): Scalar set to 1 if signed less than. -/
  | slt (d a b : Fin 64) (w : Bool)
  /-- SLTN (R94): Scalar set to 1 if unsigned less than. -/
  | sltn (d a b : Fin 64) (w : Bool)
  /-- SEQ (R94): Scalar set to 1 if equal. -/
  | seq (d a b : Fin 64) (w : Bool)
  /-- CLZ (R94): Scalar count of leading zeros. -/
  | clz (d a : Fin 64) (w : Bool)
  /-- CTZ (R94): Scalar count of trailing zeros. -/
  | ctz (d a : Fin 64) (w : Bool)
  /-- POPC (R94): Scalar count of set bits. -/
  | popc (d a : Fin 64) (w : Bool)
  /-- ADDI (R95): Scalar add of a sign-extended 13-bit immediate. -/
  | addi (d a : Fin 64) (imm : BitVec 13)
  /-- ANDI (R95): Scalar AND with a sign-extended immediate. -/
  | andi (d a : Fin 64) (imm : BitVec 13)
  /-- ORI (R95): Scalar OR with a sign-extended immediate. -/
  | ori (d a : Fin 64) (imm : BitVec 13)
  /-- XORI (R95): Scalar XOR with a sign-extended immediate. -/
  | xori (d a : Fin 64) (imm : BitVec 13)
  /-- SHLI (R95): Scalar shift left by an immediate count 0-63. -/
  | shli (d a : Fin 64) (cnt : Fin 64)
  /-- SHRI (R95): Scalar logical shift right by an immediate count. -/
  | shri (d a : Fin 64) (cnt : Fin 64)
  /-- SARI (R95): Scalar arithmetic shift right by an immediate count. -/
  | sari (d a : Fin 64) (cnt : Fin 64)
  /-- SLTI (R95): Scalar set to 1 if less than a signed immediate. -/
  | slti (d a : Fin 64) (imm : BitVec 13)
  /-- LI (R96): Loads a sign-extended 20-bit immediate into sd. -/
  | li (d : Fin 64) (imm : BitVec 20)
  /-- LIS (R96): Shifts sd left by 20 and ORs in a zero-extended 20-bit immediate. -/
  | lis (d : Fin 64) (imm : BitVec 20)
  /-- LPC (R96): Writes the LPC word's address plus a word offset into sd. -/
  | lpc (d : Fin 64) (imm : BitVec 20)
  /-- BEQ (R97): Branches when two s-registers are equal. -/
  | beq (a b : Fin 64) (off : BitVec 13)
  /-- BNE (R97): Branches when two s-registers differ. -/
  | bne (a b : Fin 64) (off : BitVec 13)
  /-- BLT (R97): Branches when sa is less than sb, signed. -/
  | blt (a b : Fin 64) (off : BitVec 13)
  /-- BGE (R97): Branches when sa is at least sb, signed. -/
  | bge (a b : Fin 64) (off : BitVec 13)
  /-- BLTN (R97): Branches when sa is less than sb, unsigned. -/
  | bltn (a b : Fin 64) (off : BitVec 13)
  /-- BGEN (R97): Branches when sa is at least sb, unsigned. -/
  | bgen (a b : Fin 64) (off : BitVec 13)
  /-- JMP (R98): Jumps by a 26-bit word offset. -/
  | jmp (off : BitVec 26)
  /-- CALL (R98): Writes the return address into s63 and jumps. -/
  | call (off : BitVec 26)
  /-- JR (R98): Jumps to the address in sa. -/
  | jr (a : Fin 64)
  /-- RET (R98): Jumps to the address in s63. -/
  | ret
  /-- SLD (R100): Loads 64 bits through a buffer record into sd. -/
  | sld (d : Fin 64) (n : Fin 16) (a : Fin 64) (imm : BitVec 9)
  /-- SLDW (R100): Loads 32 bits sign-extended through a buffer record into sd. -/
  | sldw (d : Fin 64) (n : Fin 16) (a : Fin 64) (imm : BitVec 9)
  /-- SST (R100): Stores 64 bits of sd through a buffer record. -/
  | sst (d : Fin 64) (n : Fin 16) (a : Fin 64) (imm : BitVec 9)
  /-- SSTW (R100): Stores the low 32 bits of sd through a buffer record. -/
  | sstw (d : Fin 64) (n : Fin 16) (a : Fin 64) (imm : BitVec 9)
  /-- SLDS (R101): Loads 64 bits from the team's scratchpad window at a level into sd. -/
  | slds (d : Fin 64) (lvl : Fin 3) (a : Fin 64) (imm : BitVec 9)
  /-- SSTS (R101): Stores 64 bits of sd into the team's scratchpad window at a level. -/
  | ssts (d : Fin 64) (lvl : Fin 3) (a : Fin 64) (imm : BitVec 9)
  /-- BLD (R103): Loads a 32-byte buffer record into bn without checking it. -/
  | bld (n : Fin 16) (a : Fin 64) (imm : BitVec 9)
  /-- BADJ (R103): Adds to the base field of buffer record bn. -/
  | badj (n : Fin 16) (a : Fin 64) (imm : BitVec 9)
  /-- LQ (R105): Enqueues the clause at a fixed lane-word index on the group's lane queue. -/
  | lq (off : BitVec 24)
  /-- LQR (R105): Enqueues the clause whose lane-word index is in sa. -/
  | lqr (a : Fin 64)
  /-- LWAIT (R106): Stalls the scalar stream until the lane queue is empty. -/
  | lwait
  /-- BANY (R107): Branches when any bit of predicate p is set. -/
  | bany (p : Fin 8) (off : BitVec 21)
  /-- BALL (R107): Branches when every bit of predicate p is set. -/
  | ball (p : Fin 8) (off : BitVec 21)
  /-- BNONE (R107): Branches when predicate p is zero. -/
  | bnone (p : Fin 8) (off : BitVec 21)
  /-- MVP (R108): Copies a predicate zero-extended into sd. -/
  | mvp (d : Fin 64) (p : Fin 8)
  /-- MVPS (R108): Writes the low 32 bits of sa into a predicate. -/
  | mvps (p : Fin 8) (a : Fin 64)
  /-- FWAIT (R109): Stalls until every named flag has no pending or outstanding operation. -/
  | fwait (mask : BitVec 12)
  /-- MXSHAPE (R193): Writes a shape record from two s-registers. -/
  | mxshape (a b c : Fin 64)
  /-- MXLDW (R194): Loads the standby weight bank, optionally paired, from a quantised block. -/
  | mxldw (a b c : Fin 64) (fl : Fin 13)
  /-- MXSWAP (R195): Exchanges the active and standby weight banks in array order. -/
  | mxswap (fl : Fin 13)
  /-- MXZERO (R196): Opens an accumulator bank and starts a chain with all residues zero. -/
  | mxzero (c : Fin 64)
  /-- MXMUL (R198): Checks and accepts a multiply of a streamed block against the resident weights into a chain. -/
  | mxmul (a b c : Fin 64) (fl : Fin 13)
  /-- MXDRAIN (R203): Scans and reconstructs a bank, then converts and writes the result rows. -/
  | mxdrain (a b c : Fin 64) (fl : Fin 13)
  /-- MXSTAT (R205): Writes the array status into s[a] once earlier matrix instructions are accepted. -/
  | mxstat (a : Fin 64)
  /-- TMOV (R179): Checks and accepts a tile copy between tagged addresses. -/
  | tmov (a b c : Fin 64) (fl : Fin 13)
  /-- TMOVA (R180): Tile copy that adds to an arrival word as data lands. -/
  | tmova (a b : Fin 64) (c : Fin 32) (fl : Fin 13)
  /-- BSEAL (R181): Closes the open copy batch and returns its number. -/
  | bseal (a : Fin 64)
  /-- BWAIT (R181): Waits until a copy batch and all earlier ones have landed. -/
  | bwait (b : Fin 64)
  /-- SEAL (R182): Releases at package scope and marks a page range sealed on every die. -/
  | seal (a b : Fin 64) (fl : Fin 13)
  /-- UNSEAL (R182): Discards replicas and clears the sealed attribute of a page range. -/
  | unseal (a b : Fin 64) (fl : Fin 13)
  /-- HOME (R183): Moves the home of a page range to other dies. -/
  | home (a b c : Fin 64) (fl : Fin 13)
  /-- NMRUN (R184): Checks and starts work on the stack cores of one memory stack. -/
  | nmrun (a b c : Fin 64) (fl : Fin 13)
  /-- RBULK (R232): Checks and accepts a bulk remote transfer to one or more peers. -/
  | rbulk (a b : Fin 64) (c : Fin 32) (fl : Fin 13)
  /-- RQUIET (R234): Stalls until every remote operation the group sent has been answered. -/
  | rquiet
  /-- BAR (R236): Fences, arrives at a team, die or package barrier and waits for all participants. -/
  | bar (c : Fin 64)
  /-- ARRSET (R230): Writes an arrival word as a package-scope release. -/
  | arrset (a b : Fin 64) (fl : Fin 13)
  /-- ARRWAIT (R231): Waits for an arrival word's generation to advance and acquires at system scope. -/
  | arrwait (a b c : Fin 64)
  /-- FENCE (R235): Waits for the group's earlier work and acts as acquire and release at a scope. -/
  | fence (c : Fin 64)
  /-- WAITA (R237): Waits until a word at an address meets a masked comparison. -/
  | waita (a b : Fin 64) (c : Fin 32)
  /-- QTILE (R207): Quantises an FP32 or BF16 tile into row- and column-blocked blocks. -/
  | qtile (a b : Fin 64) (c : Fin 32) (fl : Fin 13)
  /-- WMBIND (R211): Binds a core watermark slot to a record, flushing other partials first. -/
  | wmbind (b c : Fin 64)
  /-- WMFLUSH (R212): Carries slot partials to their records' homes for merging. -/
  | wmflush (b : Fin 64) (fl : Fin 13)
  /-- WMRD (R213): Reads one field of a watermark record. -/
  | wmrd (a b c : Fin 64)
  /-- WMSCALE (R214): Computes an E8M7 scale from a record's closed half under a policy. -/
  | wmscale (a b c : Fin 64)
  /-- WMCLOSE (R215): Closes a record's current epoch at its home. -/
  | wmclose (b : Fin 64) (fl : Fin 13)
  /-- WMRESET (R215): Zeroes both halves of a record and advances its epoch. -/
  | wmreset (b : Fin 64) (fl : Fin 13)
  /-- QTAKE (R238): Removes a token from the die's stage queue instance, waiting while empty. -/
  | qtake (a b : Fin 64)
  /-- QEMIT (R238): Adds a token to the die's stage queue instance, waiting while full. -/
  | qemit (b c : Fin 64)
  /-- QDONE (R238): Declares that the group emits no more into a stage queue. -/
  | qdone (b : Fin 64)
  /-- CRD (R18): Copies a control register into an s-register. -/
  | crd (d : Fin 64) (cr : BitVec 12)
  /-- CWR (R18): Writes a control register field by field from an s-register. -/
  | cwr (a : Fin 64) (cr : BitVec 12)
  /-- TRAP (R111): Makes SWTRAP pending with the immediate as datum. -/
  | trap (imm : BitVec 16)
  /-- ERET (R115): Returns from a user trap to UEPC and clears FLAGS.IH. -/
  | eret
  /-- YIELD (R111): Gives this cycle's scalar issue slot to another ready group. -/
  | yield
  /-- SLEEP (R111): Stalls for s[sa] cycles of CYCLE without consuming issue slots. -/
  | sleep (a : Fin 64)
  /-- EXIT (R112): Waits for the group's outstanding work, then ends the group. -/
  | exit
  /-- NOP (R111): Does nothing. -/
  | nop
  /-- BRK (R113): Stops the group and posts a debug event when debugging is enabled. -/
  | brk (imm : BitVec 16)
  /-- IADD (R127): Lane integer add per element, wrapping or saturating. -/
  | iadd (w : LaneFields)
  /-- ISUB (R127): Lane integer subtract per element. -/
  | isub (w : LaneFields)
  /-- IMUL (R127): Lane integer multiply per element. -/
  | imul (w : LaneFields)
  /-- IMULH (R127): Lane upper half of the exact product per element. -/
  | imulh (w : LaneFields)
  /-- IMAD (R128): Lane exact multiply-add, then wrap or clamp. -/
  | imad (w : LaneFields)
  /-- IMIN (R127): Lane integer minimum per element. -/
  | imin (w : LaneFields)
  /-- IMAX (R127): Lane integer maximum per element. -/
  | imax (w : LaneFields)
  /-- IABS (R129): Lane integer absolute value. -/
  | iabs (w : LaneFields)
  /-- INEG (R129): Lane integer negate. -/
  | ineg (w : LaneFields)
  /-- IDOT4 (R128): Lane four-byte dot product plus c, wrapped or clamped once. -/
  | idot4 (w : LaneFields)
  /-- IDIV (R130): Lane integer division with defined edge results. -/
  | idiv (w : LaneFields)
  /-- IREM (R130): Lane integer remainder with defined edge results. -/
  | irem (w : LaneFields)
  /-- LANE_AND (R131): Lane bitwise AND. -/
  | laneAnd (w : LaneFields)
  /-- LANE_OR (R131): Lane bitwise OR. -/
  | laneOr (w : LaneFields)
  /-- LANE_XOR (R131): Lane bitwise XOR. -/
  | laneXor (w : LaneFields)
  /-- NOT (R131): Lane bitwise NOT. -/
  | not (w : LaneFields)
  /-- LANE_ANDN (R131): Lane a AND NOT b. -/
  | laneAndn (w : LaneFields)
  /-- BMUX3 (R131): Lane three-input bitwise function selected by a function byte. -/
  | bmux3 (w : LaneFields)
  /-- LANE_SHL (R132): Lane shift left with the count clamped to 32. -/
  | laneShl (w : LaneFields)
  /-- LANE_SHR (R132): Lane logical shift right with clamped count. -/
  | laneShr (w : LaneFields)
  /-- LANE_SAR (R132): Lane arithmetic shift right with clamped count. -/
  | laneSar (w : LaneFields)
  /-- BFE (R133): Lane bit-field extract. -/
  | bfe (w : LaneFields)
  /-- BFI (R133): Lane bit-field insert. -/
  | bfi (w : LaneFields)
  /-- LANE_POPC (R134): Lane count of set bits. -/
  | lanePopc (w : LaneFields)
  /-- LANE_CLZ (R134): Lane count of leading zeros. -/
  | laneClz (w : LaneFields)
  /-- BREV (R134): Lane bit reversal. -/
  | brev (w : LaneFields)
  /-- ICMP (R135): Lane integer comparison into a predicate. -/
  | icmp (w : LaneFields)
  /-- SEL (R136): Lane select by a predicate. -/
  | sel (w : LaneFields)
  /-- MOV (R136): Lane copy of one source. -/
  | mov (w : LaneFields)
  /-- MOVID (R136): Writes each thread's index within the group. -/
  | movid (w : LaneFields)
  /-- FADD (R138): Lane float add, correctly rounded. -/
  | fadd (w : LaneFields)
  /-- FSUB (R138): Lane float subtract. -/
  | fsub (w : LaneFields)
  /-- FMUL (R138): Lane float multiply. -/
  | fmul (w : LaneFields)
  /-- FFMA (R138): Lane fused multiply-add rounded once. -/
  | ffma (w : LaneFields)
  /-- FMIN (R139): Lane minimumNumber. -/
  | fmin (w : LaneFields)
  /-- FMAX (R139): Lane maximumNumber. -/
  | fmax (w : LaneFields)
  /-- FABS (R139): Lane clear of the sign bit. -/
  | fabs (w : LaneFields)
  /-- FNEG (R139): Lane inversion of the sign bit. -/
  | fneg (w : LaneFields)
  /-- FCMP (R140): Lane float comparison into a predicate. -/
  | fcmp (w : LaneFields)
  /-- FRCP (R141): Lane correctly rounded reciprocal. -/
  | frcp (w : LaneFields)
  /-- FRSQ (R141): Lane correctly rounded reciprocal square root. -/
  | frsq (w : LaneFields)
  /-- FSQRT (R138): Lane correctly rounded square root. -/
  | fsqrt (w : LaneFields)
  /-- FDIV (R138): Lane correctly rounded division. -/
  | fdiv (w : LaneFields)
  /-- FEXP2 (R141): Lane correctly rounded 2 to the x. -/
  | fexp2 (w : LaneFields)
  /-- FLOG2 (R141): Lane correctly rounded base-2 logarithm. -/
  | flog2 (w : LaneFields)
  /-- FSIN (R141): Lane correctly rounded sine. -/
  | fsin (w : LaneFields)
  /-- FCOS (R141): Lane correctly rounded cosine. -/
  | fcos (w : LaneFields)
  /-- FTANH (R141): Lane correctly rounded hyperbolic tangent. -/
  | ftanh (w : LaneFields)
  /-- FFRC (R142): Lane fractional part a minus trunc(a). -/
  | ffrc (w : LaneFields)
  /-- FRND (R142): Lane round to an integral value. -/
  | frnd (w : LaneFields)
  /-- FCLASS (R143): Lane one-hot class mask of a float. -/
  | fclass (w : LaneFields)
  /-- FSCL (R143): Lane a times 2 to the b. -/
  | fscl (w : LaneFields)
  /-- FEXPO (R143): Lane unbiased exponent of a as .i32. -/
  | fexpo (w : LaneFields)
  /-- CVT (R144): Lane conversion between integer and float types. -/
  | cvt (w : LaneFields)
  /-- QCVT (R146): Lane quantisation of two values into Q codes. -/
  | qcvt (w : LaneFields)
  /-- DQCVT (R148): Lane dequantisation of Q codes. -/
  | dqcvt (w : LaneFields)
  /-- PACK (R149): Lane packing of two codes into a bit stream. -/
  | pack (w : LaneFields)
  /-- UNPACK (R150): Lane unpacking of two codes from a 64-bit stream. -/
  | unpack (w : LaneFields)
  /-- XPERM (R151): Cross-thread permutation within segments. -/
  | xperm (w : LaneFields)
  /-- GMASK (R152): Cross-thread mask of non-zero or negative values. -/
  | gmask (w : LaneFields)
  /-- GTEST (R152): Cross-thread test into a predicate. -/
  | gtest (w : LaneFields)
  /-- FOLD (R153): Cross-thread reduction in ascending thread order. -/
  | fold (w : LaneFields)
  /-- SCAN (R154): Cross-thread prefix reduction, inclusive or exclusive. -/
  | scan (w : LaneFields)
  /-- PSET (R155): Three-input predicate function. -/
  | pset (w : LaneFields)
  /-- PMOV (R156): Moves whole predicates to or from registers. -/
  | pmov (w : LaneFields)
  /-- GPEER (R152): Cross-thread equality masks or counts. -/
  | gpeer (w : LaneFields)
  /-- LD (R164): Checks and commits a lane load through a buffer record. -/
  | ld (w : LaneFields)
  /-- ST (R164): Checks and commits a lane store through a buffer record. -/
  | st (w : LaneFields)
  /-- LDS (R168): Checks and commits a lane load from a scratchpad window. -/
  | lds (w : LaneFields)
  /-- STS (R168): Checks and commits a lane store to a scratchpad window. -/
  | sts (w : LaneFields)
  /-- ATOM (R170): Lane atomic read-modify-write through a buffer record. -/
  | atom (w : LaneFields)
  /-- ATOMS (R170): Lane atomic read-modify-write in a scratchpad window. -/
  | atoms (w : LaneFields)
  /-- BKCMD (R173): Sends a beater command to a cluster or die scratchpad bank. -/
  | bkcmd (w : LaneFields)
  /-- ACCRD (R177): Reads out a fixed-point accumulator slot as FP32 plus its flags. -/
  | accrd (w : LaneFields)
  /-- RADD (R225): Sends a remote integer add. -/
  | radd (w : LaneFields)
  /-- RMIN (R225): Sends a remote minimum. -/
  | rmin (w : LaneFields)
  /-- RMAX (R225): Sends a remote maximum. -/
  | rmax (w : LaneFields)
  /-- ROR (R225): Sends a remote OR. -/
  | ror (w : LaneFields)
  /-- RONCE (R227): Sends a remote write-once step. -/
  | ronce (w : LaneFields)
  /-- RARRIVE (R225): Sends a remote arrival-word addition as a system-scope release. -/
  | rarrive (w : LaneFields)
  /-- RREAD (R228): Sends a remote read whose reply lands in a write-once slot. -/
  | rread (w : LaneFields)
  /-- RADDF (R225): Sends a remote fixed-point accumulator addend. -/
  | raddf (w : LaneFields)
  /-- CLAUSE_START (R72): A clause at the head of the lane queue whose wait flags are clear has its header fetched and decoded and begins issuing. -/
  | clauseStart (g : Nat)
  /-- LANE_MEMORY_COMPLETE (R162): A lane memory instruction's committed accesses are performed and its flag count falls by one. -/
  | laneMemoryComplete (id : Nat)
  /-- COPY_LANDED (R179): A TMOV or TMOVA finishes landing, adding to its arrival word, batch and flag. -/
  | copyLanded (id : Nat)
  /-- WEIGHT_LOAD_COMPLETE (R194): A weight bank load completes, letting a waiting MXSWAP take effect and clearing the flag. -/
  | weightLoadComplete (id : Nat)
  /-- MXMUL_COMPLETE (R199): The last product of an MXMUL enters the cells and its flag clears. -/
  | mxmulComplete (id : Nat)
  /-- DRAIN_COMPLETE (R204): A drain's converted rows are all written, with watermark contributions, and its flag clears. -/
  | drainComplete (id : Nat)
  /-- QTILE_COMPLETE (R208): A QTILE's blocks are written; NFFLAG.SAT and RESCALE may become pending. -/
  | qtileComplete (id : Nat)
  /-- SEAL_COMPLETE (R182): A SEAL or UNSEAL completes once no die can still commit a store or hold a replica. -/
  | sealComplete (id : Nat)
  /-- HOME_COMPLETE (R183): Every page of a HOME range has been moved and remapped. -/
  | homeComplete (id : Nat)
  /-- NMRUN_GROUP_START (R184): A stack core starts an NMRUN group once it can give it its window. -/
  | nmrunGroupStart (id : Nat)
  /-- RETURN_TRAP_MIGRATE (R349): A returned stack-core group is placed with its state and window on a core of its die and resumes. -/
  | returnTrapMigrate (g : Nat)
  /-- GROUP_END (R112): A group in EXIT ends once its queue, flags and remote operations are all clear. -/
  | groupEnd (g : Nat)
  /-- BARRIER_RELEASE (R236): The last participant's arrival releases a barrier and its waiters complete as acquires. -/
  | barrierRelease (g : Nat)
  /-- WAITA_WAKE (R237): A write to a word in the home slice's wait table re-evaluates the entry and wakes the waiter. -/
  | waitaWake (g : Nat)
  /-- WAITA_POLL (R237): The polling interval of a WAITA without a table entry expires and the word is read again. -/
  | waitaPoll (g : Nat)
  /-- SLEEP_END (R111): CYCLE reaches the end of a SLEEP and the group resumes. -/
  | sleepEnd (g : Nat)
  /-- TIMER (R22): CYCLE reaches CYCCMP and a TIMER trap becomes pending. -/
  | timer (g : Nat)
  /-- USER_TRAP_ENTRY (R115): At a scalar boundary with IH clear, a pending user trap is taken to UTVEC or discarded. -/
  | userTrapEntry (g : Nat)
  /-- FAULT_RECORD_WRITE (R256): After committed work completes, a stopped group's fault record is written to the fault queue and the host is told. -/
  | faultRecordWrite (g : Nat)
  /-- FAULT_QUEUE_RETRY (R404): The 100 microsecond retry of a held fault record's write expires. -/
  | faultQueueRetry (ctx : Nat)
  /-- WATCHDOG (R265): A team stuck for the context's limit faults every group in a counted wait. -/
  | watchdog (team : Nat)
  /-- PAGE_REQUEST_SEND (R331): A queued page request group is sent when the allowance and an index are free. -/
  | pageRequestSend (die : Nat)
  /-- PAGE_REQUEST_RESPONSE (R331): A page request group response frees its merge entries and replays or faults the listed groups. -/
  | pageRequestResponse (pasid idx : Nat) (ok : Bool)
  /-- ZERO_ON_ALLOCATE (R333): The front end zeroes a ZA frame, clears ZA and answers the waiting walks. -/
  | zeroOnAllocate (ctx va : Nat)
  /-- REPLICA_FILL (R334): The copy of a sealed granule into a die's replica pool completes. -/
  | replicaFill (die ctx granule : Nat)
  /-- ATS_INVALIDATE (R361): An ATS Invalidate Request drops translations and is completed after their accesses finish. -/
  | atsInvalidate (pasid addr len : Nat)
  /-- HOST_ATOMIC_COMPLETION (R359): A device AtomicOp to host memory completes, returning the old value or, on error, zero with a logged event. -/
  | hostAtomicCompletion (id : Nat) (ok : Bool)
  /-- BAR2_READ (R357): A host read through BAR2 reaches a device frame at the home slice. -/
  | bar2Read (off len : Nat)
  /-- BAR2_WRITE (R357): A host write through BAR2 reaches a device frame unchecked. -/
  | bar2Write (off : Nat) (data : List Byte)
  /-- BAR_ATOMIC_OP (R355): A host AtomicOp addressed to a BAR is completed with Unsupported Request. -/
  | barAtomicOp (bar off : Nat)
  /-- QUEUE_ENABLE (R298): Setting QCTL.EN starts a queue at BASE and zeroes its completion word. -/
  | queueEnable (q : Nat) (prio : Nat)
  /-- QUEUE_DISABLE (R298): Clearing QCTL.EN stops a queue at the next entry boundary. -/
  | queueDisable (q : Nat) (prio : Nat)
  /-- QTAIL_WRITE (R299): A QTAIL write lets the front end read and start entries up to the new tail. -/
  | qtailWrite (q : Nat) (tail : BitVec 32)
  /-- PARAMETER_BLOCK_LOAD (R394): PBCTL.LOAD reads and checks a signed parameter block and applies it whole. -/
  | parameterBlockLoad
  /-- EVTAIL_WRITE (R385): The host's consumption of event-log entries frees room for held containment entries. -/
  | evtailWrite (tail : BitVec 32)
  /-- REGISTER_WRITE (R356): A host write to a BAR0 register with no behaviour of its own stores its RW fields. -/
  | registerWrite (off : Nat) (val : Word)
  /-- LAUNCH (R304): Checks a launch command, splits the grid over dies and starts it. -/
  | launch (e : EntryRef) (p : LaunchPayload)
  /-- COPY (R303): A front-end copy under a context's translation. -/
  | copy (e : EntryRef) (src dst bytes ctx : Nat)
  /-- SIGNAL (R303): Releases the queue's completed entries, then writes or adds to a word. -/
  | signal (e : EntryRef) (va : Nat) (val : Word) (add : Bool)
  /-- WAIT (R303): Holds its queue until a word is at least a value. -/
  | wait (e : EntryRef) (va : Nat) (val : Word)
  /-- QUEUE_WAIT_SATISFIED (R303): The word of a held WAIT reaches its value and the queue goes on. -/
  | queueWaitSatisfied (q : Nat)
  /-- CTXCREATE (R305): Creates a context with its tables, heap, fault queue and save area. -/
  | ctxcreate (e : EntryRef) (p : CtxPayload)
  /-- CTXDESTROY (R306): Terminates a context's launches, waits for its work, zeroes and invalidates it. -/
  | ctxdestroy (e : EntryRef) (ctx : Nat)
  /-- WMALLOC (R340): Allocates consecutive watermark record ids. -/
  | wmalloc (e : EntryRef) (ctx count : Nat) (basexp : BitVec 8)
  /-- WMFREE (R341): Frees watermark records, discarding their partials. -/
  | wmfree (e : EntryRef) (ctx first count : Nat)
  /-- TLBINV (R328): Invalidates device translations of a range and waits for accesses using them. -/
  | tlbinv (e : EntryRef) (ctx va len : Nat)
  /-- CALLOAD (R366): Checks a signed calender block and starts a calender change. -/
  | calload (e : EntryRef) (va : Nat)
  /-- HEALTH (R386): Writes the 4 KiB health record to a buffer. -/
  | health (e : EntryRef) (va : Nat)
  /-- RETRY (R261): Resumes a stopped group at its stopping point. -/
  | retry (e : EntryRef) (ctx seq : Nat)
  /-- TERMINATE (R261): Stops every group of a launch, which ends faulted. -/
  | terminate (e : EntryRef) (ctx seq : Nat)
  /-- RELEASE (R113): Resumes a group stopped at BRK at BRK plus 4. -/
  | release (e : EntryRef) (ctx : Nat) (unit : BitVec 32)
  /-- LAUNCH_END (R319): The completion tree reports the launch's end with a system-scope release and its status. -/
  | launchEnd (l : Nat)
  /-- TEAM_PLACE (R245): The front end places a waiting team with all its resources, choosing victims if needed. -/
  | teamPlace (die : Nat)
  /-- PLACEMENT_WAIT_EXPIRY (R310): A team waiting 2^20 cycles stops lower-priority placements on its die. -/
  | placementWaitExpiry (team : Nat)
  /-- STAGE_ARBITER (R311): Every 1,024 cycles the stage arbiter adjusts target team counts and creates or restores teams. -/
  | stageArbiter (die : Nat)
  /-- TEAM_PARK (R311): A surplus team whose groups all wait in QTAKE on an empty queue is saved. -/
  | teamPark (team : Nat)
  /-- TEAM_SAVE (R315): Every group of a victim has reached its save point and its state goes to the save area. -/
  | teamSave (team : Nat)
  /-- SAVE_POINT_TIMEOUT (R315): 65,536 cycles after a save request a group saves at its next boundary. -/
  | savePointTimeout (team : Nat)
  /-- DRAIN_BUDGET_EXPIRY (R314): A drained team exceeding twice its budget is saved instead. -/
  | drainBudgetExpiry (team : Nat)
  /-- TEAM_RESTORE (R316): A saved team is restored with its windows reused, copied or copied back. -/
  | teamRestore (team : Nat)
  /-- OPERATION_PACKET (R221): A remote operation packet arrives at its home and is applied, refused, deduplicated or deferred. -/
  | operationPacket (p : Packet)
  /-- RBULK_LINE (R233): An RBULK line packet is applied at its home and adds to its arrival word. -/
  | rbulkLine (p : Packet)
  /-- RREAD_REPLY (R228): An RREAD reply applies write-once steps to its slot and adds transitions to ARR. -/
  | rreadReply (p : Packet)
  /-- ACKNOWLEDGEMENT (R220): An acknowledgement packet answers the operations it maps at the sender. -/
  | acknowledgement (p : Packet)
  /-- DENIAL (R222): A denial answers an operation and records it in REMSTAT. -/
  | denial (p : Packet)
  /-- ACK_SEND (R372): A home sends the combined acknowledgements of a source stream. -/
  | ackSend (die : Nat)
  /-- WATERMARK_FLUSH (R212): A flush of slot partials is merged at the record's home, counting LATE. -/
  | watermarkFlush (p : Packet)
  /-- BEACON (R364): A beacon under the own CALID refreshes the sender's reachability entry. -/
  | beacon (p : Packet)
  /-- DRAIN_MARKER (R389): A drain marker arrives on an in-fibre during a calender change. -/
  | drainMarker (fibre : Nat) (p : Packet)
  /-- FABRIC_PACKET_DISCARD (R369): A packet with a failed CRC or invalid fields is discarded and logged. -/
  | fabricPacketDiscard (fibre : Nat)
  /-- RELAY_HOLD (R368): A packet for another package is marked RELAYED and held in the relay buffer. -/
  | relayHold (engine : Nat) (p : Packet)
  /-- RELAY_FORWARD (R368): A held packet is sent on the first lit out-fibre matching its destination. -/
  | relayForward (id fibre : Nat)
  /-- RELAY_TIMEOUT (R368): A relayed packet held longer than 8 slots is discarded. -/
  | relayTimeout (id : Nat)
  /-- DEFERRED_APPLY (R353): Packets deferred for a held row are applied and answered after its release. -/
  | deferredApply (stack bank : Nat)
  /-- RETRANSMIT (R220): An operation unanswered for 120 microseconds is sent again with its tag. -/
  | retransmit (id : Nat)
  /-- SLOT_START (R364): At each calender slot start the package sends beacons on its lit out-fibres. -/
  | slotStart
  /-- PEER_UNREACHABLE (R365): No beacon from a package for 512 microseconds makes it unreachable and denies its unanswered operations. -/
  | peerUnreachable (pkg : Nat)
  /-- CALENDER_DRAIN (R389): At the next slot start the package sends drain markers and holds send allowances. -/
  | calenderDrain
  /-- CALENDER_DARK (R389): Drain ends; CALDARK is written, relay buffers discarded and new tables applied. -/
  | calenderDark
  /-- CALENDER_RELOCK (R389): Light under the new matchings or 1 ms ends the dark phase and fibres lock. -/
  | calenderRelock
  /-- CALENDER_RESUME (R390): Locking ends; reachability is rebuilt, windows created or discarded and allowances released. -/
  | calenderResume
  /-- LOSS_OF_LIGHT (R387): A laser module's light falls below threshold and the fibre stops sending. -/
  | lossOfLight (fibre : Nat) (module : DarkModule)
  /-- LIGHT_RETURN (R387): Light returns on a module of a fibre. -/
  | lightReturn (fibre module : Nat)
  /-- RESTRIPE (R387): At a dark interval the fibre restripes onto its lit wavelengths and replays held beats. -/
  | restripe (fibre : Nat)
  /-- FLIT_REPLAY (R391): A die-to-die flit that fails its CRC is replayed, retraining after eight failures. -/
  | flitReplay (die : Nat) (link : LinkReplay)
  /-- LINK_RETRAIN_END (R391): A link retrain ends, fencing the link if it failed. -/
  | linkRetrainEnd (die link : Nat) (ok : Bool)
  /-- ACCUMULATOR_CHECK (R377): A chain's step count crosses a multiple of 2^23 and its residues are checked. -/
  | accumulatorCheck (core bank : Nat)
  /-- UNIT_FENCE (R379): A unit whose trigger holds is fenced, with sparing, substitution or team outcomes. -/
  | unitFence (u : UnitRef) (trigger : Nat)
  /-- HEARTBEAT_LOSS (R375): Four missed sequencer heartbeats detect a sequencer failure. -/
  | heartbeatLoss (u : UnitRef) (kind : Nat)
  /-- PATROL_SCRUB (R375): The periodic patrol of memory or scratchpads corrects soft errors. -/
  | patrolScrub (unit : Nat)
  /-- CORRECTED_SUMMARY (R385): The hourly per-die corrected-error summary is logged. -/
  | correctedSummary (die : Nat)
  /-- DISCARD_SUMMARY (R385): The per-millisecond summary of discarded packets is logged. -/
  | discardSummary
  /-- CANARY_READ (R392): The hourly read of delay canaries may start a re-plan. -/
  | canaryRead (die : Nat) (canaries : List Canary)
  /-- REPLAN (R392): A voltage step of a re-plan is applied every 10 ms, ending in REPLAN or AGED. -/
  | replan (die : Nat) (canaries : List Canary)
  /-- POWER_CAP_STEP (R4): The power-capping controller steps the arithmetic clock down or up by 5 percent. -/
  | powerCapStep (down : Bool)
  /-- PER_BANK_REFRESH (R350): A per-bank refresh of a stack bank starts and holds all-bank commands until it ends. -/
  | perBankRefresh (stack channel bank : Nat)
  /-- BURST_ROLLBACK (R351): A per-bank command waiting 1 microsecond rolls a stack-core burst back to its safe point. -/
  | burstRollback (stack channel : Nat)
  /-- ROW_HOLD_TIMEOUT (R352): A row held 8 microseconds with a waiter forces a memory-side release. -/
  | rowHoldTimeout (stack row : Nat)
  /-- COLD_RESET (R393): Cold reset reads fuses, self-tests, trains memory and opens the host port. -/
  | coldReset (failed : List UnitRef)
  /-- GET_VERSION (R396): SPDM GET_VERSION request. -/
  | getVersion
  /-- GET_CAPABILITIES (R396): SPDM GET_CAPABILITIES request. -/
  | getCapabilities (req : List Byte)
  /-- NEGOTIATE_ALGORITHMS (R396): SPDM NEGOTIATE_ALGORITHMS request. -/
  | negotiateAlgorithms (req : List Byte)
  /-- GET_DIGESTS (R396): SPDM GET_DIGESTS request. -/
  | getDigests (req : List Byte)
  /-- GET_CERTIFICATE (R396): SPDM GET_CERTIFICATE request for slot 0. -/
  | getCertificate (slot off len : Nat)
  /-- CHALLENGE (R396): SPDM CHALLENGE request. -/
  | challenge (slot : Nat) (req : List Byte)
  /-- GET_MEASUREMENTS (R396): SPDM GET_MEASUREMENTS request for measurements 1-4. -/
  | getMeasurements (index : Nat) (req : List Byte)
  /-- KEY_EXCHANGE (R396): SPDM KEY_EXCHANGE request. -/
  | keyExchange (slot : Nat) (req : List Byte)
  /-- FINISH (R396): SPDM FINISH request. -/
  | finish (req : List Byte)
  /-- HEARTBEAT (R396): SPDM HEARTBEAT request. -/
  | heartbeat
  /-- END_SESSION (R396): SPDM END_SESSION request. -/
  | endSession
  /-- SPDM_UNSUPPORTED_REQUEST (R396): Any other SPDM request is answered with ERROR UnsupportedRequest. -/
  | spdmUnsupportedRequest (code : Nat)
  /-- FIBRE_LOCK (R389): During the relock phase an in-fibre locks to its new neighbour under the new calender. -/
  | fibreLock (fibre : FibreEnd)
  /-- REFRESH_END (R350): A 180 ns per-bank refresh ends and the all-bank commands stalled behind it proceed. -/
  | refreshEnd (stack channel bank : Nat)
  /-- WINDOW_CLAIM (R316): The copy of a claimed held window to the save area, in 64-byte chunks, completes and frees the storage for placement. -/
  | windowClaim (team : Nat)
  /-- TRANSLATION_COMPLETION (R361): The host's answer to an ATS translation request arrives and fills the front end's cached translation. -/
  | translationCompletion (pasid addr : Nat) (result : Option Translated)
  /-- DOE_DISCOVERY (R355): A DOE Discovery request arrives in the DOE mailbox and is answered. -/
  | doeDiscovery (index : Nat)
  /-- OUTSTANDING_PAGE_REQUEST_ALLOCATION (R360): The host writes the PRI capability's Outstanding Page Request Allocation, which sets each die's page-request allowance. -/
  | outstandingPageRequestAllocation (n : Nat)
  deriving DecidableEq, Repr

end Sys2Proof
end

