-- ==== Sys2Proof/Decode.lean ====
section
/-! DEFINITION. Decoding and encoding: bit fields, the scalar words (R59-R70), the clause header (R72), the lane words
(R74-R81) and which bit patterns are no instruction, with the operand slot that R82 names for each. -/

namespace Sys2Proof

/-! ## Bits and bytes -/

/-- Bits [hi:lo] of a number (R6). -/
def bits (w hi lo : Nat) : Nat := w / 2 ^ lo % 2 ^ (hi + 1 - lo)

/-- Bit n of a number. -/
def bit (w n : Nat) : Bool := w / 2 ^ n % 2 == 1

/-- The two's-complement value of an n-bit number. -/
def signed (n w : Nat) : Int := if w % 2 ^ n < 2 ^ (n - 1) then (w % 2 ^ n : Int) else (w % 2 ^ n : Int) - 2 ^ n

/-- The n bytes of a number, least significant first (R6). -/
def leBytes : Nat → Nat → List Byte
  | 0, _ => []
  | n + 1, w => BitVec.ofNat 8 w :: leBytes n (w / 256)

/-- The number whose bytes, least significant first, are given (R6). -/
def ofLeBytes : List Byte → Nat
  | [] => 0
  | b :: bs => b.toNat + 256 * ofLeBytes bs

/-- sext(x, 64) of a field (R8). -/
def sext64 {n : Nat} (x : BitVec n) : Word := x.signExtend 64

/-! ## Which encodings are instructions -/

/-- The first failing check's operand slot, in the order of R82's table; the checks are listed in that order. -/
def firstSlot : List (Nat × Bool) → Option Nat
  | [] => none
  | (n, bad) :: r => if bad then some n else firstSlot r

/-- An instruction, unless a check fails; then the slot that ILLEGAL names (R82). -/
def accept (checks : List (Nat × Bool)) (i : Instr) : Except Nat Instr :=
  match firstSlot checks with
  | some n => .error n
  | none => .ok i

/-! ## Scalar words (R59-R70) -/

def reg (w hi : Nat) : Fin 64 := Fin.ofNat 64 (bits w hi (hi - 5))

/-- Major 0x0 (R61). -/
def decodeSR (w : Nat) : Except Nat Instr :=
  let d := reg w 27; let a := reg w 21; let b := reg w 15; let ww := bit w 9
  let un := [(11, bits w 15 10 != 0)]
  match bits w 8 0 with
  | 0x000 => accept [(0, w == 0)] (.add d a b ww)
  | 0x001 => .ok (.sub d a b ww)
  | 0x002 => .ok (.mul d a b ww)
  | 0x003 => .ok (.mulh d a b ww)
  | 0x004 => .ok (.mulhn d a b ww)
  | 0x005 => .ok (.div d a b ww)
  | 0x006 => .ok (.divn d a b ww)
  | 0x007 => .ok (.rem d a b ww)
  | 0x008 => .ok (.remn d a b ww)
  | 0x010 => .ok (.and d a b ww)
  | 0x011 => .ok (.or d a b ww)
  | 0x012 => .ok (.xor d a b ww)
  | 0x013 => .ok (.andn d a b ww)
  | 0x018 => .ok (.shl d a b ww)
  | 0x019 => .ok (.shr d a b ww)
  | 0x01A => .ok (.sar d a b ww)
  | 0x020 => .ok (.min d a b ww)
  | 0x021 => .ok (.max d a b ww)
  | 0x022 => .ok (.minn d a b ww)
  | 0x023 => .ok (.maxn d a b ww)
  | 0x028 => .ok (.slt d a b ww)
  | 0x029 => .ok (.sltn d a b ww)
  | 0x02A => .ok (.seq d a b ww)
  | 0x030 => accept un (.clz d a ww)
  | 0x031 => accept un (.ctz d a ww)
  | 0x032 => accept un (.popc d a ww)
  | _ => .error 4

/-- Major 0x1 (R62). The count bits imm13[12:6] of the shifts are no named field of their own; slot 1 (log 10). -/
def decodeSI (w : Nat) : Except Nat Instr :=
  let d := reg w 24; let a := reg w 18
  let imm := BitVec.ofNat 13 (bits w 12 0); let cnt := Fin.ofNat 64 (bits w 5 0)
  let sh := [(1, bits w 12 6 != 0)]
  match bits w 27 25 with
  | 0 => .ok (.addi d a imm)
  | 1 => .ok (.andi d a imm)
  | 2 => .ok (.ori d a imm)
  | 3 => .ok (.xori d a imm)
  | 4 => accept sh (.shli d a cnt)
  | 5 => accept sh (.shri d a cnt)
  | 6 => accept sh (.sari d a cnt)
  | _ => .ok (.slti d a imm)

/-- Major 0x2 (R63). -/
def decodeSC (w : Nat) : Except Nat Instr :=
  let d := reg w 25; let imm := BitVec.ofNat 20 (bits w 19 0)
  match bits w 27 26 with
  | 0 => .ok (.li d imm)
  | 1 => .ok (.lis d imm)
  | 2 => .ok (.lpc d imm)
  | _ => .error 0

/-- Major 0x3 (R64). -/
def decodeSB (w : Nat) : Except Nat Instr :=
  let a := reg w 24; let b := reg w 18; let off := BitVec.ofNat 13 (bits w 12 0)
  match bits w 27 25 with
  | 0 => .ok (.beq a b off)
  | 1 => .ok (.bne a b off)
  | 2 => .ok (.blt a b off)
  | 3 => .ok (.bge a b off)
  | 4 => .ok (.bltn a b off)
  | 5 => .ok (.bgen a b off)
  | _ => .error 4

/-- Major 0x4 (R65). -/
def decodeSJ (w : Nat) : Except Nat Instr :=
  let off := BitVec.ofNat 26 (bits w 25 0)
  match bits w 27 26 with
  | 0 => .ok (.jmp off)
  | 1 => .ok (.call off)
  | 2 => accept [(1, bits w 19 0 != 0)] (.jr (reg w 25))
  | _ => accept [(1, bits w 25 0 != 0)] .ret

/-- Major 0x5 (R66). -/
def decodeSM (w : Nat) : Except Nat Instr :=
  let d := reg w 24; let n := Fin.ofNat 16 (bits w 18 15); let a := reg w 14
  let imm := BitVec.ofNat 9 (bits w 8 0); let lvl := Fin.ofNat 3 (bits w 16 15)
  match bits w 27 25 with
  | 0 => .ok (.sld d n a imm)
  | 1 => .ok (.sldw d n a imm)
  | 2 => .ok (.sst d n a imm)
  | 3 => .ok (.sstw d n a imm)
  | 4 => accept [(7, 2 < bits w 18 15)] (.slds d lvl a imm)
  | 5 => accept [(7, 2 < bits w 18 15)] (.ssts d lvl a imm)
  | 6 => accept [(9, bits w 24 19 != 0)] (.bld n a imm)
  | _ => accept [(9, bits w 24 19 != 0)] (.badj n a imm)

/-- Major 0x6 (R67). -/
def decodeSL (w : Nat) : Except Nat Instr :=
  let p := Fin.ofNat 8 (bits w 23 21); let off := BitVec.ofNat 21 (bits w 20 0)
  match bits w 27 24 with
  | 0 => .ok (.lq (BitVec.ofNat 24 (bits w 23 0)))
  | 1 => accept [(1, bits w 17 0 != 0)] (.lqr (reg w 23))
  | 2 => accept [(1, bits w 23 0 != 0)] .lwait
  | 3 => .ok (.bany p off)
  | 4 => .ok (.ball p off)
  | 5 => .ok (.bnone p off)
  | 6 => accept [(1, bits w 14 0 != 0)] (.mvp (reg w 23) (Fin.ofNat 8 (bits w 17 15)))
  | 7 => accept [(1, bits w 14 0 != 0)] (.mvps p (reg w 20))
  | 8 => accept [(1, bits w 23 12 != 0)] (.fwait (BitVec.ofNat 12 (bits w 11 0)))
  | _ => .error 0

/-- Majors 0x7 to 0xC (R69): fl of 13-15, or any fl where the member takes none, is slot 5; an unused field or an odd pair
is its own slot. -/
def decodeSX (w : Nat) : Except Nat Instr :=
  let a := reg w 21; let b := reg w 15; let c := reg w 9
  let pc := Fin.ofNat 32 (bits w 9 5); let fl := Fin.ofNat 13 (bits w 3 0)
  let noFl := (5, bits w 3 0 != 0); let optFl := (5, decide (12 < bits w 3 0))
  let za := (10, bits w 21 16 != 0); let zb := (11, bits w 15 10 != 0); let zc := (12, bits w 9 4 != 0)
  let odd := (12, bit w 4)
  match bits w 31 28, bits w 27 22 with
  | 0x7, 0x00 => accept [noFl] (.mxshape a b c)
  | 0x7, 0x01 => accept [optFl] (.mxldw a b c fl)
  | 0x7, 0x02 => accept [optFl, za, zb, zc] (.mxswap fl)
  | 0x7, 0x03 => accept [noFl, za, zb] (.mxzero c)
  | 0x7, 0x04 => accept [optFl] (.mxmul a b c fl)
  | 0x7, 0x05 => accept [optFl] (.mxdrain a b c fl)
  | 0x7, 0x06 => accept [noFl, zb, zc] (.mxstat a)
  | 0x8, 0x00 => accept [optFl] (.tmov a b c fl)
  | 0x8, 0x01 => accept [optFl, odd] (.tmova a b pc fl)
  | 0x8, 0x02 => accept [noFl, zb, zc] (.bseal a)
  | 0x8, 0x03 => accept [noFl, za, zc] (.bwait b)
  | 0x8, 0x04 => accept [optFl, zc] (.seal a b fl)
  | 0x8, 0x05 => accept [optFl, zc] (.unseal a b fl)
  | 0x8, 0x06 => accept [optFl] (.home a b c fl)
  | 0x8, 0x07 => accept [optFl] (.nmrun a b c fl)
  | 0x9, 0x00 => accept [optFl, odd] (.rbulk a b pc fl)
  | 0x9, 0x01 => accept [noFl, za, zb, zc] .rquiet
  | 0xA, 0x00 => accept [noFl, za, zb] (.bar c)
  | 0xA, 0x01 => accept [optFl, zc] (.arrset a b fl)
  | 0xA, 0x02 => accept [noFl] (.arrwait a b c)
  | 0xA, 0x03 => accept [noFl, za, zb] (.fence c)
  | 0xA, 0x04 => accept [noFl, odd] (.waita a b pc)
  | 0xB, 0x00 => accept [optFl, odd] (.qtile a b pc fl)
  | 0xB, 0x01 => accept [noFl, za] (.wmbind b c)
  | 0xB, 0x02 => accept [optFl, za, zc] (.wmflush b fl)
  | 0xB, 0x03 => accept [noFl] (.wmrd a b c)
  | 0xB, 0x04 => accept [noFl] (.wmscale a b c)
  | 0xB, 0x05 => accept [optFl, za, zc] (.wmclose b fl)
  | 0xB, 0x06 => accept [optFl, za, zc] (.wmreset b fl)
  | 0xC, 0x00 => accept [noFl, zc] (.qtake a b)
  | 0xC, 0x01 => accept [noFl, za] (.qemit b c)
  | 0xC, 0x02 => accept [noFl, za, zc] (.qdone b)
  | _, _ => .error 0

/-- Major 0xD (R70). -/
def decodeSY (w : Nat) : Except Nat Instr :=
  let cr := BitVec.ofNat 12 (bits w 11 0); let imm := BitVec.ofNat 16 (bits w 15 0)
  let z := (1, bits w 23 0 != 0); let z16 := (1, bits w 23 16 != 0)
  match bits w 27 24 with
  | 0 => accept [(1, bits w 17 12 != 0)] (.crd (reg w 23) cr)
  | 1 => accept [(1, bits w 17 12 != 0)] (.cwr (reg w 23) cr)
  | 2 => accept [z16] (.trap imm)
  | 3 => accept [z] .eret
  | 4 => accept [z] .yield
  | 5 => accept [(1, bits w 17 0 != 0)] (.sleep (reg w 23))
  | 6 => accept [z] .exit
  | 7 => accept [z] .nop
  | 8 => accept [z16] (.brk imm)
  | _ => .error 0

/-- A scalar word (R60): the instruction, or the operand slot that ILLEGAL names (R82). The word 0 would be
ADD s0, s0, s0 and raises ILLEGAL (R61); its slot is 0 (log 10). -/
def decodeScalar (w : Nat) : Except Nat Instr :=
  match bits w 31 28 with
  | 0x0 => decodeSR w
  | 0x1 => decodeSI w
  | 0x2 => decodeSC w
  | 0x3 => decodeSB w
  | 0x4 => decodeSJ w
  | 0x5 => decodeSM w
  | 0x6 => decodeSL w
  | 0xD => decodeSY w
  | 0xE => .error 0
  | 0xF => .error 0
  | _ => decodeSX w

/-! ## The clause header (R72) -/

/-- The header in a 96-bit lane word, or none where it is malformed (every header fault names slot 13, R82). -/
def decodeHeader (w : Nat) : Option ClauseHeader :=
  let av := bit w 71; let fa := bits w 70 67; let bv := bit w 66; let fb := bits w 65 62
  if bits w 95 88 != 0xFC || bits w 60 0 != 0 || (av && 11 < fa) || (bv && 11 < fb) || (!av && fa != 0) ||
      (!bv && fb != 0) || (av && bv && fa == fb) then none
  else some
    { count := Fin.ofNat 16 (bits w 87 84), wait := BitVec.ofNat 12 (bits w 83 72),
      flagA := if av then some (Fin.ofNat 12 fa) else none,
      flagB := if bv then some (Fin.ofNat 12 fb) else none, yieldHint := bit w 61 }

/-- The word of a header (R72). -/
def encodeHeader (h : ClauseHeader) : Nat :=
  0xFC * 2 ^ 88 + h.count.val * 2 ^ 84 + h.wait.toNat * 2 ^ 72 +
  (match h.flagA with | some f => 2 ^ 71 + f.val * 2 ^ 67 | none => 0) +
  (match h.flagB with | some f => 2 ^ 66 + f.val * 2 ^ 62 | none => 0) + (if h.yieldHint then 2 ^ 61 else 0)

/-! ## Lane words (R74-R81) -/

/-- How an instruction uses an operand field (R75, R119). -/
inductive Role where
  | zero
  | dst
  | src
  /-- a source that I = 1 replaces by imm32. -/
  | srcImm
  | pred
  deriving DecidableEq, Repr

/-- How an instruction uses pd (R75, R78). -/
inductive PdRole where
  | zero
  | dst
  /-- [0] the flag; [2:1] zero. -/
  | flag
  /-- [0] the flag; [2:1] the order. -/
  | flagOrder
  deriving DecidableEq, Repr

/-- The roles of the five operand fields. -/
structure LaneUse where
  d : Role
  a : Role
  b : Role
  c : Role
  pd : PdRole
  deriving DecidableEq, Repr

/-- Elements per 32-bit register of a type (R33). -/
def elems (ty : Nat) : Nat :=
  if ty == 0x03 || ty == 0x04 || ty == 0x11 then 2 else if ty == 0x05 || ty == 0x06 then 4 else 1

def isFloatTy (ty : Nat) : Bool := ty == 0x10 || ty == 0x11
def isIntTy (ty : Nat) : Bool := 1 ≤ ty && ty ≤ 6
def isMemOp (op : Nat) : Bool := 0xC0 ≤ op && op ≤ 0xC7
def isRemoteOp (op : Nat) : Bool := 0xE0 ≤ op && op ≤ 0xE7
/-- The long-latency classes (R73). -/
def isLongOp (op : Nat) : Bool := isMemOp op || isRemoteOp op

/-- The types an opcode accepts (R79). -/
def laneTypes (op : Nat) : List Nat :=
  let int6 := [1, 2, 3, 4, 5, 6]
  if op ≤ 0x02 || op == 0x05 || op == 0x06 || op == 0x20 then int6
  else if op == 0x03 || op == 0x04 then [1, 2, 3, 4]
  else if op == 0x07 || op == 0x08 then [1, 3, 5]
  else if op == 0x09 then [5, 6]
  else if op == 0x0A || op == 0x0B || op == 0x19 || op == 0xE0 then [1, 2]
  else if op == 0x23 then [2]
  else if op ≤ 0x22 || (0xA0 ≤ op && op ≤ 0xA2) || (0xA5 ≤ op && op ≤ 0xA7) || op == 0xE3 then [0]
  else if 0x40 ≤ op && op ≤ 0x45 then [0x10, 0x11]
  else if 0x46 ≤ op && op ≤ 0x56 then [0x10]
  else if op == 0x80 then int6 ++ [0x10, 0x11]
  else if op == 0x82 then [0x10, 0x11]
  else if op == 0x81 || op == 0x83 || op == 0x84 then [0x20, 0x21, 0x22, 0x23]
  else if op == 0xA3 || op == 0xA4 then [1, 2, 0x10]
  else if 0xC0 ≤ op && op ≤ 0xC3 then [0x30, 0x31, 0, 0x32, 0x33]
  else if op == 0xC4 || op == 0xC5 then [1, 2, 0x32]
  else if op == 0xC6 then [1, 2, 0, 0x10, 0x33]
  else if op == 0xC7 || op == 0xE7 then [0x10]
  else if op == 0xE1 || op == 0xE2 then [1, 2, 0x10]
  else if op == 0xE4 || op == 0xE5 then [0x32]
  else if op == 0xE6 then [0, 0x32]
  else []

/-- The fields each opcode uses (R78, R119). BKCMD reads c for ACCF, SUMROW, SETF and ZERO, and ZERO reads no b (R174). -/
def laneUse (op : Nat) (w : LaneFields) : LaneUse :=
  let x := w.x.val; let ty := w.ty.val
  let cmd := x / 16
  if op ≤ 0x03 || op == 0x05 || op == 0x06 || op == 0x0A || op == 0x0B || op == 0x10 || op == 0x11 || op == 0x12 ||
      op == 0x14 || op == 0x16 || op == 0x17 || op == 0x18 || op == 0x19 then ⟨.dst, .src, .srcImm, .zero, .zero⟩
  else if op == 0x04 || op == 0x09 || op == 0x15 || op == 0x1A then ⟨.dst, .src, .srcImm, .src, .zero⟩
  else if op ≤ 0x1D then ⟨.dst, .src, .zero, .zero, .zero⟩
  else if op == 0x20 || op == 0x48 then ⟨.zero, .src, .srcImm, .zero, .dst⟩
  else if op == 0x21 then ⟨.dst, .src, .srcImm, .zero, .zero⟩
  else if op == 0x22 then ⟨.dst, .zero, .srcImm, .zero, .zero⟩
  else if op == 0x23 then ⟨.dst, .zero, .zero, .zero, .zero⟩
  else if op == 0x43 then ⟨.dst, .src, .srcImm, .src, .zero⟩
  else if (0x40 ≤ op && op ≤ 0x45) || op == 0x4C || op == 0x55 then ⟨.dst, .src, .srcImm, .zero, .zero⟩
  else if op ≤ 0x56 then ⟨.dst, .src, .zero, .zero, .zero⟩
  else if op == 0x80 then ⟨.dst, .src, .zero, if elems ty == 2 * elems x then .src else .zero, .zero⟩
  else if op == 0x81 then ⟨.dst, .src, .srcImm, if x == 0x10 then .src else .zero, .zero⟩
  else if op == 0x82 then ⟨.dst, .src, .srcImm, .zero, .zero⟩
  else if op == 0x83 || op == 0x84 || op == 0xA0 then ⟨.dst, .src, .srcImm, .src, .zero⟩
  else if op == 0xA2 then ⟨.zero, .src, .zero, .zero, .dst⟩
  else if op == 0xA5 then ⟨.zero, .pred, .pred, .pred, .dst⟩
  else if op == 0xA6 then (if x == 1 then ⟨.zero, .src, .zero, .zero, .dst⟩ else ⟨.dst, .pred, .zero, .zero, .zero⟩)
  else if op ≤ 0xA7 then ⟨.dst, .src, .zero, .zero, .zero⟩
  else if op == 0xC0 || op == 0xC2 || op == 0xC7 then ⟨.dst, .src, .zero, .zero, .flag⟩
  else if op == 0xC1 || op == 0xC3 then ⟨.zero, .src, .srcImm, .zero, .flag⟩
  else if op == 0xC4 || op == 0xC5 then ⟨.dst, .src, .srcImm, if cmd == 7 then .src else .zero, .flagOrder⟩
  else if op == 0xC6 then
    ⟨.zero, .src, if cmd == 14 then .zero else .srcImm,
      if cmd == 6 || cmd == 11 || cmd == 13 || cmd == 14 then .src else .zero, .flagOrder⟩
  else if op == 0xE4 || op == 0xE6 then ⟨.zero, .src, .src, .src, .flag⟩
  else ⟨.zero, .src, .srcImm, .src, .flag⟩

/-- The rm values an opcode accepts (R77); the memory class's scope is checked with the order (R169). A CVT whose x is no source type that
its ty accepts meets no row of R77: its rm is judged by ty alone, as for an integer source where ty is an integer, so that an rm of 2 or
more names slot 3 before x names slot 7 (log 10, DESIGN CHOICE). -/
def laneRmOk (op : Nat) (w : LaneFields) : Bool :=
  let rm := w.rm.val; let ty := w.ty.val; let x := w.x.val
  if op ≤ 0x02 || op == 0x04 || op == 0x07 || op == 0x08 || op == 0x09 then rm ≤ 1
  else if (0x40 ≤ op && op ≤ 0x43) || op == 0x4B || op == 0x4C || op == 0x55 then
    if ty == 0x11 then rm == 0 || rm == 6 else rm ≤ 6
  else if op == 0x53 then rm ≤ 5
  else if op == 0x80 then (if isFloatTy ty then rm ≤ 6 else if isFloatTy x then rm ≤ 5 else rm ≤ 1)
  else if op == 0xA3 || op == 0xA4 then (if ty == 0x10 then rm ≤ 6 else rm ≤ 1)
  else if isMemOp op then true
  else rm == 0

/-- The order field: x[5:4] in LD, ST, LDS, STS and ACCRD, pd[2:1] in ATOM, ATOMS and BKCMD (R169). -/
def laneOrder (op : Nat) (w : LaneFields) : Nat :=
  if op == 0xC4 || op == 0xC5 || op == 0xC6 then w.pd.val / 2 else bits w.x.val 5 4

/-- The x values an opcode accepts (R78, R79, R80). -/
def laneXOk (op : Nat) (w : LaneFields) : Bool :=
  let x := w.x.val; let ty := w.ty.val; let cmd := x / 16
  if op == 0x20 then x ≤ 5
  else if op == 0x48 then x ≤ 7
  else if op == 0x15 || op == 0xA5 || op == 0xE7 then true
  else if op == 0x21 then x ≤ 7
  else if op == 0x80 then (isIntTy x || isFloatTy x) && x != ty && elems ty != 4 * elems x
  else if op == 0x81 then isFloatTy x
  else if op == 0x82 then 0x20 ≤ x && x ≤ 0x23
  else if op == 0xA0 then bits x 7 5 == 0 && bits x 4 2 ≤ 5
  else if op == 0xA1 then x ≤ 1
  else if op == 0xA2 then x ≤ 3
  else if op == 0xA7 then x ≤ 2
  else if op == 0xA3 then x ≤ 5 && (ty != 0x10 || x ≤ 2)
  else if op == 0xA4 then bits x 7 4 == 0 && bits x 2 0 ≤ 5 && (ty != 0x10 || bits x 2 0 ≤ 2)
  else if op == 0xA6 then x ≤ 1
  else if op == 0xC0 || op == 0xC7 then bits x 7 6 ≤ 1
  else if op == 0xC1 then bits x 7 6 == 0
  else if op == 0xC2 || op == 0xC3 then bits x 7 6 == 0 && bits x 3 2 == 0 && bits x 1 0 ≤ 2
  else if op == 0xC4 then cmd ≤ 8 && (ty != 0x32 || cmd == 6 || cmd == 7)
  else if op == 0xC5 then cmd ≤ 8 && (ty != 0x32 || cmd == 6 || cmd == 7) && bits x 3 2 == 0 && bits x 1 0 ≤ 2
  else if op == 0xC6 then cmd ≤ 14 && bits x 3 2 == 0 && (bits x 1 0 == 1 || bits x 1 0 == 2)
  else x == 0

/-- The type of each beater command (R80). -/
def beaterTyOk (cmd ty : Nat) : Bool :=
  if cmd ≤ 2 then ty == 1 || ty == 2
  else if cmd ≤ 5 then ty == 0
  else if cmd ≤ 12 then ty == 0x10
  else ty == 0x33

/-- Consecutive v-registers that a memory or remote operand names (R33, R177, R218). -/
def operandWidth (op ty : Nat) (isD isA isB : Bool) : Nat :=
  let byTy := if ty == 0x32 then 2 else if ty == 0x33 then 4 else 1
  if (op == 0xC0 || op == 0xC2) && isD then byTy
  else if (op == 0xC1 || op == 0xC3) && isB then byTy
  else if (op == 0xC4 || op == 0xC5) && !isA then (if ty == 0x32 then 2 else 1)
  else if op == 0xC7 && isD then 2
  else if isRemoteOp op && isA then 2
  else if (op == 0xE4 || op == 0xE5 || op == 0xE6) && isB then 2
  else 1

/-- A field's value fails its role: a non-zero unused field, a predicate code above 7, an s destination without U, or a
v-register group out of alignment (R11, R33, R75). -/
def roleBad (w : LaneFields) (r : Role) (width : Nat) (f : Fin 128) : Bool :=
  match r with
  | .zero => f.val != 0
  | .pred => 7 < f.val
  | .dst => if 64 ≤ f.val then !w.u else f.val % width != 0
  | .src => f.val < 64 && f.val % width != 0
  | .srcImm => if w.i then f.val != 0 else f.val < 64 && f.val % width != 0

/-- U = 1 is refused on these (R81). -/
def neverUniform (op : Nat) : Bool :=
  op == 0x23 || op == 0xA0 || op == 0xA4 || op == 0xA5 || op == 0xA6 || op == 0xA7

/-- The checks of R82 on a lane word of an assigned opcode, in the order of its slots. A non-zero imm32 that nothing reads
is slot 1, a beater command of the wrong type slot 2, order 2 with a scope that it is not accepted with (R169) slot 3, and I = 1 with a
.b64 or .b128 that it is not accepted with (R164, R170) slot 6, since the manual does not say which of the two fields fails there (log
10, DESIGN CHOICE). -/
def laneChecks (op : Nat) (w : LaneFields) : List (Nat × Bool) :=
  let ty := w.ty.val; let use := laneUse op w; let order := laneOrder op w; let rm := w.rm.val
  let wideData := ty == 0x33 && (op == 0xC0 || op == 0xC1 || op == 0xC2 || op == 0xC3)
  let orderBad := isMemOp op && (order == 3 || (order == 2 && op != 0xC0 && op != 0xC4))
  let inPd := op == 0xC4 || op == 0xC5 || op == 0xC6
  [ (1, !isMemOp op && !w.i && w.imm != 0),
    (2, !(laneTypes op).contains ty || (op == 0xC6 && w.x.val / 16 ≤ 14 && !beaterTyOk (w.x.val / 16) ty)),
    (3, !laneRmOk op w || (isMemOp op && (rm == 7 || (rm == 6 && order != 2) || (order == 2 && rm != 6 && !orderBad)))),
    (6, (w.u && neverUniform op) || (w.i && use.b != .srcImm) ||
        (w.i && (ty == 0x32 || ty == 0x33) && (op == 0xC1 || op == 0xC3 || op == 0xC4 || op == 0xC5))),
    (7, !laneXOk op w || (orderBad && !inPd)),
    (8, (use.pd == .zero && w.pd.val != 0) || (use.pd == .flag && 1 < w.pd.val) || (orderBad && inPd)),
    (9, roleBad w use.d (operandWidth op ty true false false) w.d || (wideData && use.d == .dst && 64 ≤ w.d.val) ||
        (op == 0xC7 && 64 ≤ w.d.val && w.d.val % 2 != 0)),
    (10, roleBad w use.a (operandWidth op ty false true false) w.a),
    (11, roleBad w use.b (operandWidth op ty false false true) w.b || (wideData && use.b == .srcImm && !w.i && 64 ≤ w.b.val)),
    (12, roleBad w use.c (operandWidth op ty false false false) w.c) ]

/-- The constructor of an opcode (R79). -/
def mkLane : Nat → Option (LaneFields → Instr)
  | 0x00 => some .iadd
  | 0x01 => some .isub
  | 0x02 => some .imul
  | 0x03 => some .imulh
  | 0x04 => some .imad
  | 0x05 => some .imin
  | 0x06 => some .imax
  | 0x07 => some .iabs
  | 0x08 => some .ineg
  | 0x09 => some .idot4
  | 0x0A => some .idiv
  | 0x0B => some .irem
  | 0x10 => some .laneAnd
  | 0x11 => some .laneOr
  | 0x12 => some .laneXor
  | 0x13 => some .not
  | 0x14 => some .laneAndn
  | 0x15 => some .bmux3
  | 0x16 => some .laneShl
  | 0x17 => some .laneShr
  | 0x18 => some .laneSar
  | 0x19 => some .bfe
  | 0x1A => some .bfi
  | 0x1B => some .lanePopc
  | 0x1C => some .laneClz
  | 0x1D => some .brev
  | 0x20 => some .icmp
  | 0x21 => some .sel
  | 0x22 => some .mov
  | 0x23 => some .movid
  | 0x40 => some .fadd
  | 0x41 => some .fsub
  | 0x42 => some .fmul
  | 0x43 => some .ffma
  | 0x44 => some .fmin
  | 0x45 => some .fmax
  | 0x46 => some .fabs
  | 0x47 => some .fneg
  | 0x48 => some .fcmp
  | 0x49 => some .frcp
  | 0x4A => some .frsq
  | 0x4B => some .fsqrt
  | 0x4C => some .fdiv
  | 0x4D => some .fexp2
  | 0x4E => some .flog2
  | 0x4F => some .fsin
  | 0x50 => some .fcos
  | 0x51 => some .ftanh
  | 0x52 => some .ffrc
  | 0x53 => some .frnd
  | 0x54 => some .fclass
  | 0x55 => some .fscl
  | 0x56 => some .fexpo
  | 0x80 => some .cvt
  | 0x81 => some .qcvt
  | 0x82 => some .dqcvt
  | 0x83 => some .pack
  | 0x84 => some .unpack
  | 0xA0 => some .xperm
  | 0xA1 => some .gmask
  | 0xA2 => some .gtest
  | 0xA3 => some .fold
  | 0xA4 => some .scan
  | 0xA5 => some .pset
  | 0xA6 => some .pmov
  | 0xA7 => some .gpeer
  | 0xC0 => some .ld
  | 0xC1 => some .st
  | 0xC2 => some .lds
  | 0xC3 => some .sts
  | 0xC4 => some .atom
  | 0xC5 => some .atoms
  | 0xC6 => some .bkcmd
  | 0xC7 => some .accrd
  | 0xE0 => some .radd
  | 0xE1 => some .rmin
  | 0xE2 => some .rmax
  | 0xE3 => some .ror
  | 0xE4 => some .ronce
  | 0xE5 => some .rarrive
  | 0xE6 => some .rread
  | 0xE7 => some .raddf
  | _ => none

/-- The opcode and fields of a lane instruction (R79). -/
def laneOf : Instr → Option (Nat × LaneFields)
  | .iadd w => some (0x00, w)
  | .isub w => some (0x01, w)
  | .imul w => some (0x02, w)
  | .imulh w => some (0x03, w)
  | .imad w => some (0x04, w)
  | .imin w => some (0x05, w)
  | .imax w => some (0x06, w)
  | .iabs w => some (0x07, w)
  | .ineg w => some (0x08, w)
  | .idot4 w => some (0x09, w)
  | .idiv w => some (0x0A, w)
  | .irem w => some (0x0B, w)
  | .laneAnd w => some (0x10, w)
  | .laneOr w => some (0x11, w)
  | .laneXor w => some (0x12, w)
  | .not w => some (0x13, w)
  | .laneAndn w => some (0x14, w)
  | .bmux3 w => some (0x15, w)
  | .laneShl w => some (0x16, w)
  | .laneShr w => some (0x17, w)
  | .laneSar w => some (0x18, w)
  | .bfe w => some (0x19, w)
  | .bfi w => some (0x1A, w)
  | .lanePopc w => some (0x1B, w)
  | .laneClz w => some (0x1C, w)
  | .brev w => some (0x1D, w)
  | .icmp w => some (0x20, w)
  | .sel w => some (0x21, w)
  | .mov w => some (0x22, w)
  | .movid w => some (0x23, w)
  | .fadd w => some (0x40, w)
  | .fsub w => some (0x41, w)
  | .fmul w => some (0x42, w)
  | .ffma w => some (0x43, w)
  | .fmin w => some (0x44, w)
  | .fmax w => some (0x45, w)
  | .fabs w => some (0x46, w)
  | .fneg w => some (0x47, w)
  | .fcmp w => some (0x48, w)
  | .frcp w => some (0x49, w)
  | .frsq w => some (0x4A, w)
  | .fsqrt w => some (0x4B, w)
  | .fdiv w => some (0x4C, w)
  | .fexp2 w => some (0x4D, w)
  | .flog2 w => some (0x4E, w)
  | .fsin w => some (0x4F, w)
  | .fcos w => some (0x50, w)
  | .ftanh w => some (0x51, w)
  | .ffrc w => some (0x52, w)
  | .frnd w => some (0x53, w)
  | .fclass w => some (0x54, w)
  | .fscl w => some (0x55, w)
  | .fexpo w => some (0x56, w)
  | .cvt w => some (0x80, w)
  | .qcvt w => some (0x81, w)
  | .dqcvt w => some (0x82, w)
  | .pack w => some (0x83, w)
  | .unpack w => some (0x84, w)
  | .xperm w => some (0xA0, w)
  | .gmask w => some (0xA1, w)
  | .gtest w => some (0xA2, w)
  | .fold w => some (0xA3, w)
  | .scan w => some (0xA4, w)
  | .pset w => some (0xA5, w)
  | .pmov w => some (0xA6, w)
  | .gpeer w => some (0xA7, w)
  | .ld w => some (0xC0, w)
  | .st w => some (0xC1, w)
  | .lds w => some (0xC2, w)
  | .sts w => some (0xC3, w)
  | .atom w => some (0xC4, w)
  | .atoms w => some (0xC5, w)
  | .bkcmd w => some (0xC6, w)
  | .accrd w => some (0xC7, w)
  | .radd w => some (0xE0, w)
  | .rmin w => some (0xE1, w)
  | .rmax w => some (0xE2, w)
  | .ror w => some (0xE3, w)
  | .ronce w => some (0xE4, w)
  | .rarrive w => some (0xE5, w)
  | .rread w => some (0xE6, w)
  | .raddf w => some (0xE7, w)
  | _ => none

/-- The fields of a 96-bit lane word (R74). -/
def laneFields (w : Nat) : LaneFields :=
  { u := bit w 87, i := bit w 86, pg := Fin.ofNat 8 (bits w 85 83), pn := bit w 82,
    d := Fin.ofNat 128 (bits w 81 75), a := Fin.ofNat 128 (bits w 74 68), b := Fin.ofNat 128 (bits w 67 61),
    c := Fin.ofNat 128 (bits w 60 54), pd := Fin.ofNat 8 (bits w 53 51), rm := Fin.ofNat 8 (bits w 50 48),
    ty := Fin.ofNat 256 (bits w 47 40), x := Fin.ofNat 256 (bits w 39 32), imm := BitVec.ofNat 32 (bits w 31 0) }

/-- A lane word (R74): the instruction, or the slot that ILLEGAL names; an unassigned opcode is slot 0 (R79, R82). -/
def decodeLane (w : Nat) : Except Nat Instr :=
  match mkLane (bits w 95 88) with
  | none => .error 0
  | some mk => accept (laneChecks (bits w 95 88) (laneFields w)) (mk (laneFields w))

def b2n (b : Bool) : Nat := if b then 1 else 0

/-- The 96-bit word of an opcode and its fields (R74). -/
def encodeLane (op : Nat) (w : LaneFields) : Nat :=
  op * 2 ^ 88 + b2n w.u * 2 ^ 87 + b2n w.i * 2 ^ 86 + w.pg.val * 2 ^ 83 + b2n w.pn * 2 ^ 82 + w.d.val * 2 ^ 75 +
  w.a.val * 2 ^ 68 + w.b.val * 2 ^ 61 + w.c.val * 2 ^ 54 + w.pd.val * 2 ^ 51 + w.rm.val * 2 ^ 48 + w.ty.val * 2 ^ 40 +
  w.x.val * 2 ^ 32 + w.imm.toNat

/-! ## Encoding the scalar words -/

def encSR (fn : Nat) (d a b : Fin 64) (w : Bool) : Nat :=
  d.val * 2 ^ 22 + a.val * 2 ^ 16 + b.val * 2 ^ 10 + b2n w * 2 ^ 9 + fn
def encSI (sub : Nat) (d a : Fin 64) (imm : Nat) : Nat :=
  0x1 * 2 ^ 28 + sub * 2 ^ 25 + d.val * 2 ^ 19 + a.val * 2 ^ 13 + imm
def encSC (sub : Nat) (d : Fin 64) (imm : BitVec 20) : Nat := 0x2 * 2 ^ 28 + sub * 2 ^ 26 + d.val * 2 ^ 20 + imm.toNat
def encSB (cond : Nat) (a b : Fin 64) (off : BitVec 13) : Nat :=
  0x3 * 2 ^ 28 + cond * 2 ^ 25 + a.val * 2 ^ 19 + b.val * 2 ^ 13 + off.toNat
def encSM (sub d n : Nat) (a : Fin 64) (imm : BitVec 9) : Nat :=
  0x5 * 2 ^ 28 + sub * 2 ^ 25 + d * 2 ^ 19 + n * 2 ^ 15 + a.val * 2 ^ 9 + imm.toNat
def encSL (sub rest : Nat) : Nat := 0x6 * 2 ^ 28 + sub * 2 ^ 24 + rest
def encSX (major op a b c fl : Nat) : Nat :=
  major * 2 ^ 28 + op * 2 ^ 22 + a * 2 ^ 16 + b * 2 ^ 10 + c * 2 ^ 4 + fl
def encSY (sub rest : Nat) : Nat := 0xD * 2 ^ 28 + sub * 2 ^ 24 + rest

/-- The 32-bit word of a scalar instruction (R60-R70); none for the other steps. -/
def encodeScalar : Instr → Option Nat
  | .add d a b w => some (encSR 0x000 d a b w)
  | .sub d a b w => some (encSR 0x001 d a b w)
  | .mul d a b w => some (encSR 0x002 d a b w)
  | .mulh d a b w => some (encSR 0x003 d a b w)
  | .mulhn d a b w => some (encSR 0x004 d a b w)
  | .div d a b w => some (encSR 0x005 d a b w)
  | .divn d a b w => some (encSR 0x006 d a b w)
  | .rem d a b w => some (encSR 0x007 d a b w)
  | .remn d a b w => some (encSR 0x008 d a b w)
  | .and d a b w => some (encSR 0x010 d a b w)
  | .or d a b w => some (encSR 0x011 d a b w)
  | .xor d a b w => some (encSR 0x012 d a b w)
  | .andn d a b w => some (encSR 0x013 d a b w)
  | .shl d a b w => some (encSR 0x018 d a b w)
  | .shr d a b w => some (encSR 0x019 d a b w)
  | .sar d a b w => some (encSR 0x01A d a b w)
  | .min d a b w => some (encSR 0x020 d a b w)
  | .max d a b w => some (encSR 0x021 d a b w)
  | .minn d a b w => some (encSR 0x022 d a b w)
  | .maxn d a b w => some (encSR 0x023 d a b w)
  | .slt d a b w => some (encSR 0x028 d a b w)
  | .sltn d a b w => some (encSR 0x029 d a b w)
  | .seq d a b w => some (encSR 0x02A d a b w)
  | .clz d a w => some (encSR 0x030 d a 0 w)
  | .ctz d a w => some (encSR 0x031 d a 0 w)
  | .popc d a w => some (encSR 0x032 d a 0 w)
  | .addi d a imm => some (encSI 0 d a imm.toNat)
  | .andi d a imm => some (encSI 1 d a imm.toNat)
  | .ori d a imm => some (encSI 2 d a imm.toNat)
  | .xori d a imm => some (encSI 3 d a imm.toNat)
  | .shli d a cnt => some (encSI 4 d a cnt.val)
  | .shri d a cnt => some (encSI 5 d a cnt.val)
  | .sari d a cnt => some (encSI 6 d a cnt.val)
  | .slti d a imm => some (encSI 7 d a imm.toNat)
  | .li d imm => some (encSC 0 d imm)
  | .lis d imm => some (encSC 1 d imm)
  | .lpc d imm => some (encSC 2 d imm)
  | .beq a b off => some (encSB 0 a b off)
  | .bne a b off => some (encSB 1 a b off)
  | .blt a b off => some (encSB 2 a b off)
  | .bge a b off => some (encSB 3 a b off)
  | .bltn a b off => some (encSB 4 a b off)
  | .bgen a b off => some (encSB 5 a b off)
  | .jmp off => some (0x4 * 2 ^ 28 + off.toNat)
  | .call off => some (0x4 * 2 ^ 28 + 1 * 2 ^ 26 + off.toNat)
  | .jr a => some (0x4 * 2 ^ 28 + 2 * 2 ^ 26 + a.val * 2 ^ 20)
  | .ret => some (0x4 * 2 ^ 28 + 3 * 2 ^ 26)
  | .sld d n a imm => some (encSM 0 d.val n.val a imm)
  | .sldw d n a imm => some (encSM 1 d.val n.val a imm)
  | .sst d n a imm => some (encSM 2 d.val n.val a imm)
  | .sstw d n a imm => some (encSM 3 d.val n.val a imm)
  | .slds d lvl a imm => some (encSM 4 d.val lvl.val a imm)
  | .ssts d lvl a imm => some (encSM 5 d.val lvl.val a imm)
  | .bld n a imm => some (encSM 6 0 n.val a imm)
  | .badj n a imm => some (encSM 7 0 n.val a imm)
  | .lq off => some (encSL 0 off.toNat)
  | .lqr a => some (encSL 1 (a.val * 2 ^ 18))
  | .lwait => some (encSL 2 0)
  | .bany p off => some (encSL 3 (p.val * 2 ^ 21 + off.toNat))
  | .ball p off => some (encSL 4 (p.val * 2 ^ 21 + off.toNat))
  | .bnone p off => some (encSL 5 (p.val * 2 ^ 21 + off.toNat))
  | .mvp d p => some (encSL 6 (d.val * 2 ^ 18 + p.val * 2 ^ 15))
  | .mvps p a => some (encSL 7 (p.val * 2 ^ 21 + a.val * 2 ^ 15))
  | .fwait mask => some (encSL 8 mask.toNat)
  | .mxshape a b c => some (encSX 0x7 0x00 a.val b.val c.val 0)
  | .mxldw a b c fl => some (encSX 0x7 0x01 a.val b.val c.val fl.val)
  | .mxswap fl => some (encSX 0x7 0x02 0 0 0 fl.val)
  | .mxzero c => some (encSX 0x7 0x03 0 0 c.val 0)
  | .mxmul a b c fl => some (encSX 0x7 0x04 a.val b.val c.val fl.val)
  | .mxdrain a b c fl => some (encSX 0x7 0x05 a.val b.val c.val fl.val)
  | .mxstat a => some (encSX 0x7 0x06 a.val 0 0 0)
  | .tmov a b c fl => some (encSX 0x8 0x00 a.val b.val c.val fl.val)
  | .tmova a b c fl => some (encSX 0x8 0x01 a.val b.val (2 * c.val) fl.val)
  | .bseal a => some (encSX 0x8 0x02 a.val 0 0 0)
  | .bwait b => some (encSX 0x8 0x03 0 b.val 0 0)
  | .seal a b fl => some (encSX 0x8 0x04 a.val b.val 0 fl.val)
  | .unseal a b fl => some (encSX 0x8 0x05 a.val b.val 0 fl.val)
  | .home a b c fl => some (encSX 0x8 0x06 a.val b.val c.val fl.val)
  | .nmrun a b c fl => some (encSX 0x8 0x07 a.val b.val c.val fl.val)
  | .rbulk a b c fl => some (encSX 0x9 0x00 a.val b.val (2 * c.val) fl.val)
  | .rquiet => some (encSX 0x9 0x01 0 0 0 0)
  | .bar c => some (encSX 0xA 0x00 0 0 c.val 0)
  | .arrset a b fl => some (encSX 0xA 0x01 a.val b.val 0 fl.val)
  | .arrwait a b c => some (encSX 0xA 0x02 a.val b.val c.val 0)
  | .fence c => some (encSX 0xA 0x03 0 0 c.val 0)
  | .waita a b c => some (encSX 0xA 0x04 a.val b.val (2 * c.val) 0)
  | .qtile a b c fl => some (encSX 0xB 0x00 a.val b.val (2 * c.val) fl.val)
  | .wmbind b c => some (encSX 0xB 0x01 0 b.val c.val 0)
  | .wmflush b fl => some (encSX 0xB 0x02 0 b.val 0 fl.val)
  | .wmrd a b c => some (encSX 0xB 0x03 a.val b.val c.val 0)
  | .wmscale a b c => some (encSX 0xB 0x04 a.val b.val c.val 0)
  | .wmclose b fl => some (encSX 0xB 0x05 0 b.val 0 fl.val)
  | .wmreset b fl => some (encSX 0xB 0x06 0 b.val 0 fl.val)
  | .qtake a b => some (encSX 0xC 0x00 a.val b.val 0 0)
  | .qemit b c => some (encSX 0xC 0x01 0 b.val c.val 0)
  | .qdone b => some (encSX 0xC 0x02 0 b.val 0 0)
  | .crd d cr => some (encSY 0 (d.val * 2 ^ 18 + cr.toNat))
  | .cwr a cr => some (encSY 1 (a.val * 2 ^ 18 + cr.toNat))
  | .trap imm => some (encSY 2 imm.toNat)
  | .eret => some (encSY 3 0)
  | .yield => some (encSY 4 0)
  | .sleep a => some (encSY 5 (a.val * 2 ^ 18))
  | .exit => some (encSY 6 0)
  | .nop => some (encSY 7 0)
  | .brk imm => some (encSY 8 imm.toNat)
  | _ => none

/-- The number of bits and the word of an instruction that has one: scalar 32 bits, lane 96 bits. -/
def encode (i : Instr) : Option (Nat × Nat) :=
  match laneOf i with
  | some (op, w) => some (96, encodeLane op w)
  | none => (encodeScalar i).map fun w => (32, w)

/-- The instruction read from its bytes in memory order: four bytes are a scalar word, twelve a lane word (R59, R71). -/
def decodeBytes (b : List Byte) : Option Instr :=
  match (if b.length == 12 then decodeLane (ofLeBytes b) else decodeScalar (ofLeBytes b)) with
  | .ok i => some i
  | .error _ => none

/-- The instruction of the opcode table's bits, laid out as the hardware stores them: up to 32 bits a scalar word, more a
lane word. -/
def decodeTableWord (nbits w : Nat) : Option Instr :=
  if nbits ≤ 32 then decodeBytes (leBytes 4 w) else decodeBytes (leBytes 12 w)

end Sys2Proof
end

