-- ==== Sys2Proof/Machine/Float.lean ====
section
/-! DEFINITION. FP32 and BF16 (R36-R45): exact values, the one rounding, and the functions computed on them. -/

namespace Sys2Proof.Machine

/-- FPSTAT's conditions (R26): NV 16, DZ 8, OF 4, UF 2, NX 1. -/
abbrev Flags5 := BitVec 5

def fNV : Flags5 := 16
def fDZ : Flags5 := 8
def fOF : Flags5 := 4
def fUF : Flags5 := 2
def fNX : Flags5 := 1

/-- A float format: precision, exponent of the least subnormal, pattern of +Inf, position of the sign. -/
structure Fmt where
  p : Nat
  qmin : Int
  inf : Nat
  sign : Nat
  deriving DecidableEq, Repr

/-- FP32 (R36) and BF16 (R43). -/
def f32 : Fmt := { p := 24, qmin := -149, inf := 0x7F800000, sign := 31 }
def bf16 : Fmt := { p := 8, qmin := -133, inf := 0x7F80, sign := 15 }

/-- The canonical NaN of a format (R38). -/
def Fmt.nan (f : Fmt) : Nat := f.inf + 2 ^ (f.p - 2)

/-- The value classes of R36; a finite value is m * 2^e. -/
inductive FVal where
  | nan (signalling : Bool)
  | inf (neg : Bool)
  | fin (neg : Bool) (m : Nat) (e : Int)
  deriving DecidableEq, Repr

/-- The value of an encoding; with daz a subnormal reads as zero of its sign (R25). -/
def decodeF (f : Fmt) (daz : Bool) (x : Nat) : FVal :=
  let neg := bit x f.sign; let mag := x % 2 ^ f.sign; let ex := mag / 2 ^ (f.p - 1); let fr := mag % 2 ^ (f.p - 1)
  if f.inf < mag then .nan (!bit x (f.p - 2))
  else if mag = f.inf then .inf neg
  else if ex = 0 then (if daz then .fin neg 0 f.qmin else .fin neg fr f.qmin)
  else .fin neg (2 ^ (f.p - 1) + fr) (f.qmin + (ex - 1 : Nat))

def FVal.isNan : FVal → Bool
  | .nan _ => true
  | _ => false

def FVal.isSnan : FVal → Bool
  | .nan s => s
  | _ => false

/-- An exact result before its rounding: neg * num / den * 2^exp, a little more in magnitude where more is set. -/
inductive Exact where
  | nan (flags : Flags5)
  | inf (neg : Bool) (flags : Flags5)
  | fin (neg : Bool) (num den : Nat) (exp : Int) (more : Bool)
  deriving DecidableEq, Repr

def signBit (f : Fmt) (neg : Bool) : Nat := if neg then 2 ^ f.sign else 0

/-- The floor of the base-2 logarithm of num / den, both positive. -/
def ilog (num den : Nat) : Int :=
  let l : Int := (Nat.log2 num : Int) - Nat.log2 den
  if num * 2 ^ (-l).toNat < den * 2 ^ l.toNat then l - 1 else l

/-- num / den * 2^exp in units of 2^q: the integer below, and where the rest stands: 0 none, 1 below half, 2 half, 3 above. -/
def scaleTo (num den : Nat) (exp q : Int) (more : Bool) : Nat × Nat :=
  let n := num * 2 ^ (exp - q).toNat; let d := den * 2 ^ (q - exp).toNat; let r := n % d
  (n / d, if r = 0 then (if more then 1 else 0) else if 2 * r < d then 1 else if 2 * r = d then (if more then 3 else 2) else 3)

/-- Rounding away from zero in a mode of R37 (6 rounds as RNE). -/
def roundUp (rm : Nat) (neg : Bool) (odd : Bool) (rest : Nat) : Bool :=
  match rm with
  | 1 => false
  | 2 => neg && rest != 0
  | 3 => !neg && rest != 0
  | 4 => 2 ≤ rest
  | _ => rest == 3 || (rest == 2 && odd)

def roundInt (rm : Nat) (neg : Bool) (num den : Nat) (exp q : Int) (more : Bool) : Nat × Nat :=
  let (n, rest) := scaleTo num den exp q more
  (if roundUp rm neg (n % 2 == 1) rest then n + 1 else n, rest)

/-- The one rounding (R37, R39): encoding and flags. Tininess is detected after rounding; with ftz a tiny result is zero of
its sign with UF and NX. -/
def roundFin (f : Fmt) (rm : Nat) (ftz : Bool) (neg : Bool) (num den : Nat) (exp : Int) (more : Bool) : Nat × Flags5 :=
  if num = 0 then (signBit f neg, 0)
  else
    let e := ilog num den + exp
    let q0 := e - ((f.p : Int) - 1)
    let q := if q0 < f.qmin then f.qmin else q0
    let (n, rest) := roundInt rm neg num den exp q more
    let tiny := q0 < f.qmin && !(q0 + 1 == f.qmin && 2 ^ f.p ≤ (roundInt rm neg num den exp q0 more).1)
    let inexact := rest != 0
    let mag := (q - f.qmin).toNat * 2 ^ (f.p - 1) + n
    if tiny && ftz then (signBit f neg, fUF ||| fNX)
    else if f.inf ≤ mag then
      (signBit f neg + (if rm = 1 || rm = 6 || (rm = 2 && !neg) || (rm = 3 && neg) then f.inf - 1 else f.inf), fOF ||| fNX)
    else (signBit f neg + mag, if inexact then (if tiny then fUF ||| fNX else fNX) else 0)

/-- Any exact result rounded (R37-R39). -/
def roundF (f : Fmt) (rm : Nat) (ftz : Bool) : Exact → Nat × Flags5
  | .nan fl => (f.nan, fl)
  | .inf neg fl => (signBit f neg + f.inf, fl)
  | .fin neg num den exp more => roundFin f rm ftz neg num den exp more

/-- NV for a signalling NaN (R38). -/
def nvIf (b : Bool) : Flags5 := if b then fNV else 0

/-- An exact signed sum; an exact zero sum of unlike signs is +0, or -0 rounding down (IEEE 754-2019, which R36 names). -/
def addFin (rm : Nat) (n1 : Bool) (m1 : Nat) (e1 : Int) (n2 : Bool) (m2 : Nat) (e2 : Int) : Exact :=
  let e := if e1 < e2 then e1 else e2
  let a : Int := m1 * 2 ^ (e1 - e).toNat; let b : Int := m2 * 2 ^ (e2 - e).toNat
  let t := (if n1 then -a else a) + (if n2 then -b else b)
  if t = 0 then .fin (if m1 = 0 && m2 = 0 && n1 == n2 then n1 else rm == 2) 0 1 0 false
  else .fin (t < 0) t.natAbs 1 e false

/-- a + b (R40). -/
def addX (rm : Nat) (a b : FVal) : Exact :=
  match a, b with
  | .nan s, y => .nan (nvIf (s || y.isSnan))
  | _, .nan s => .nan (nvIf s)
  | .inf n, .inf k => if n == k then .inf n 0 else .nan fNV
  | .inf n, .fin .. => .inf n 0
  | .fin .., .inf n => .inf n 0
  | .fin n1 m1 e1, .fin n2 m2 e2 => addFin rm n1 m1 e1 n2 m2 e2

def FVal.neg : FVal → FVal
  | .nan s => .nan s
  | .inf n => .inf !n
  | .fin n m e => .fin (!n) m e

/-- a * b (R40). -/
def mulX (a b : FVal) : Exact :=
  match a, b with
  | .nan s, y => .nan (nvIf (s || y.isSnan))
  | _, .nan s => .nan (nvIf s)
  | .inf n, .inf k => .inf (n != k) 0
  | .inf n, .fin k m _ => if m = 0 then .nan fNV else .inf (n != k) 0
  | .fin k m _, .inf n => if m = 0 then .nan fNV else .inf (n != k) 0
  | .fin n1 m1 e1, .fin n2 m2 e2 => .fin (n1 != n2) (m1 * m2) 1 (e1 + e2) false

/-- a * b + c, rounded once; 0 * Inf is invalid whatever the addend (R38, R40). -/
def fmaX (rm : Nat) (a b c : FVal) : Exact :=
  let sn := a.isSnan || b.isSnan || c.isSnan
  match mulX a b with
  | .nan fl => .nan (fl ||| nvIf sn)
  | .inf n _ => (match c with
    | .nan s => .nan (nvIf s)
    | .inf k => if n == k then .inf n 0 else .nan fNV
    | .fin .. => .inf n 0)
  | .fin n m _ e _ => (match c with
    | .nan s => .nan (nvIf s)
    | .inf k => .inf k 0
    | .fin n2 m2 e2 => addFin rm n m e n2 m2 e2)

/-- a / b (R39, R40). -/
def divX (a b : FVal) : Exact :=
  match a, b with
  | .nan s, y => .nan (nvIf (s || y.isSnan))
  | _, .nan s => .nan (nvIf s)
  | .inf _, .inf _ => .nan fNV
  | .inf n, .fin k _ _ => .inf (n != k) 0
  | .fin n _ _, .inf k => .fin (n != k) 0 1 0 false
  | .fin n1 m1 e1, .fin n2 m2 e2 =>
    if m2 = 0 then (if m1 = 0 then .nan fNV else .inf (n1 != n2) fDZ)
    else .fin (n1 != n2) m1 m2 (e1 - e2) false

/-- The square root of m * 2^e to at least 64 bits. -/
def sqrtFin (m : Nat) (e : Int) : Exact :=
  let m1 := if e % 2 = 0 then m else 2 * m
  let e1 := if e % 2 = 0 then e else e - 1
  let x := m1 * 2 ^ 128; let r := Nat.sqrt x
  .fin false r 1 (e1 / 2 - 64) (r * r != x)

/-- The square root; of -0 it is -0 (R138). -/
def sqrtX : FVal → Exact
  | .nan s => .nan (nvIf s)
  | .inf neg => if neg then .nan fNV else .inf false 0
  | .fin neg m e => if m = 0 then .fin neg 0 1 0 false else if neg then .nan fNV else sqrtFin m e

/-- The order of finite values and infinities, -0 below +0. -/
def keyF : FVal → Int × Int × Nat
  | .nan _ => (0, 0, 0)
  | .inf neg => if neg then (-2, 0, 0) else (2, 0, 0)
  | .fin neg m e => if neg then (-1, e, m) else (1, e, m)

/-- The exact comparison of two finite or infinite values by IEEE rules: -1, 0 or 1; -0 equals +0. -/
def cmpF (a b : FVal) : Int :=
  match a, b with
  | .inf n, .inf k => if n == k then 0 else if n then -1 else 1
  | .inf n, _ => if n then -1 else 1
  | _, .inf n => if n then 1 else -1
  | .fin n1 m1 e1, .fin n2 m2 e2 =>
    let e := if e1 < e2 then e1 else e2
    let x : Int := m1 * 2 ^ (e1 - e).toNat; let y : Int := m2 * 2 ^ (e2 - e).toNat
    let x := if n1 then -x else x; let y := if n2 then -y else y
    if x < y then -1 else if y < x then 1 else 0
  | _, _ => 0

def negF : FVal → Bool
  | .nan _ => false
  | .inf n => n
  | .fin n _ _ => n

/-- minimumNumber or maximumNumber of two encodings (R40, R139): a selection. -/
def selectF (f : Fmt) (daz max : Bool) (x y : Nat) : Nat × Flags5 :=
  let a := decodeF f daz x; let b := decodeF f daz y
  let nv := nvIf (a.isSnan || b.isSnan)
  let enc (v : FVal) (w : Nat) := match v with | .fin n 0 _ => signBit f n | _ => w
  if a.isNan && b.isNan then (f.nan, nv)
  else if a.isNan then (enc b y, nv)
  else if b.isNan then (enc a x, nv)
  else
    let c := cmpF a b
    let less := c < 0 || (c == 0 && negF a && !negF b)
    (if less != max then enc a x else enc b y, nv)

/-! ## Functions computed to 320 fractional bits (R41; log 15) -/

def fxP : Nat := 320
def fxOne : Nat := 2 ^ fxP
def fxMul (a b : Nat) : Nat := a * b / fxOne

/-- z + z^3/3 + z^5/5 + ..., the inverse hyperbolic tangent. -/
def atanhSum : Nat → Nat → Nat → Nat → Nat
  | 0, _, _, _ => 0
  | n + 1, z2, pow, k => pow / k + atanhSum n z2 (fxMul pow z2) (k + 2)

def fxAtanh (z : Nat) : Nat := atanhSum 110 (fxMul z z) z 1
def fxLn2 : Nat := 2 * fxAtanh (fxOne / 3)

/-- y^k/k! + ..., from a term onwards. -/
def expSum : Nat → Nat → Nat → Nat → Nat
  | 0, _, _, _ => 0
  | n + 1, y, term, k => term + expSum n y (fxMul term y / k) (k + 1)

/-- 2^f for a fraction f. -/
def fxExp2 (f : Nat) : Nat := expSum 90 (fxMul f fxLn2) fxOne 1

/-- arctangent of 1 / n in units of 2^-bits. -/
def atanInv : Nat → Nat → Nat → Nat → Int
  | 0, _, _, _ => 0
  | t + 1, n2, pow, k => (pow / k : Nat) - atanInv t n2 (pow / n2) (k + 2)

/-- Pi in units of 2^-600 (Machin). -/
def piBits : Nat := (4 * (4 * atanInv 140 25 (2 ^ 600 / 5) 1 - atanInv 50 57121 (2 ^ 600 / 239) 1)).toNat

/-- The Taylor sum of sine (from r, k = 2) and cosine (from 1, k = 1) on an absolute value below 1. -/
def trigSum : Nat → Nat → Nat → Nat → Int
  | 0, _, _, _ => 0
  | n + 1, r2, term, k => (term : Int) - trigSum n r2 (fxMul term r2 / (k * (k + 1))) (k + 2)

/-- x = m * 2^e reduced: the quadrant, and |x - k pi/2| with its sign, in units of 2^-320. -/
def reduce (m : Nat) (e : Int) : Nat × Bool × Nat :=
  let x := m * 2 ^ (e + 450).toNat / 2 ^ (-(e + 450)).toNat
  let h := piBits / 2 / 2 ^ 150
  let k := (2 * x + h) / (2 * h)
  let kp := k * (piBits / 2) / 2 ^ 150
  if kp ≤ x then (k % 4, false, (x - kp) / 2 ^ 130) else (k % 4, true, (kp - x) / 2 ^ 130)

/-- sin or cos of a positive m * 2^e of at least 2^-13, as a signed number of 2^-320. -/
def sinCos (cosine : Bool) (m : Nat) (e : Int) : Int :=
  let (k, neg, r) := reduce m e; let r2 := fxMul r r
  let s := trigSum 50 r2 r 2; let s := if neg then -s else s; let c := trigSum 50 r2 fxOne 1
  match (k + if cosine then 1 else 0) % 4 with
  | 0 => s
  | 1 => c
  | 2 => -s
  | _ => -c

/-- x = m * 2^e has magnitude below 2^t. -/
def below (m : Nat) (e t : Int) : Bool := m == 0 || (Nat.log2 m : Int) + e < t

/-- A result that rounds to a neighbouring value y = m * 2^e and is not equal to it: y with NX, UF when y is subnormal. -/
def nearly (ftz neg : Bool) (m : Nat) (e : Int) : Nat × Flags5 :=
  let (x, _) := roundFin f32 0 false neg m 1 e false
  if x % 2 ^ 31 < 2 ^ 23 then (if ftz then (signBit f32 neg, fUF ||| fNX) else (x, fUF ||| fNX)) else (x, fNX)

def fixed (v : Int) : Exact := .fin (v < 0) v.natAbs fxOne 0 true

/-- The integer whose value m * 2^e is, if it is one. -/
def asInt (neg : Bool) (m : Nat) (e : Int) : Option Int :=
  let i := m * 2 ^ e.toNat / 2 ^ (-e).toNat
  if i * 2 ^ (-e).toNat = m * 2 ^ e.toNat then some (if neg then -(i : Int) else i) else none

/-- FEXP2 on a finite value (R41, R42). -/
def exp2Fin (ftz neg : Bool) (m : Nat) (e : Int) : Nat × Flags5 :=
  if !below m e 8 then (if neg then roundFin f32 0 ftz false 1 1 (-1000) true else roundFin f32 0 ftz false 1 1 1000 true)
  else match asInt neg m e with
    | some i => roundFin f32 0 ftz false 1 1 i false
    | none =>
      if below m e (-26) then nearly ftz false 1 0
      else
        let x := m * fxOne * 2 ^ e.toNat / 2 ^ (-e).toNat
        let i := x / fxOne; let fr := x % fxOne
        if neg then roundFin f32 0 ftz false (fxExp2 (fxOne - fr)) fxOne (-(i : Int) - 1) true
        else roundFin f32 0 ftz false (fxExp2 fr) fxOne i true

/-- FLOG2 on a positive finite value (R41, R42). -/
def log2Fin (ftz : Bool) (m : Nat) (e : Int) : Nat × Flags5 :=
  let l := Nat.log2 m; let i : Int := l + e
  if m = 2 ^ l then roundFin f32 0 ftz (i < 0) i.natAbs 1 0 false
  else
    let z := (m - 2 ^ l) * fxOne / (m + 2 ^ l)
    let fr := 2 * fxAtanh z * fxOne / fxLn2
    roundF f32 0 ftz (fixed (i * fxOne + fr))

/-- FTANH on a finite non-zero value (R41). -/
def tanhFin (ftz neg : Bool) (m : Nat) (e : Int) : Nat × Flags5 :=
  if below m e (-12) then nearly ftz neg m e
  else if !below m e 4 then nearly ftz neg 1 0
  else
    let x := m * fxOne * 2 ^ e.toNat / 2 ^ (-e).toNat
    let t := 2 * x * fxOne / fxLn2
    let i := t / fxOne; let fr := t % fxOne
    let y := fxExp2 (fxOne - fr) / 2 ^ (i + 1)
    roundFin f32 0 ftz neg ((fxOne - y) * fxOne / (fxOne + y)) fxOne 0 true

/-- The transcendental opcodes 0x49, 0x4A and 0x4D-0x51 on an encoding (R41, R42). -/
def transF (op : Nat) (daz ftz : Bool) (x : Nat) : Nat × Flags5 :=
  match decodeF f32 daz x with
  | .nan s => (f32.nan, nvIf s)
  | .inf neg =>
    if op = 0x49 then (signBit f32 neg, 0)
    else if op = 0x4A then (if neg then (f32.nan, fNV) else (0, 0))
    else if op = 0x4D then (if neg then (0, 0) else (f32.inf, 0))
    else if op = 0x4E then (if neg then (f32.nan, fNV) else (f32.inf, 0))
    else if op = 0x51 then (signBit f32 neg + 0x3F800000, 0)
    else (f32.nan, fNV)
  | .fin neg m e =>
    if m = 0 then
      (if op = 0x49 || op = 0x4A then (signBit f32 neg + f32.inf, fDZ)
       else if op = 0x4D || op = 0x50 then (0x3F800000, 0)
       else if op = 0x4E then (2 ^ 31 + f32.inf, fDZ)
       else (signBit f32 neg, 0))
    else if op = 0x49 then roundFin f32 0 ftz neg 1 m (-e) false
    else if op = 0x4A then
      (if neg then (f32.nan, fNV)
       else
         let m1 := if e % 2 = 0 then m else 2 * m; let e1 := if e % 2 = 0 then e else e - 1
         let r := Nat.sqrt (2 ^ 256 / m1)
         roundFin f32 0 ftz false r 1 (-(e1 / 2) - 128) (r * r * m1 != 2 ^ 256))
    else if op = 0x4D then exp2Fin ftz neg m e
    else if op = 0x4E then (if neg then (f32.nan, fNV) else log2Fin ftz m e)
    else if op = 0x51 then tanhFin ftz neg m e
    else if below m e (-13) then (if op = 0x50 then nearly ftz false 1 0 else nearly ftz neg m e)
    else
      let v := sinCos (op = 0x50) m e
      roundF f32 0 ftz (fixed (if neg && op ≠ 0x50 then -v else v))

/-! ## Rounding to an integer (R45, R142) -/

/-- m * 2^e rounded to an integer in a mode; whether that changed it. -/
def toIntegral (rm : Nat) (neg : Bool) (m : Nat) (e : Int) : Nat × Bool :=
  let (n, rest) := roundInt rm neg m 1 e 0 false
  (n, rest != 0)

end Sys2Proof.Machine
end

