-- ==== Sys2Proof/Machine/State.lean ====
section
/-! DEFINITION. The state of the machine as plain data (INVENTORY.md, State), what a step can stop with, and the state after
cold reset. -/

namespace Sys2Proof.Machine

/-! ## A group -/

/-- Where a group is placed (R20, R258). `stack` is the stack and stack core of a group on a stack core (R347). -/
structure Place where
  die : Nat := 0
  cluster : Nat := 0
  core : Nat := 0
  /-- physical lane 0-65. -/
  plane : Nat := 0
  /-- logical lane 0-63 (R247). -/
  lane : Nat := 0
  slot : Nat := 0
  stack : Option (Nat × Nat) := none
  deriving DecidableEq, Repr

/-- An entry of the lane queue (R16, R72, R73). -/
structure LqEntry where
  /-- lane-word index of the header. -/
  idx : Nat
  /-- the scalar position recorded by LQ. -/
  spc : Word
  /-- the header, once the clause has reached the head of the queue and the lane has fetched it. -/
  hdr : Option ClauseHeader := none
  /-- the flags that the header waits for have been clear: the clause issues. -/
  started : Bool := false
  /-- instructions of the clause that have issued. -/
  pos : Nat := 0
  /-- operand codes with a long-latency write pending within the clause (R73). -/
  dirty : List Nat := []
  /-- bits of the entry upset and correctable; whether it holds an uncorrectable error (R375). -/
  soft : List Nat := []
  bad : Bool := false
  deriving DecidableEq, Repr

/-- An entry of a home slice's wait table (R237). -/
structure WaitEntry where
  key : Nat
  w64 : Bool
  mask : Nat
  cmp : Nat
  e : Nat
  deriving DecidableEq, Repr

/-- What a fault says of itself (R253-R259). -/
structure FaultInfo where
  cause : Nat
  slot : Nat := 0xFF
  /-- raised by the lane stream. -/
  lane : Bool := false
  part : Bool := false
  hw : Bool := false
  tmask : Word32 := 0xFFFFFFFF
  addr : Word := 0
  brec : Option Nat := none
  detail : Word := 0
  /-- the physical lane that it was raised on, where the group has moved since (R380). -/
  plane : Option Nat := none
  deriving DecidableEq, Repr

/-- What the current scalar instruction waits for (R116, R240, R250). -/
inductive Wait where
  | none
  /-- FWAIT, LWAIT or an LQ waiting for room: a trap may abandon it. -/
  | lane
  /-- BWAIT, which a trap abandons (R181). -/
  | batch
  /-- SLEEP until the given CYCLE. -/
  | sleep (till : Nat)
  | exit
  /-- BAR at a scope, arrived; released. -/
  | bar (scope : Nat) (released : Bool)
  | arrwait (ext : Bool)
  /-- WAITA: EXT; its wait-table entry, or else the cycle of the next poll and the interval after it; whether the word is to be
  read again now. -/
  | waita (ext : Bool) (entry : Option WaitEntry) (poll gap : Nat) (due : Bool)
  | qtake
  | qemit
  | rquiet
  | fence
  /-- an engine instruction that stalls the stream until the given work completes. -/
  | engine (id : Nat)
  /-- BAR before its arrival: its wait of FENCE (R236). -/
  | barFence
  /-- an SX instruction that waits for the clauses enqueued before it and their memory: a release of the scalar stream (R275), a flush. -/
  | clauses
  /-- any other stall of an SX instruction; it re-executes. -/
  | sx
  /-- a matrix instruction that has entered its array's stream and is not yet accepted (R191). -/
  | matrix
  /-- the lane queue drains before the scalar stream stops at its instruction: on the fault that it has met (R254), or, with none, to
  execute again there. -/
  | drain (f : Option FaultInfo)
  /-- the lane queue drains before the PROT of a trap's entry stands (R92, R254): the trap's code. -/
  | trapDrain (code : Nat)
  deriving DecidableEq, Repr

/-- Whether a group is stopped (R253, R260, R262, R113). -/
inductive Stop where
  | running
  /-- parked on missing granules (64 KiB-aligned addresses), R262, R330; the fault and the clause position of its record, should
  the host refuse the request (R331). -/
  | parked (granules : List Nat) (f : FaultInfo) (clpos : Nat)
  /-- parked on a full merge table (R330): the granules whose entries list it, and the same. -/
  | parkedFull (granules : List Nat) (f : FaultInfo) (clpos : Nat)
  /-- waiting for the frame of a page to be zeroed (R329). -/
  | zeroing (page : Nat)
  /-- stopped on a fault whose record is not yet written: the fault and the clause position. -/
  | faulted (f : FaultInfo) (clpos : Nat)
  /-- stopped, with its record's SEQ. -/
  | recorded (seq : Nat) (f : FaultInfo) (clpos : Nat)
  /-- stopped at BRK. -/
  | brk (imm : BitVec 16)
  /-- a stack-core group stopped at an instruction it lacks (R349). -/
  | returned
  deriving DecidableEq, Repr

/-- The user traps held pending (R114). -/
structure Traps where
  rescale : Option (BitVec 64) := none
  remote : Bool := false
  sw : Option (BitVec 16) := none
  timer : Bool := false
  deriving DecidableEq, Repr

/-- REMSTAT (R28). -/
structure RemStat where
  d : Bool := false
  reason : BitVec 8 := 0
  count : BitVec 16 := 0
  seq : BitVec 32 := 0
  deriving DecidableEq, Repr

/-- A group's registers and what it is doing (R9, R19, R241). -/
structure Group where
  /-- the model's name of the group. -/
  key : Nat := 0
  /-- false: this slot holds no group. -/
  live : Bool := false
  /-- key of its team; for an NMRUN group, of its caller's team. -/
  team : Nat := 0
  git : Nat := 0
  place : Place := {}
  s : Vector Word 64 := Vector.replicate 64 0
  v : Vector (Vector Word32 32) 64 := Vector.replicate 64 (Vector.replicate 32 0)
  p : Vector Word32 8 := (Vector.replicate 8 0).set 0 0xFFFFFFFF
  b : Vector (BitVec 256) 16 := Vector.replicate 16 0
  k : Vector (BitVec 128) 8 := Vector.replicate 8 0
  f : Vector Nat 12 := Vector.replicate 12 0
  spc : Word := 0
  /-- lane-word address of the last retired clause. -/
  lastLpc : Word := 0
  lq : List LqEntry := []
  replay : Word32 := 0xFFFFFFFF
  /-- the cycle counter's value at CYCLE 0; while saved, the CYCLE kept. -/
  base : Nat := 0
  cyccmp : Word := 0
  utvec : Word := 0
  uepc : Word := 0
  ucause : Word := 0
  utdata : Word := 0
  tmask : Word32 := 0
  ih : Bool := false
  lscale : Word := 0x3F800000
  nfflag : BitVec 4 := 0
  rsthr : Word := 0
  fpctl : BitVec 5 := 0
  fpstat : BitVec 5 := 0
  batchOpen : BitVec 16 := 0
  remstat : RemStat := {}
  traps : Traps := {}
  wait : Wait := .none
  stop : Stop := .running
  /-- registers marked poisoned, each with where the poison arose (R376, R378): 0-63 s, 64-71 p, 80-95 b, 96-103 k. -/
  poisonS : List (Nat × Nat) := []
  /-- v-registers marked poisoned: register, thread, where the poison arose. -/
  poisonV : List (Nat × Nat × Nat) := []
  /-- register bits upset and correctable (R375): operand code, 64-bit word of the register file, bit. -/
  softReg : List (Nat × Nat × Nat) := []
  /-- instructions retired (R313). -/
  retired : Nat := 0
  /-- for an NMRUN group: its work's id and the bytes it adds on EXIT (R184). -/
  nmrun : Option (Nat × Nat) := none
  /-- queues it has declared done with (R239). -/
  done : List Nat := []
  /-- the lane passes over it once (R248). -/
  yielded : Bool := false
  /-- of its two streams, the lane issued last (R250; log 2). -/
  laneLast : Bool := false
  /-- the lane remote instruction that issues next waits for room in its stream (R219, R240). -/
  roomWait : Bool := false
  deriving DecidableEq, Repr

/-! ## A core -/

/-- A cell of an accumulator bank: the three channels and the check residue (R51, R53). -/
structure Cell where
  row : Nat
  col : Nat
  a : Nat
  b : Nat
  c : Nat
  k : Nat
  deriving DecidableEq, Repr

/-- The latched shape and scales of a chain (R187). -/
structure Latch where
  m : Nat
  n : Nat
  rows : List (BitVec 16)
  cols : List (BitVec 16)
  deriving DecidableEq, Repr

/-- An accumulator bank (R187); cells not listed hold zero. -/
structure Bank where
  isOpen : Bool := false
  steps : Nat := 0
  latch : Option Latch := none
  paired : Bool := false
  /-- the core that opened it. -/
  lead : Nat := 0
  poison : Bool := false
  /-- the step count has crossed a multiple of 2^23 and the residues are not yet checked (R377). -/
  due : Bool := false
  cells : List Cell := []
  deriving DecidableEq, Repr

/-- A weight bank (R187, R194). -/
structure WBank where
  loaded : Bool := false
  fmt : Nat := 0
  z : Bool := false
  rows : Nat := 0
  cols : Nat := 0
  pitch : Nat := 0
  data : List Byte := []
  scales : List (BitVec 16) := []
  orient : Bool := false
  link : Bool := false
  poison : Bool := false
  /-- bits upset and correctable (R375). -/
  soft : List Nat := []
  deriving DecidableEq, Repr

/-- Watermark statistics (R209, R210). -/
structure Stats where
  maxabs : Nat := 0
  minnz : Nat := 0
  nan : Nat := 0
  pinf : Nat := 0
  ninf : Nat := 0
  sat : Nat := 0
  total : Nat := 0
  bins : Vector Nat 16 := Vector.replicate 16 0
  deriving DecidableEq, Repr

/-- A watermark slot (R211); id 0 is unbound. -/
structure WmSlot where
  id : Nat := 0
  epoch : Nat := 0
  stats : Stats := {}
  deriving DecidableEq, Repr

/-- A core's own state; numbers 0-95 are the cores of the S-dies, 96-223 the stack cores (R187, R347). -/
structure Core where
  ix : Nat := 0
  a : Vector Bank 2 := Vector.replicate 2 {}
  w : Vector WBank 2 := Vector.replicate 2 {}
  /-- the active weight bank. -/
  act : Fin 2 := 0
  slots : Vector WmSlot 8 := Vector.replicate 8 {}
  /-- the context that the slots belong to (R15, R344). -/
  slotCtx : Option Nat := none
  /-- bindings kept for other contexts: context, and the ids and epochs of its slots (R15, R344). -/
  slotsKept : List (Nat × Vector (Nat × Nat) 8) := []
  /-- physical lanes fenced (R379). -/
  fencedLanes : List Nat := []
  /-- spares in use: logical lane, physical lane (R380). -/
  spares : List (Nat × Nat) := []
  deriving DecidableEq, Repr

/-! ## Teams, launches and contexts -/

/-- A deckle window (R30). -/
structure Window where
  base : Nat := 0
  size : Nat := 0
  deriving DecidableEq, Repr

/-- Where a team stands (R245, R311-R316). -/
inductive TeamStatus where
  /-- waiting for placement since the cycle. -/
  | waiting (since : Nat)
  | resident
  /-- saved by pre-emption (false) or parked by the stage arbiter (true). -/
  | saved (parked : Bool)
  deriving DecidableEq, Repr

/-- What pre-emption asks of a resident team (R314, R315). -/
inductive Victim where
  | none
  | flush
  /-- drains until it retires this many instructions. -/
  | drain (upTo : Nat)
  /-- drains with no budget (R317). -/
  | drainFree
  /-- saves; asked at the cycle; the groups at their save point. -/
  | save (asked : Nat) (timedOut : Bool)
  deriving DecidableEq, Repr

structure Team where
  key : Nat := 0
  launch : Nat := 0
  teamId : BitVec 32 := 0
  stage : Nat := 0
  die : Nat := 0
  cluster : Nat := 0
  status : TeamStatus := .waiting 0
  /-- unit, cluster and die windows. -/
  win : Vector Window 3 := Vector.replicate 3 {}
  /-- the cores of its groups, whose unit scratchpads hold its unit window (global core numbers, R30). -/
  unitCores : List Nat := []
  /-- cores whose arrays it owns (R246). -/
  arrays : List Nat := []
  victim : Victim := .none
  /-- cycle at which it was placed. -/
  placedAt : Nat := 0
  /-- cycle since which it has been stuck (R264). -/
  stuckSince : Option Nat := none
  /-- windows still held in place for it after a save, by their numbers, and the order of saves (R316). -/
  held : List Nat := []
  savedAt : Nat := 0
  /-- those of them that are being copied to the save area (R316). -/
  claiming : List Nat := []
  /-- the parts of the context's save area, from SAVEBASE, that are set aside for it, in order (R317). -/
  area : List Window := []
  /-- cycle since which it waits to be restored. -/
  leftAt : Nat := 0
  /-- the arrays' state, saved with the team (R192). -/
  arraysSaved : List Core := []
  /-- instructions retired by groups that have ended. -/
  retired : Nat := 0
  /-- the placement wait of 2^20 cycles has passed (R310). -/
  urgent : Bool := false
  /-- stands for one NMRUN group on its own (R347). -/
  nmrun : Bool := false
  deriving DecidableEq, Repr

/-- A stage record (R308). -/
structure Stage where
  entry : Nat := 0
  min : Nat := 0
  max : Nat := 0
  depth : Nat := 0
  mxuse : Nat := 1
  expect : Nat := 0
  deriving DecidableEq, Repr

/-- A safe-point entry (R308). -/
structure SafePoint where
  off : Nat
  p : BitVec 8
  k : BitVec 8
  b : BitVec 16
  s : BitVec 64
  v : BitVec 64
  deriving DecidableEq, Repr

/-- One die's instance of a stage queue (R238). -/
structure StageQueue where
  die : Nat
  q : Nat
  tokens : List Word := []
  /-- it was found closed while a flush, a save or a fence took teams from its die: it stays closed (R318). -/
  closed : Bool := false
  /-- T(q + 1), the arbiter's target for the consuming stage (R311). -/
  target : Nat := 1
  /-- it lies in the save area, not on its die (R318). -/
  saved : Bool := false
  deriving DecidableEq, Repr

structure Launch where
  key : Nat := 0
  ctx : Nat := 0
  /-- address of the first byte of .scode. -/
  scode : Nat := 0
  ssize : Nat := 0
  lbase : Nat := 0
  lsize : Nat := 0
  args : Word := 0
  teams : Nat := 0
  groups : Nat := 1
  stages : List Stage := []
  deckle : Vector Nat 3 := Vector.replicate 3 0
  wmslots : BitVec 8 := 0
  safePoints : List SafePoint := []
  dieMask : BitVec 8 := 0
  coop : Bool := false
  idem : Bool := false
  /-- die of each stage-0 team under PLACE = 1. -/
  placed : Option (List Nat) := none
  prio : Nat := 0
  /-- starting order. -/
  order : Nat := 0
  /-- stage-0 teams assigned to each die (R309). -/
  assigned : Vector Nat 8 := Vector.replicate 8 0
  /-- stage-0 teams created so far on each die, and TEAMIDs given in each stage. -/
  created : Vector Nat 8 := Vector.replicate 8 0
  nextId : Vector Nat 8 := Vector.replicate 8 0
  queues : List StageQueue := []
  /-- ended teams and their retired counts, per stage (R313). -/
  endedTeams : Vector Nat 8 := Vector.replicate 8 0
  endedRetired : Vector Nat 8 := Vector.replicate 8 0
  /-- groups that ended with REMSTAT.D set: die, TEAMID, GRPINTEAM, REMSTAT (R302). -/
  denials : List (Nat × Nat × Nat × Word) := []
  /-- a faulted end: the SEQ that TERMINATE named (0 for CTXDESTROY). -/
  faulted : Option Nat := none
  /-- a LOST end: the event-log sequence (R384). -/
  lost : Option Nat := none
  entry : Option EntryRef := none
  deriving DecidableEq, Repr

structure Ctx where
  num : Nat := 0
  ptroot : Nat := 0
  shbase : Nat := 0
  shsize : Nat := 0
  wmtab : Word := 0
  fqbase : Nat := 0
  fqlen : Nat := 1
  debug : Bool := false
  /-- watchdog limit in cycles (R264). -/
  wdog : Nat := 2 ^ 32
  fabid : Nat := 0
  savebase : Nat := 0
  savesize : Nat := 0
  /-- the context has failed: the event that told of it (R384). -/
  failed : Option Nat := none
  /-- CTXDESTROY has begun (R306). -/
  destroying : Option EntryRef := none
  /-- fault-queue slots in use: slot, SEQ, launch (R404). -/
  slots : List (Nat × Nat × Nat) := []
  /-- records that fell due and are not written, in SEQ order: SEQ, launch, bytes, whether FQHOLD has told of it (R260, R404). -/
  held : List (Nat × Nat × List Byte × Bool) := []
  /-- the nanosecond of the next try, where the first of them waits for a translation (R404). -/
  fqhold : Option Nat := none
  /-- watermark records that a WMFREE is freeing (R341). -/
  freeing : List Nat := []
  /-- next count on each (die, stream) (R371). -/
  counts : List (Nat × Nat × Nat) := []
  deriving DecidableEq, Repr

/-! ## Translation -/

/-- A cached leaf translation (R321, R327). -/
structure Tlb where
  die : Nat
  ctx : Nat
  /-- page address and the log2 of its size: 16, 21 or 30. -/
  va : Nat
  size : Nat
  pa : Nat
  /-- address of the leaf entry. -/
  entry : Nat := 0
  /-- the context's PASID, under which a host frame is reached (R358). -/
  pasid : Nat := 0
  hm : Bool := false
  r : Bool := false
  w : Bool := false
  x : Bool := false
  sa : Bool := false
  sealed : Bool := false
  rwr : Bool := false
  layout : Nat := 0
  /-- bits upset and correctable; whether it holds an uncorrectable error (R375). -/
  soft : List Nat := []
  bad : Bool := false
  deriving DecidableEq, Repr

/-- A page request group that has been sent, at least in part (R331, R360): its index, its PASID, its number and die, and the
requests sent for it. -/
structure Prg where
  idx : Nat
  pasid : Nat
  group : Nat
  die : Nat
  ctx : Nat
  count : Nat
  deriving DecidableEq, Repr

/-- A merge-table entry (R330) and its page request (R331). -/
structure Merge where
  die : Nat
  ctx : Nat
  granule : Nat
  write : Bool
  /-- requests of one instruction share a group number. -/
  group : Nat
  /-- its page request has been sent. -/
  sent : Bool := false
  deriving DecidableEq, Repr

/-- A replica of a sealed granule in a die's pool (R334). -/
structure Replica where
  die : Nat
  ctx : Nat
  granule : Nat
  /-- its page, and the log2 of the page's size. -/
  page : Nat
  size : Nat
  deriving DecidableEq, Repr

/-! ## Work accepted and not complete -/

/-- One committed access of a lane memory instruction: its thread, the first byte, and what it writes or applies. -/
structure LaneAcc where
  thread : Nat
  key : Nat
  b : Nat := 0
  c : Nat := 0
  deriving DecidableEq, Repr

/-- A run of bytes that an engine moves. -/
structure Seg where
  src : Nat
  dst : Nat
  len : Nat
  deriving DecidableEq, Repr

/-- Accepted NMRUN work (R184): where, for whom, the operands, the arrival word's key, the bytes of a row, the groups still to
start (stack core, first row, rows) and how many have not ended. -/
structure Nmrun where
  die : Nat
  stack : Nat
  launch : Nat
  teamId : BitVec 32
  stage : Nat
  entry : Nat
  arg : Word
  blk : Word
  arrival : Option Nat
  rowBytes : Nat
  pieces : List (Nat × Nat × Nat)
  left : Nat
  deriving DecidableEq, Repr

/-- What a piece of work does when it completes. -/
inductive WorkKind where
  /-- lane memory (R160-R177): opcode, fields, committed accesses, threads written with zero, threads a uniform result is
  written to. -/
  | laneMem (op : Nat) (w : LaneFields) (acc : List LaneAcc) (zero act : Word32)
  /-- lane memory of a stack core whose commands have begun (R350, R351): opcode, fields, the accesses still to be issued, or again after a
  rollback; those that have been, each with what a load has read, and whether that is where poison arose; the threads as before. -/
  | burst (op : Nat) (w : LaneFields) (acc : List LaneAcc) (got : List (LaneAcc × Nat × Bool)) (zero act : Word32)
  /-- an ATOM with requests at the host (R172): fields, the accesses on device pages, the requests that the host has not answered,
  in order, each with the threads that it serves, and the threads as for lane memory. -/
  | hostAtomic (w : LaneFields) (acc : List LaneAcc) (reqs : List (List LaneAcc)) (zero act : Word32)
  /-- TMOV and TMOVA (R179, R180): the runs of each row. -/
  | copy (rows : List (List Seg)) (arrival : Option Nat) (batch : BitVec 16) (bytes : Nat)
  /-- MXLDW: target core and bank, the partner's bank, the bank to come, its data's runs, whether it is paired (R194). -/
  | weight (core : Nat) (bank pbank : Fin 2) (new : WBank) (src : List (Nat × Nat)) (pair : Bool)
  /-- MXSWAP, and whether the bank that it takes over carries the pair link (R195). -/
  | swap (core : Nat) (linked : Bool)
  /-- MXMUL (R199). -/
  | mxmul (core : Nat) (bank : Fin 2) (paired : Bool) (m n k : Nat) (eoff koff seoff skoff : Nat) (edge order : Bool)
      (wbank : Fin 2) (fmt pitch : Nat) (rows : List (Nat × Nat))
  /-- MXDRAIN's writing (R204): the bytes of each run, NFFLAG bits, saturations, whether the rescale trap was armed (R208). -/
  | drain (rows : List (Nat × List Byte)) (nf : BitVec 4) (sat : Nat) (armed : Bool)
  /-- QTILE (R207): the bytes of each run, whether a source was poisoned, saturations, whether the rescale trap was armed (R208). -/
  | qtile (writes : List (Nat × List Byte × Bool)) (sat : Nat) (armed : Bool)
  /-- SEAL and UNSEAL (R182). -/
  | sealing (ctx va len : Nat) (on : Bool)
  /-- HOME (R183): pages in motion, each with its new frame and layout id. -/
  | home (ctx va len : Nat) (pages : List (Nat × Nat × Nat))
  | nmrun (n : Nmrun)
  /-- a lane remote instruction: operations left unanswered (R224). -/
  | remote (left : Nat)
  /-- RBULK: lines not yet sent, each with the runs of its source, and packets unanswered (R233). -/
  | bulk (lines : List (List (Nat × Nat) × Packet)) (left : Nat) (batch : BitVec 16)
  /-- WMFLUSH: merges not yet applied (R212). -/
  | flush (left : Nat)
  /-- WMCLOSE or WMRESET of a record, which waits for the group's earlier flushes (R215). -/
  | record (id : Nat) (close : Bool)
  deriving DecidableEq, Repr

structure Work where
  id : Nat
  /-- issuing group, and its team. -/
  group : Nat
  team : Nat := 0
  ctx : Nat := 0
  die : Nat := 0
  flag : Option (Fin 12) := none
  kind : WorkKind
  deriving DecidableEq, Repr

/-- An operation sent and not yet answered (R219, R220). -/
structure Remote where
  id : Nat
  pkt : Packet
  ctx : Nat
  group : Nat
  work : Nat
  /-- when it was last sent, in nanoseconds. -/
  sent : Nat
  /-- where an RBULK line's source bytes lie, read again by a retransmission (R233). -/
  src : Option (List (Nat × Nat)) := none
  /-- a watermark flush's core and slot (R212). -/
  slot : Option (Nat × Fin 8) := none
  deriving DecidableEq, Repr

/-- A reply slot in a team's die window: the request that names it, the team and the offset in the window (R228, R268). -/
structure ReplySlot where
  ctx : Nat
  die : Nat
  stream : Nat
  scount : Nat
  team : Nat
  off : Nat
  deriving DecidableEq, Repr

/-- A home's window for one source of one context's traffic (R221, R371): the outcome of each count seen, none while it is
deferred. -/
structure HomeWindow where
  die : Nat
  /-- the home slice, by the stack of the device that it serves. -/
  slice : Nat
  ctx : Nat
  spkg : Nat
  sdie : Nat
  stream : Nat
  high : Nat := 2 ^ 64 - 1
  seen : List (Nat × Option Bool) := []
  deriving DecidableEq, Repr

/-- A queued acknowledgement (R372). -/
structure Ack where
  die : Nat
  fabid : Nat
  ctx : Nat
  pkg : Nat
  sdie : Nat
  stream : Nat
  scount : Nat
  deriving DecidableEq, Repr

/-! ## The front end and the host port -/

/-- An entry that has started and whose completion is not yet counted (R300, R301): its command, and what it still waits for,
pieces of work by their ids. -/
structure Entry where
  ref : EntryRef
  cmd : Option Instr := none
  waits : Option (List Nat) := none
  /-- the status record's bytes, once complete. -/
  done : Option (List Byte) := none
  deriving DecidableEq, Repr

/-- A command queue (R298, R299). -/
structure Queue where
  q : Nat
  base : Word := 0
  comp : Word := 0
  en : Bool := false
  prio : Nat := 0
  tail : BitVec 32 := 0
  /-- entries appended, started and counted complete since cold reset, and those started when EN was last set (R299). -/
  appended : Nat := 0
  started : Nat := 0
  counted : Nat := 0
  first : Nat := 0
  /-- address of the entry started last. -/
  last : Nat := 0
  open_ : List Entry := []
  /-- a WAIT that holds the queue: its address and value (R303). -/
  waiting : Option (EntryRef × Nat × Word) := none
  deriving DecidableEq, Repr

/-- What the device sends to the host outside memory (R331, R355-R362, R396). -/
inductive HostMsg where
  | msix (vector : Nat)
  | bar2Data (bytes : List Byte) (poisoned : Bool)
  | unsupported
  | pageRequest (pasid idx granule : Nat) (write last : Bool)
  | invalidateCompletion (pasid addr : Nat)
  /-- an AtomicOp request (R172, R358): work, PASID, address and whether it is translated (R361), operation, bytes, operands. -/
  | atomicOp (id pasid addr : Nat) (translated : Bool) (op n b c : Nat)
  /-- an error reported through AER: whether it is the link's, and its bit in the status register (R355; log 24). -/
  | aer (link : Bool) (bit : Nat)
  | translationRequest (pasid addr : Nat)
  | debug (unit : BitVec 32) (spc : Word) (imm : BitVec 16)
  | doe (bytes : List Byte)
  | spdm (code : Nat) (body : List Byte)
  /-- a response inside a secured session (R396). -/
  | secured (bytes : List Byte)
  deriving DecidableEq, Repr

/-- An event-log entry (R385). -/
structure LogEntry where
  seq : Nat := 0
  time : Nat := 0
  kind : Nat
  ctx : Nat := 0xFF
  cont : Bool := false
  unit : BitVec 32 := 0
  data : List Byte := []
  deriving DecidableEq, Repr

/-- One die's health counters (R386) and ageing (R392). -/
structure Health where
  memSymbols : Nat := 0
  sramBits : Nat := 0
  replays : Nat := 0
  poisons : Nat := 0
  matrix : Nat := 0
  laneBeater : Nat := 0
  conflicts : Nat := 0
  slack : Int := 0
  volt : Int := 0
  plan : Nat := 0
  discards : Nat := 0
  /-- smallest slack of each canary at the last plan. -/
  planSlack : List Int := []
  /-- a re-plan is stepping (R392); when its next step may come. -/
  replanning : Option Nat := none
  /-- when the canaries were last read, and the hour of the last summary (R385, R392). -/
  canaryAt : Option Nat := none
  summaryAt : Nat := 0
  deriving DecidableEq, Repr

/-- The parameter block's fields (R394). -/
structure Params where
  loaded : Bool := false
  svn : Nat := 0
  err : Nat := 0
  drain : Nat := 65536
  replicaGiB : Nat := 4
  migrationGiB : Nat := 1
  slack : Nat := 20
  maxVolt : Nat := 50
  mxChecks : Nat := 3
  chBursts : Nat := 2
  spadWords : Nat := 4
  /-- revision of the firmware extension. -/
  ext : Nat := 0
  block : List Byte := []
  deriving DecidableEq, Repr

/-- An SPDM responder's connection (R396). -/
structure Spdm where
  version : Bool := false
  capabilities : Bool := false
  algorithms : Bool := false
  /-- a session: keys exchanged; finished. -/
  session : Option Bool := none
  /-- the algorithms of a session are agreed: secp384r1 and AES-256-GCM (R396). -/
  sessions : Bool := false
  /-- the session's key and initialisation vector, its identifier, and the messages sealed in it (log 18). -/
  key : Vector Word 4 := Vector.replicate 4 0
  iv : Vector Word 2 := Vector.replicate 2 0
  sid : Nat := 0
  sent : Nat := 0
  deriving DecidableEq, Repr

/-! ## The fabric -/

/-- A reachability entry (R364). -/
structure Reach where
  pkg : Nat
  dies : BitVec 8
  heard : Nat
  reachable : Bool
  deriving DecidableEq, Repr

/-- The phases of a calender change (R389), with the nanosecond each began. -/
inductive CalPhase where
  | none
  | accepted (since : Nat)
  | drain (since : Nat)
  | dark (since : Nat)
  | relock (since : Nat)
  deriving DecidableEq, Repr

/-- A loaded calender (R366): entries by 32 f + s; bit 15 is DARK. -/
structure Calender where
  pkgid : Nat := 0
  domain : Nat := 0
  calid : Nat := 0
  out : List Nat := []
  inn : List Nat := []
  block : List Byte := []
  deriving DecidableEq, Repr

/-- The out-fibre and the in-fibre of one number (R387, R389). -/
structure Fibre where
  fibre : Nat
  /-- dark modules of the out-fibre, its stripe mask, and the earliest dark interval at which it may restripe. -/
  dark : List Nat := []
  stripe : BitVec 24 := 0xFFFFFF
  restripe : Option Nat := none
  /-- the nanosecond at which light was lost, until the restripe that answers it. -/
  lostAt : Option Nat := none
  /-- what the out-fibre has sent lately, newest first: nanosecond, packet (the replay buffer, R387). -/
  sent : List (Nat × Packet) := []
  /-- numbers of the first beats of the packets that the in-fibre has received lately, and when it last brought one. -/
  got : List Nat := []
  heard : Nat := 0
  /-- found no lock in a calender change; markers of a change sent and delivered; locks found in it (R389). -/
  outDown : Bool := false
  inDown : Bool := false
  markerOut : Bool := false
  markerIn : Bool := false
  outLocked : Bool := false
  inLocked : Bool := false
  deriving DecidableEq, Repr

/-- A packet held for relay (R368). -/
structure Relay where
  id : Nat
  engine : Nat
  pkt : Packet
  since : Nat
  deriving DecidableEq, Repr

/-! ## Stacks, containment and the outside -/

/-- A row held exclusively by a stack core (R352). -/
structure Row where
  core : Nat
  stack : Nat
  row : Nat
  since : Nat
  waiter : Option Nat := none
  deriving DecidableEq, Repr

/-- A burst of a stack core's all-bank commands to a channel (R350, R351): the commands since its last safe point, newest first, each with
the lane work and the access that it is for while a rollback may withdraw it; and the nanosecond since which a per-bank command has
waited behind it. -/
structure Burst where
  core : Nat
  stack : Nat
  channel : Nat
  since : List (Option (Nat × LaneAcc)) := []
  waiter : Option Nat := none
  deriving DecidableEq, Repr

/-- A die-to-die link that has lost flits (R391). -/
structure Link where
  die : Nat
  link : Nat
  fails : Nat := 0
  retraining : Bool := false
  fenced : Bool := false
  deriving DecidableEq, Repr

/-- What may happen next that the machine does not decide: whose turn it is, an input, time passing, or an upset (log 2). -/
inductive Turn where
  | scalar (group : Nat)
  | lane (group : Nat)
  | event (i : Instr)
  | elapse (cycles ns : Nat)
  /-- an uncorrectable error in the ECC unit holding the byte (R378). -/
  | poison (key : Nat)
  /-- the host gives BAR2 a size, by its log2 (R355). -/
  | resizeBar2 (log : Nat)
  /-- the front end asks the host for a translation of an address of a context (R358, R361). -/
  | askTranslation (ctx addr : Nat)
  /-- an error of the PCI Express link, by its bit in the AER status register (R355; log 24). -/
  | linkError (bit : Nat)
  /-- bytes of a packet received on an in-fibre, with the number of its first beat (R369, R387). -/
  | wire (fibre beat : Nat) (bytes : List Byte)
  /-- an upset of one bit of a byte (R375). -/
  | upset (key bit : Nat)
  /-- an upset of one bit of a group's register, by operand code and thread (R375). -/
  | upsetReg (group code thread bit : Nat)
  /-- an upset of one bit of a cached translation, by its place among them, or of an entry of a group's lane queue (R375). -/
  | upsetTlb (n bit : Nat)
  | upsetQueue (group pos bit : Nat)
  /-- an upset of one bit of a weight bank's data (R375). -/
  | upsetWeight (core : Nat) (bank : Fin 2) (bit : Nat)
  /-- a physical lane of a core whose datapath disagrees twice, in these threads (R376). -/
  | badLane (core plane : Nat) (threads : Word32)
  /-- a beater that disagrees: level 1 or 2, array, bank; whether its second execution agrees (R376). -/
  | badBeater (level array bank : Nat) (masked : Bool)
  /-- a bit of a cell flips: channel 0-3. -/
  | cellFlip (core : Nat) (bank : Fin 2) (row col chan bit : Nat)
  deriving DecidableEq, Repr

/-! ## The machine -/

/-- The state of one package and of what stands next to it. -/
structure State where
  /-- the group whose turn it is or was. -/
  cur : Group := {}
  /-- every other group, in the order of their turns. -/
  others : List Group := []
  teams : List Team := []
  launches : List Launch := []
  /-- periods of 1,024 cycles at whose end the stage arbiter of each die has looked (R311). -/
  arbiters : Vector Nat 8 := Vector.replicate 8 0
  ctxs : List Ctx := []
  /-- cores whose state is not the reset state. -/
  cores : List Core := []
  /-- every byte that is not zero, by physical key (log 5). -/
  mem : List Host.Cell := []
  /-- ECC units that hold poison, and those whose poison has been reported (R378). -/
  poisoned : List Nat := []
  poisonSeen : List Nat := []
  /-- ECC units that hold a correctable error, each with the place of the error in it: the 16-bit symbol of a memory burst, or the bit of an
  SRAM word (R375). -/
  soft : List (Nat × Nat) := []
  /-- arithmetic-clock cycles and nanoseconds since reset (log 3). -/
  now : Nat := 0
  ns : Nat := 0
  agenda : List Turn := []
  work : List Work := []
  nextId : Nat := 1
  tlb : List Tlb := []
  merges : List Merge := []
  /-- die of page request groups queued, in order: die, group. -/
  prgQueue : List (Nat × Nat) := []
  /-- outstanding page request groups (R360). -/
  prgOut : List Prg := []
  /-- the host's Outstanding Page Request Allocation (R360). -/
  allowance : Nat := 0
  replicas : List Replica := []
  /-- frames returned to a die's migration pool: die, address, log2 of the size; and bytes of each pool never taken (R338;
  log 31). -/
  pool : List (Nat × Nat × Nat) := []
  poolTaken : Vector Nat 8 := Vector.replicate 8 0
  remotes : List Remote := []
  /-- packets between the dies of the package, and packets given to the fabric. -/
  inflight : List Packet := []
  outbox : List Packet := []
  /-- last beats of packets, with their number, that a restripe has sent again alone (R387). -/
  outTails : List (Nat × Packet) := []
  windows : List HomeWindow := []
  acks : List Ack := []
  deferred : List (Nat × Nat × Packet) := []
  rows : List Row := []
  /-- per-bank refreshes in progress: stack, channel, bank, end (R350). -/
  refresh : List (Nat × Nat × Nat × Nat) := []
  /-- the bursts under way (R350, R351). -/
  bursts : List Burst := []
  /-- fault SEQ of the last record, and order numbers of launches. -/
  faultSeq : Nat := 0
  launchOrder : Nat := 0
  queues : List Queue := []
  ctxPasid : Vector Word 64 := Vector.replicate 64 0
  bar2win : Word := 0
  /-- log2 of the size that the host has given BAR2 (R355; log 8). -/
  bar2Log : Nat := 30
  /-- quadwords of the MSI-X table that have been written: offset, value (log 24); and the pending-bit array. -/
  msixTable : List (Nat × Word) := []
  msixPending : List Nat := []
  hostOut : List HostMsg := []
  /-- host accesses to BAR0 and BAR2 that wait, in arrival order, behind one to a row that a stack core holds (R352, R359). -/
  hostPending : List Instr := []
  /-- cached ATS translations: PASID, address, log2 of the size, result (R361). -/
  ats : List (Nat × Nat × Nat × Nat) := []
  /-- ATS invalidations not yet answered: PASID, address, the work that they wait for (R361). -/
  atsWaits : List (Nat × Nat × List Nat) := []
  log : List LogEntry := []
  evHead : Nat := 0
  evTail : BitVec 32 := 0
  evDrop : Nat := 0
  evHeld : List LogEntry := []
  health : Vector Health 8 := Vector.replicate 8 {}
  params : Params := {}
  pbAddr : Word := 0
  spdm : Spdm := {}
  fenced : List UnitRef := []
  /-- detected errors that count towards a fence (R379): unit, kind (1 lane, 2 beater, 3 matrix CHECK, 4 memory channel,
  5 scratchpad bank, 6 scalar pipeline), nanosecond. -/
  errors : List (UnitRef × Nat × Nat) := []
  badLanes : List (Nat × Nat × Word32) := []
  badBeaters : List (Nat × Nat × Nat) := []
  /-- beater CHECKs that wait for the issuing group's BWAIT, FENCE or BAR: group, bank, level (R376). -/
  beaterChecks : List (Nat × Nat × Nat) := []
  links : List Link := []
  /-- the loaded calender; none before the first CALLOAD. -/
  cal : Option Calender := none
  calNew : Option (Calender × EntryRef) := none
  calPhase : CalPhase := .none
  /-- CALID before the change. -/
  calOld : Nat := 0
  /-- packets for other packages that wait for the end of a calender change or for an out-fibre (R368, R389). -/
  heldOut : List Packet := []
  /-- slots that have started (R364). -/
  slotsDone : Nat := 0
  reach : List Reach := []
  relays : List Relay := []
  fibres : List Fibre := []
  /-- packets discarded since the last summary, the first one's fibre and millisecond (R385). -/
  discards : Nat := 0
  discardFibre : Nat := 0
  discardMs : Nat := 0
  /-- the clock in steps of 5 % below 2,700 MHz, and the ceiling (R4, R390, R392). -/
  clockStep : Nat := 0
  ceiling : Nat := 0
  /-- scratchpad bytes last held by a team that has left them: first key, length, context (R267). -/
  padLeft : List (Nat × Nat × Nat) := []
  /-- reply slots in die windows (R228, R268). -/
  replies : List ReplySlot := []
  /-- the slot that issued last on each lane: core, physical lane, slot (R248). -/
  laneSlots : List (Nat × Nat × Nat) := []
  /-- the free values taken so far (log 9). -/
  fresh : Nat := 0
  deriving DecidableEq, Repr

/-- What could stop the whole machine. -/
inductive Fault where
  /-- Raised by no meaning: the manual names no condition that stops the machine; every fault of its chapters stops one
  group and is a next state. Safe. -/
  | halted
  deriving DecidableEq, Repr

/-- What the model gives no meaning to. -/
inductive Refusal where
  /-- Raised by an arm of exec whose instruction has no meaning yet. Safe. -/
  | notModelled (mnemonic : String)
  deriving DecidableEq, Repr

/-- What an instruction or an event ends in. -/
abbrev Out := Host.Outcome State Fault Refusal

/-- The machine after cold reset with nothing failed (R393): no context, no launch, no group; every register and memory at
the value INVENTORY.md names. -/
def State.reset : State := {}

end Sys2Proof.Machine
end

