-- ==== Sys2Proof/Machine/Ops.lean ====
section
/-! DEFINITION. The named operations over memory, registers, translation, stops and pending work that every meaning uses. -/

namespace Sys2Proof.Machine

/-! ## Memory: one canonical list of cells (R6, R266; log 4, log 5) -/

/-- What a byte that nothing has written reads as (log 4, DESIGN CHOICE; zero where R267 and R333 say so). -/
def blankByte : Byte := 0

/-- One byte of memory. -/
def cellRead : List Host.Cell → Nat → Byte
  | [], _ => blankByte
  | (a, b) :: r, k => if a = k then b else cellRead r k

/-- Memory with one byte written; the list stays strictly rising and lists no blank byte. -/
def cellWrite : List Host.Cell → Nat → Byte → List Host.Cell
  | [], k, v => if v = blankByte then [] else [(k, v)]
  | (a, b) :: r, k, v =>
    if k < a then (if v = blankByte then (a, b) :: r else (k, v) :: (a, b) :: r)
    else if k = a then (if v = blankByte then r else (k, v) :: r)
    else (a, b) :: cellWrite r k v

/-- The canonical form: addresses strictly rising from a bound, no blank byte listed. -/
def cellsFrom : Nat → List Host.Cell → Bool
  | _, [] => true
  | lo, (a, b) :: r => decide (lo ≤ a) && b != blankByte && cellsFrom (a + 1) r

/-- The canonical form of memory. -/
def Memory.wf (m : List Host.Cell) : Bool := cellsFrom 0 m

/-- Memory with the bytes of a list written from an address upwards (R6). -/
def writeCells : List Host.Cell → Nat → List Byte → List Host.Cell
  | m, _, [] => m
  | m, k, b :: r => writeCells (cellWrite m k b) (k + 1) r

/-- Bytes from an address upwards. -/
def readCells (m : List Host.Cell) (k n : Nat) : List Byte := (List.range n).map fun i => cellRead m (k + i)

/-- Memory with every byte of a range made blank. -/
def clearCells (m : List Host.Cell) (k n : Nat) : List Host.Cell := m.filter fun c => c.1 < k || k + n ≤ c.1

/-- Memory with a range that holds what a range of an earlier memory held. -/
def copyCells (old m : List Host.Cell) (src dst n : Nat) : List Host.Cell :=
  (old.filter fun c => src ≤ c.1 && c.1 < src + n).foldl (fun a c => cellWrite a (dst + (c.1 - src)) c.2)
    (clearCells m dst n)

/-- Keys of the levels (log 5). -/
def unitKey (core off : Nat) : Nat :=
  if core < 96 then 2 ^ 40 + core * 2 ^ 20 + off else 2 ^ 43 + (core - 96) * 2 ^ 18 + off
def clusterKey (die cluster off : Nat) : Nat := 2 ^ 41 + (die * 3 + cluster) * 2 ^ 23 + off
def dieKey (die off : Nat) : Nat := 2 ^ 42 + die * 2 ^ 26 + off
/-- Host memory at a PCI Express address without a PASID, and as a PASID's address space names it (R358; log 42). -/
def hostKey (a : Nat) : Nat := 2 ^ 64 + a
def pasidKey (pasid a : Nat) : Nat := 2 ^ 80 + pasid * 2 ^ 64 + a

/-- Bytes of one ECC unit (R378): a 64-byte memory burst or a 64-bit SRAM word. -/
def eccSize (k : Nat) : Nat := if k < 2 ^ 40 || (2 ^ 64 ≤ k && k < 2 ^ 96) then 64 else 8

/-- Names of the SRAM words that no address reaches, in the list of poisoned units: a word of a group's register file, of a weight bank, of
a cached translation, of a lane queue (R375). -/
def regKey (group code : Nat) : Nat := 2 ^ 96 + group * 2 ^ 20 + code * 2 ^ 8
def weightKey (core : Nat) (bank : Fin 2) : Nat := 2 ^ 160 + (core * 2 + bank.val) * 2 ^ 20
def tlbKey (t : Tlb) : Nat := 2 ^ 161 + t.die * 2 ^ 44 + t.entry
def queueKey (group : Nat) : Nat := 2 ^ 162 + group * 64

/-- The code of R376 for where a key lies: 1 unit, 2 cluster, 3 die scratchpad, 4 memory, 5 weight bank; 0 names a register, and
the words of translations and queues too, for which R376 has no code (log 62). -/
def levelCode (k : Nat) : Nat :=
  if 2 ^ 96 ≤ k then (if 2 ^ 160 ≤ k && k < 2 ^ 161 then 5 else 0)
  else if k < 2 ^ 40 || 2 ^ 64 ≤ k then 4 else if k < 2 ^ 41 || 2 ^ 43 ≤ k then 1 else if k < 2 ^ 42 then 2 else 3

/-- Some byte of the range lies in a poisoned ECC unit (R378). -/
def State.poisonedAt (s : State) (k n : Nat) : Bool := s.poisoned.any fun u => u < k + n && k < u + eccSize u

/-- n bytes of memory as a little-endian number (R6). -/
def State.read (s : State) (k n : Nat) : Nat := ofLeBytes (readCells s.mem k n)

/-- Bytes written to memory; an ECC unit written whole loses its poison and its soft error (R375, R378). -/
def State.writeBytes (s : State) (k : Nat) (bs : List Byte) : State :=
  { s with
    mem := writeCells s.mem k bs
    poisoned := s.poisoned.filter fun u => !(k ≤ u && u + eccSize u ≤ k + bs.length)
    poisonSeen := s.poisonSeen.filter fun u => !(k ≤ u && u + eccSize u ≤ k + bs.length)
    soft := s.soft.filter fun u => !(k ≤ u.1 && u.1 + eccSize u.1 ≤ k + bs.length) }

/-- The low n bytes of a number written to memory. -/
def State.write (s : State) (k n v : Nat) : State := s.writeBytes k (leBytes n v)

/-! ## Looking things up -/

def State.groups (s : State) : List Group := s.cur :: s.others

def State.group (s : State) (key : Nat) : Option Group := s.groups.find? fun g => g.live && g.key == key

/-- One group changed, wherever it stands. -/
def State.updGroup (s : State) (key : Nat) (f : Group → Group) : State :=
  { s with
    cur := if s.cur.live && s.cur.key == key then f s.cur else s.cur
    others := s.others.map fun g => if g.live && g.key == key then f g else g }

/-- The group made current; the one that was current goes to the end. -/
def State.focus (s : State) (key : Nat) : State :=
  if s.cur.key == key then s
  else match s.others.find? (fun g => g.key == key) with
    | none => s
    | some g => { s with cur := g, others := (s.others.filter fun h => h.key != key) ++ [s.cur] }

def State.team (s : State) (key : Nat) : Team := (s.teams.find? fun t => t.key == key).getD {}
def State.launch (s : State) (key : Nat) : Launch := (s.launches.find? fun l => l.key == key).getD {}
def State.ctx (s : State) (n : Nat) : Ctx := (s.ctxs.find? fun c => c.num == n).getD {}
def State.core (s : State) (ix : Nat) : Core := (s.cores.find? fun c => c.ix == ix).getD { ix := ix }

def State.updTeam (s : State) (key : Nat) (f : Team → Team) : State :=
  { s with teams := s.teams.map fun t => if t.key == key then f t else t }
def State.updLaunch (s : State) (key : Nat) (f : Launch → Launch) : State :=
  { s with launches := s.launches.map fun l => if l.key == key then f l else l }
def State.updCtx (s : State) (n : Nat) (f : Ctx → Ctx) : State :=
  { s with ctxs := s.ctxs.map fun c => if c.num == n then f c else c }
def State.setCore (s : State) (c : Core) : State :=
  { s with cores := c :: s.cores.filter fun d => d.ix != c.ix }

def State.teamOf (s : State) (g : Group) : Team := s.team g.team
def State.launchOf (s : State) (g : Group) : Launch := s.launch (s.teamOf g).launch
def State.ctxOf (s : State) (g : Group) : Ctx := s.ctx (s.launchOf g).ctx

/-- The number of a core: 0-95 on the S-dies, 96-223 on the stacks. -/
def Place.coreIx (p : Place) : Nat :=
  match p.stack with
  | none => p.die * 12 + p.cluster * 4 + p.core
  | some (st, sc) => 96 + p.die * 16 + st * 8 + sc

def Place.onStack (p : Place) : Bool := p.stack.isSome

/-- The byte at an offset of the group's window at a level (R101, R168). -/
def State.windowKey (s : State) (g : Group) (lvl : Fin 3) (off : Nat) : Nat :=
  let o := (s.teamOf g).win[lvl].base + off
  match lvl with
  | 0 => unitKey g.place.coreIx o
  | 1 => clusterKey g.place.die g.place.cluster o
  | 2 => dieKey g.place.die o

def State.windowSize (s : State) (g : Group) (lvl : Fin 3) : Nat := (s.teamOf g).win[lvl].size

/-- The PASID of a context (R358). -/
def State.pasidOf (s : State) (n : Nat) : Nat := if h : n < 64 then s.ctxPasid[n].toNat % 2 ^ 20 else 0

def State.setCur (s : State) (g : Group) : State := { s with cur := g }

/-! ## Registers (R9-R11) -/

/-- s-register read: s0 is zero (R10). -/
def Group.rs (g : Group) (i : Fin 64) : Word := if i = 0 then 0 else g.s[i]

/-- s-register write: s0 discards it (R10); a write clears the poison mark and an upset bit (R375, R378). -/
def Group.ws (g : Group) (i : Fin 64) (x : Word) : Group :=
  if i = 0 then g
  else { g with
    s := g.s.set i x, poisonS := g.poisonS.filter fun q => q.1 != i.val, softReg := g.softReg.filter fun q => q.1 != i.val + 64 }

/-- Predicate read: p0 is all ones (R10). -/
def Group.rp (g : Group) (i : Fin 8) : Word32 := if i = 0 then 0xFFFFFFFF else g.p[i]

/-- The numbers by which the group's marks name its p-, b- and k-registers, beside 0-63 for the s-registers; an operand code is 64
more. -/
def predReg (p : Nat) : Nat := 64 + p
def recReg (n : Nat) : Nat := 80 + n
def shapeReg (n : Nat) : Nat := 96 + n

/-- A register is written: its poison mark and its upset bits go (R375, R378). -/
def Group.unmark (g : Group) (r : Nat) : Group :=
  { g with poisonS := g.poisonS.filter fun q => q.1 != r, softReg := g.softReg.filter fun q => q.1 != r + 64 }

/-- Predicate write: p0 discards it (R10). -/
def Group.wp (g : Group) (i : Fin 8) (x : Word32) : Group :=
  if i = 0 then g else ({ g with p := g.p.set i x } : Group).unmark (predReg i.val)

def Group.setB (g : Group) (i : Fin 16) (x : BitVec 256) : Group := ({ g with b := g.b.set i x } : Group).unmark (recReg i.val)
def Group.setK (g : Group) (i : Fin 8) (x : BitVec 128) : Group := ({ g with k := g.k.set i x } : Group).unmark (shapeReg i.val)

def State.rs (s : State) (i : Fin 64) : Word := s.cur.rs i
def State.ws (s : State) (i : Fin 64) (x : Word) : State := s.setCur (s.cur.ws i x)

/-- CYCLE (R22); on a stack core it advances by 2 with each stack-core cycle (R347). -/
def State.cycle (s : State) (g : Group) : Nat :=
  let n := s.now - g.base
  if g.place.onStack then n / 2 * 2 else n

/-- LPC (R16). -/
def State.lpc (s : State) (g : Group) : Word :=
  match g.lq with
  | [] => g.lastLpc
  | e :: _ => BitVec.ofNat 64 ((s.launchOf g).lbase + 12 * e.idx)

/-- A fresh value that the manual leaves open (log 9). -/
def State.freeWord (s : State) : Word := Config.freeValue s.fresh
def State.useFree (s : State) : State := { s with fresh := s.fresh + 1 }

/-! ## The event log and messages to the host (R356, R362, R385) -/

/-- A quadword of the MSI-X table (R356): as it was last written, and before that with the mask bit set, as PCI Express resets it
(log 24, PRESUMED). -/
def State.msixWord (s : State) (off : Nat) : Word :=
  ((s.msixTable.find? fun e => e.1 == off).map (·.2)).getD (if off % 16 = 8 then 0x100000000 else 0)

/-- An MSI-X message, or its pending bit while the vector's mask bit is set (R356). -/
def State.msix (s : State) (v : Nat) : State :=
  if (s.msixWord (16 * v + 8)).getLsbD 32 then { s with msixPending := v :: s.msixPending.filter (· != v) }
  else { s with hostOut := s.hostOut ++ [.msix v] }

def State.evUsed (s : State) : Nat := (s.evHead + 2 ^ 32 - s.evTail.toNat) % 2 ^ 32

/-- An entry written to the ring, then HEAD, then vector 257. -/
def State.putEvent (s : State) (e : LogEntry) : State :=
  let e := { e with seq := s.evHead, time := s.ns }
  { s with log := s.log.drop (s.log.length - 4095) ++ [e], evHead := s.evHead + 1 }.msix 257

/-- R385: informational entries are dropped from 4,032 entries on; containment entries wait from 4,096. -/
def State.logEvent (s : State) (e : LogEntry) : State :=
  if e.cont then (if 4096 ≤ s.evUsed || !s.evHeld.isEmpty then { s with evHeld := s.evHeld ++ [e] } else s.putEvent e)
  else if 4032 ≤ s.evUsed then { s with evDrop := if s.evDrop < 2 ^ 32 - 1 then s.evDrop + 1 else s.evDrop }
  else s.putEvent e

/-- The package's own number (R19). -/
def State.pkgid (s : State) : Nat := (s.cal.map (·.pkgid)).getD 0

/-- UNIT of a place (R258). -/
def State.unitOf (s : State) (p : Place) : BitVec 32 :=
  BitVec.ofNat 32 (s.pkgid * 2 ^ 24 + p.die * 2 ^ 21 +
    match p.stack with
    | none => p.cluster * 2 ^ 19 + p.core * 2 ^ 17 + p.plane * 2 ^ 10 + p.slot * 2 ^ 8
    | some (st, sc) => st * 2 ^ 20 + sc * 2 ^ 17 + p.lane * 2 ^ 10 + p.slot * 2 ^ 8)

/-- Health counters of one die changed (R386). -/
def State.count (s : State) (die : Nat) (f : Health → Health) : State :=
  if h : die < 8 then { s with health := s.health.set die (f s.health[die]) } else s

/-- The die of a scratchpad array with beaters. -/
def arrayDie (lvl arr : Nat) : Nat := if lvl = 1 then arr / 3 else arr

/-- The bank of a scratchpad that holds a byte, and the byte's offset in it (R266). A stack scratchpad counts as one bank. -/
def padBank (k : Nat) : Nat × Nat :=
  let at_ (p unit banks : Nat) := (p / unit % banks, p / (unit * banks) * unit + p % unit)
  if k < 2 ^ 41 then at_ ((k - 2 ^ 40) % 2 ^ 20) 128 32
  else if k < 2 ^ 42 then at_ ((k - 2 ^ 41) % 2 ^ 23) 64 64
  else if k < 2 ^ 43 then at_ ((k - 2 ^ 42) % 2 ^ 26) 64 192
  else (0, (k - 2 ^ 43) % 2 ^ 18)

/-- The die that a byte lies on (R324), and the unit whose fence its uncorrectable errors count towards, with their kind
(R379). -/
def keyUnit (k : Nat) : Nat × Option (UnitRef × Nat) :=
  if k < 2 ^ 40 then (k / 2 ^ 37, some (.channel (k / 2 ^ 36) (k % 2 ^ 36 / 2 ^ 16 % 16), 4))
  else if k < 2 ^ 41 then ((k - 2 ^ 40) / 2 ^ 20 / 12, none)
  else if k < 2 ^ 42 then ((k - 2 ^ 41) / 2 ^ 23 / 3, some (.beater 1 ((k - 2 ^ 41) / 2 ^ 23) (padBank k).1, 5))
  else if k < 2 ^ 43 then ((k - 2 ^ 42) / 2 ^ 26, some (.beater 2 ((k - 2 ^ 42) / 2 ^ 26) (padBank k).1, 5))
  else if k < 2 ^ 64 then ((k - 2 ^ 43) / 2 ^ 18 / 16, none)
  else (8, none)

/-- UNIT of the place where a byte lies, in the layout of R258: its die, and its cluster and core, or its stack and stack core, as far as
its level has them (log 38). -/
def State.keyPlace (s : State) (k : Nat) : BitVec 32 :=
  BitVec.ofNat 32 (s.pkgid * 2 ^ 24 +
    (if k < 2 ^ 40 then k / 2 ^ 36 * 2 ^ 20
     else if k < 2 ^ 41 then
       let c := (k - 2 ^ 40) / 2 ^ 20; c / 12 * 2 ^ 21 + c % 12 / 4 * 2 ^ 19 + c % 4 * 2 ^ 17
     else if k < 2 ^ 42 then let c := (k - 2 ^ 41) / 2 ^ 23; c / 3 * 2 ^ 21 + c % 3 * 2 ^ 19
     else if k < 2 ^ 43 then (k - 2 ^ 42) / 2 ^ 26 * 2 ^ 21
     else if k < 2 ^ 64 then (k - 2 ^ 43) / 2 ^ 18 * 2 ^ 17
     else 0))

/-- DATA of a POISON event (R385): the physical address of a byte of memory, or its offset in its scratchpad bank, or an offset that the
manual does not lay out in another SRAM (log 62); and its level. -/
def poisonData (k : Nat) : List Byte :=
  leBytes 8 (if k < 2 ^ 40 then k else if k < 2 ^ 64 then (padBank k).2 else if k < 2 ^ 96 then k % 2 ^ 64 else (Config.sramOffset k).toNat) ++
    [BitVec.ofNat 8 (levelCode k)]

/-- The place of the core or group that holds an SRAM word which no address reaches. -/
def State.sramPlace (s : State) (k : Nat) : Place :=
  let placeOf (key : Nat) : Place := ((s.group key).map (·.place)).getD {}
  if k < 2 ^ 160 then placeOf ((k - 2 ^ 96) / 2 ^ 20)
  else if k < 2 ^ 161 then
    let c := (k - 2 ^ 160) / 2 ^ 21
    if c < 96 then { die := c / 12, cluster := c % 12 / 4, core := c % 4 } else {}
  else if k < 2 ^ 162 then { die := (k - 2 ^ 161) / 2 ^ 44 }
  else placeOf ((k - 2 ^ 162) / 64)

/-- The read of one poisoned ECC unit: one POISON event until the unit is rewritten (R378), and an error of its channel or bank (R379). -/
def State.noteUnit (s : State) (u : Nat) (ctx : Nat) : State :=
  if s.poisonSeen.contains u then s
  else
    let (die, unit) := if u < 2 ^ 96 then keyUnit u else ((s.sramPlace u).die, none)
    (({ s with
        poisonSeen := u :: s.poisonSeen
        errors := match unit with | some (r, kind) => s.errors ++ [(r, kind, s.ns)] | none => s.errors } : State).count die fun h =>
      { h with poisons := h.poisons + 1 }).logEvent
      { kind := 0x0002, ctx := ctx, unit := if u < 2 ^ 96 then s.keyPlace u else s.unitOf (s.sramPlace u), data := poisonData u }

/-- A read of bytes notes every poisoned ECC unit that holds one of them (R378). -/
def State.notePoison (s : State) (k n : Nat) (ctx : Nat) : State :=
  (s.poisoned.filter fun u => u < k + n && k < u + eccSize u).foldl (fun t u => t.noteUnit u ctx) s

/-- An SRAM word that no address reaches has an uncorrectable error, which no event has told yet. -/
def State.sramError (s : State) (k : Nat) : State :=
  { s with poisoned := k :: s.poisoned.filter (· != k), poisonSeen := s.poisonSeen.filter (· != k) }

/-- Such words are written anew. -/
def State.sramRight (s : State) (k n : Nat) : State :=
  { s with poisoned := s.poisoned.filter fun u => !(k ≤ u && u < k + n), poisonSeen := s.poisonSeen.filter fun u => !(k ≤ u && u < k + n) }

/-! ## Stops: taking a fault, a park, a trap (R91, R114-R116, R253-R262) -/

def causeIllegal : Nat := 0x01
def causeClause : Nat := 0x02
def causePriv : Nat := 0x03
def causeUniformity : Nat := 0x04
def causeAlign : Nat := 0x05
def causeBounds : Nat := 0x06
def causeDeckle : Nat := 0x07
def causePage : Nat := 0x08
def causeProt : Nat := 0x09
def causeSealed : Nat := 0x0A
def causeRemoteLocal : Nat := 0x0B
def causeRemoteDeny : Nat := 0x0C
def causeRemoteUnreach : Nat := 0x0D
def causeMxscale : Nat := 0x0E
def causeMxfmt : Nat := 0x0F
def causeMxpair : Nat := 0x10
def causeCheck : Nat := 0x11
def causeOnceIllegal : Nat := 0x12
def causeWatchdog : Nat := 0x13
def causeBarrier : Nat := 0x14

/-- Why an instruction does not complete now. -/
inductive Halt where
  | fault (f : FaultInfo)
  /-- the instruction waits, in this state. -/
  | hold (t : State)
  /-- missing granules, each with whether it is to be written: a replayable PAGE (R262). -/
  | miss (asks : List (Nat × Bool)) (f : FaultInfo)
  /-- a frame to be zeroed, by its page's address (R329). -/
  | zeroing (page : Nat)
  /-- an instruction that a stack core lacks (R348). -/
  | lacks
  /-- a read of poison at a key, of some bytes, and the fault that it raises (R378). -/
  | poison (key n : Nat) (f : FaultInfo)
  deriving DecidableEq, Repr

abbrev Res := Except Halt State

/-- A fault naming an operand slot and nothing else. -/
def failAt {α : Type} (cause slot : Nat) : Except Halt α := .error (.fault { cause := cause, slot := slot })

/-- A fault naming an operand slot and an address. -/
def failAddr {α : Type} (cause slot : Nat) (addr : Word) (detail : Word := 0) (brec : Option Nat := none) : Except Halt α :=
  .error (.fault { cause := cause, slot := slot, addr := addr, detail := detail, brec := brec })

/-- The instruction waits with the given mark. -/
def State.waiting (s : State) (w : Wait) : State := s.setCur { s.cur with wait := w }

def stall {α : Type} (s : State) (w : Wait) : Except Halt α := .error (.hold (s.waiting w))

/-- A fault of the scalar stream (R91, R253, R254): once every enqueued clause has retired, the group stops at the
instruction with TMASK all ones; until then the fault is kept. -/
def State.scalarFault (s : State) (f : FaultInfo) : State :=
  if s.cur.lq.isEmpty then
    s.setCur { s.cur with stop := .faulted { f with lane := false, tmask := 0xFFFFFFFF } 0, tmask := 0xFFFFFFFF, wait := .none }
  else s.waiting (.drain (some f))

/-- What the scalar stream's current instruction does when the lane stream stops (R255): FWAIT, LWAIT, an LQ waiting for room, ARRWAIT,
WAITA, QTAKE, QEMIT, RQUIET, FENCE and SLEEP are abandoned, and so are EXIT, an instruction that has faulted (R254), BAR's own wait of
FENCE, and an instruction that waits for the clauses before it, which cannot retire now; BAR keeps its arrival; any other
instruction goes on. -/
def Wait.kept : Wait → Wait
  | .lane | .arrwait _ | .waita _ _ _ _ _ | .qtake | .qemit | .rquiet | .fence | .sleep _ | .exit | .barFence | .clauses | .drain _
  | .trapDrain _ => .none
  | w => w

/-- A fault of the lane stream at a clause position (R253-R255). -/
def State.laneFault (s : State) (f : FaultInfo) (clpos : Nat) : State :=
  s.setCur { s.cur with
    stop := .faulted { f with lane := true } clpos, tmask := f.tmask, roomWait := false, wait := s.cur.wait.kept }

/-- The merge table joined for each missing granule and its access; requests of one instruction form one group (R330, R331). Answers
whether every granule has an entry. -/
def joinMerge (die ctx grp : Nat) : List (Nat × Bool) → List Merge → List Merge × Bool
  | [], m => (m, true)
  | (g, write) :: r, m =>
    if m.any fun e => e.die == die && e.ctx == ctx && e.granule == g then joinMerge die ctx grp r m
    else if (m.filter fun e => e.die == die).length < 1024 then
      joinMerge die ctx grp r (m ++ [{ die := die, ctx := ctx, granule := g, write := write, group := grp }])
    else (m, false)

/-- The missing granules of one instruction in ascending order, each once and with the widest access that it needs (R331). -/
def askList (asks : List (Nat × Bool)) : List (Nat × Bool) :=
  ((asks.map (·.1)).dedup.insertionSort (· ≤ ·)).map fun g => (g, asks.any fun a => a.1 == g && a.2)

/-- Page requests for the missing granules of one instruction (R330, R331); answers whether each has an entry. -/
def State.askPages (s : State) (asks : List (Nat × Bool)) : State × Bool :=
  let die := s.cur.place.die
  let (m, ok) := joinMerge die (s.launchOf s.cur).ctx s.nextId (askList asks) s.merges
  let fresh := m.any fun e => e.group == s.nextId
  ({ s with
      merges := m
      nextId := s.nextId + 1
      prgQueue := if fresh then s.prgQueue ++ [(die, s.nextId)] else s.prgQueue }, ok)

/-- The granules that have an entry in the merge table of the current group's die. -/
def State.listed (s : State) (granules : List Nat) : List Nat :=
  granules.filter fun x => s.merges.any fun e => e.die == s.cur.place.die && e.ctx == (s.launchOf s.cur).ctx && e.granule == x

/-- The PAGE fault of a miss, should it come to a record (R331). -/
def pageFault (slot : Nat) (addr access : Word) (threads : Word32 := 0xFFFFFFFF) (brec : Option Nat := none) : FaultInfo :=
  { cause := causePage, slot := slot, tmask := threads, addr := addr, detail := access, brec := brec }

/-- The current group parks on missing granules (R262, R330). -/
def State.park (s : State) (asks : List (Nat × Bool)) (f : FaultInfo) (clpos : Nat) : State :=
  let (t, ok) := s.askPages asks; let granules := asks.map (·.1)
  t.setCur { t.cur with
    stop := if ok then .parked granules f clpos else .parkedFull (t.listed granules) f clpos
    tmask := f.tmask, roomWait := false, wait := t.cur.wait.kept }

/-- A stop of the scalar stream that is no fault waits for the lane queue as a fault does (R253); the instruction executes again
then. A BRK waits so too, before it stops and tells of itself, and no user trap is taken in the wait (log 59, DESIGN CHOICE: R113 does
not name the clauses enqueued before it). -/
def State.scalarStop (s : State) (t : State) : State := if s.cur.lq.isEmpty then t else s.waiting (.drain none)

/-- What a scalar instruction that halts does to the machine. -/
def State.scalarHalt (s : State) (h : Halt) : State :=
  match h with
  | .fault f => s.scalarFault f
  | .poison k n f => (s.notePoison k n (s.launchOf s.cur).ctx).scalarFault f
  | .hold t => t
  | .miss asks f => s.scalarStop (s.park asks { f with tmask := 0xFFFFFFFF } 0)
  | .zeroing e => s.scalarStop (s.setCur { s.cur with stop := .zeroing e, wait := .none })
  | .lacks => s.scalarStop (s.setCur { s.cur with stop := .returned, wait := .none })

/-- What a scalar instruction halts with where some of its granules are missing: they are asked for whatever the cause (R161). -/
def State.asking (s : State) (asks : List (Nat × Bool)) (h : Halt) : Halt :=
  if asks.isEmpty then h else .hold ((s.askPages asks).1.scalarHalt h)

/-- A group goes on from a stop on a fault of the lane stream (R261, R262): where the instruction was committed in part, with the threads
that it left, else with those that were active (R12; log 40). -/
def Group.goOn (g : Group) (f : FaultInfo) : Group := { g with stop := .running, replay := if f.part then f.tmask else g.replay }

/-- The scalar instruction completes and the stream goes on at an address (R90). -/
def State.retire (s : State) (spc : Word) : State :=
  s.setCur { s.cur with spc := spc, wait := .none, retired := s.cur.retired + 1 }

/-- A register that an instruction reads and that an uncorrectable error of its own has poisoned: the error is noted (R378); act are the
threads that read it. -/
def State.noteReg (act : Word32) (s : State) (code : Nat) : State :=
  let g := s.cur; let ctx := (s.launchOf g).ctx
  if code < 64 then
    (g.poisonV.filter fun q => q.1 == code && q.2.2 == 0 && act.getLsbD q.2.1).foldl
      (fun t q => t.notePoison (regKey g.key code + q.2.1 / 2 * 8) 8 ctx) s
  else if g.poisonS.contains (code - 64, 0) then s.notePoison (regKey g.key code) 32 ctx else s

/-- Source registers with the operand slots that name them. -/
abbrev Srcs := List (Nat × Fin 64)

/-- The first poisoned source: its slot and where the poison arose (R378). -/
def Group.poisonedSrc (g : Group) (srcs : Srcs) : Option (Nat × Nat) :=
  srcs.findSome? fun q => (g.poisonS.find? fun e => e.1 == q.2.val && q.2 != 0).map fun e => (q.1, e.2)

/-- The first poisoned one of p-, b- and k-registers given with their slots. -/
def Group.poisonedOther (g : Group) (regs : List (Nat × Nat)) : Option (Nat × Nat) :=
  regs.findSome? fun q => (g.poisonS.find? fun e => e.1 == q.2).map fun e => (q.1, e.2)

/-- CHECK for poison consumed (R376, R378), by an instruction that may use a buffer record (R256). -/
def poisonFault (slot origin : Nat) (brec : Option Nat := none) : FaultInfo :=
  { cause := causeCheck, slot := slot, hw := true, brec := brec, detail := BitVec.ofNat 64 (3 * 2 ^ 56 + origin) }

/-- A scalar instruction (R90, R91, R93, R378): a poisoned source raises CHECK; a body that halts leaves SPC at the
instruction; otherwise the stream goes on at the address the body gives. brec is the buffer record that it uses (R256), and regs are the
p- and k-registers that it reads. -/
def scalarTo (srcs : Srcs) (body : State → Except Halt (State × Word)) (s : State) (brec : Option Nat := none)
    (regs : List (Nat × Nat) := []) : Out :=
  let other := brec.toList.map (fun n => (7, recReg n)) ++ regs
  match (s.cur.poisonedOther other).or (s.cur.poisonedSrc srcs) with
  | some (slot, o) =>
    .next (((other.map (·.2) ++ srcs.map (·.2.val)).foldl (fun t r => t.noteReg 0xFFFFFFFF (r + 64)) s).scalarFault (poisonFault slot o brec))
  | none =>
    match body s with
    | .ok (t, spc) => .next (t.retire spc)
    | .error h => .next (s.scalarHalt h)

/-- An instruction that a stack core lacks takes the return trap before anything else (R348). -/
def lacking (missing : State → Bool) (f : State → Out) (s : State) : Out :=
  if missing s then .next (s.scalarHalt .lacks) else f s

/-- A scalar instruction that falls through. -/
def scalar (srcs : Srcs) (body : State → Res) (s : State) (brec : Option Nat := none) (regs : List (Nat × Nat) := []) : Out :=
  scalarTo srcs (fun s => (body s).map fun t => (t, s.cur.spc + 4)) s brec regs

/-- The address lies in the launch's .scode (R92). -/
def State.inScode (s : State) (g : Group) (a : Nat) : Bool :=
  let l := s.launchOf g; l.scode ≤ a && a + 4 ≤ l.scode + l.ssize

/-- A taken transfer of control: its target must lie in .scode (R92); slot names the operand, if any. -/
def State.target (s : State) (a : Word) (slot : Nat := 0xFF) : Except Halt Word :=
  if s.inScode s.cur a.toNat then .ok a else failAddr causeProt slot a 3

/-- CYCLE has reached a non-zero CYCCMP (R22). -/
def State.timerDue (s : State) (g : Group) : Bool := g.cyccmp != 0 && g.cyccmp.toNat ≤ s.cycle g

/-- The trap that is taken first (R114): code and datum. -/
def State.firstTrap (s : State) (g : Group) : Option (Nat × Word) :=
  match g.traps.rescale, g.traps.remote, g.traps.sw, g.traps.timer || s.timerDue g with
  | some n, _, _, _ => some (0x41, n)
  | none, true, _, _ => some (0x43, BitVec.ofNat 64
      (g.remstat.seq.toNat * 2 ^ 32 + g.remstat.count.toNat * 2 ^ 16 + g.remstat.reason.toNat * 2 ^ 8 + if g.remstat.d then 1 else 0))
  | none, false, some i, _ => some (0x42, i.setWidth 64)
  | none, false, none, true => some (0x40, BitVec.ofNat 64 (s.cycle g))
  | none, false, none, false => none

/-- The first pending trap forgotten; a TIMER that is taken or discarded zeroes CYCCMP (R22, R23). That covers a TIMER whose entry raises
PROT (R92), for which the manual does not name CYCCMP, and a CYCCMP that the program has rewritten while TIMER was pending
(log 35, DESIGN CHOICE). -/
def Group.dropTrap (g : Group) (code : Nat) : Group :=
  if code = 0x41 then { g with traps := { g.traps with rescale := none } }
  else if code = 0x43 then { g with traps := { g.traps with remote := false } }
  else if code = 0x42 then { g with traps := { g.traps with sw := none } }
  else { g with traps := { g.traps with timer := false }, cyccmp := 0 }

/-- A trap may be taken at this point of the scalar stream (R115, R116, R181, R240). -/
def Wait.trapOpen : Wait → Bool
  | .none | .lane | .batch | .sleep _ | .exit | .arrwait _ | .waita _ _ _ _ _ | .qtake | .qemit | .rquiet | .fence => true
  | .bar _ _ | .barFence | .clauses | .engine _ | .sx | .matrix | .drain _ | .trapDrain _ => false

/-- A user trap may be taken now: one is pending, IH is clear, the scalar stream stands at a boundary or in a wait that a trap ends, and
no lane remote instruction waits for stream room (R114, R116, R240). -/
def State.trapReady (s : State) (g : Group) : Bool :=
  !g.ih && g.wait.trapOpen && !g.roomWait && g.stop == .running && (s.firstTrap g).isSome

/-- The entry of a trap whose UTVEC lies outside .scode (R92): the trap is discarded and PROT stands at the resume address, once every
enqueued clause has retired (R254); until then the trap stays pending and the stream stays where it is. -/
def State.badTrap (s : State) (code : Nat) : State :=
  if s.cur.lq.isEmpty then
    (s.setCur (s.cur.dropTrap code)).scalarFault { cause := causeProt, slot := 0, addr := s.cur.utvec, detail := 3 }
  else s.waiting (.trapDrain code)

/-- Taking a user trap (R115, R116): the current group's first pending trap is discarded while UTVEC is zero or EXIT waits,
raises PROT when UTVEC lies outside .scode, and otherwise saves the resume address, the code and the datum, sets IH and goes to UTVEC. A
SLEEP counts as complete, and so as retired (R313); another wait is abandoned. -/
def State.enterTrap (s : State) : State :=
  let g := s.cur
  match s.firstTrap g with
  | none => s
  | some (code, datum) =>
    if !s.trapReady g then s
    else if g.utvec = 0 || g.wait == .exit then s.setCur (g.dropTrap code)
    else
      let (resume, done) := match g.wait with | .sleep _ => (g.spc + 4, g.retired + 1) | _ => (g.spc, g.retired)
      let at_ := { g with retired := done, wait := .none }
      if s.inScode g g.utvec.toNat then
        s.setCur { at_.dropTrap code with uepc := resume, ucause := BitVec.ofNat 64 code, utdata := datum, ih := true, spc := g.utvec }
      else (s.setCur { at_ with spc := resume }).badTrap code

/-- ERET (R115): back to UEPC, IH cleared. -/
def State.returnTrap (s : State) : Except Halt (State × Word) :=
  let g := s.cur
  if !g.ih then failAt causePriv 0
  else if g.uepc.toNat % 4 ≠ 0 then failAt causeAlign 0
  else if s.inScode g g.uepc.toNat then .ok (s.setCur { g with ih := false }, g.uepc)
  else failAddr causeProt 0 g.uepc 3

/-- A trap made pending (R114): RESCALE merges to the larger count. -/
def Traps.addRescale (t : Traps) (n : Nat) : Traps :=
  let n := BitVec.ofNat 64 n
  { t with rescale := some (match t.rescale with | some m => if m.toNat < n.toNat then n else m | none => n) }

/-! ## Work: acceptance and completion (R14, R162, R190) -/

/-- fl names flag fl - 1, or none (R69). -/
def flagOf (fl : Fin 13) : Option (Fin 12) := if h : fl.val = 0 then none else some ⟨fl.val - 1, by omega⟩

/-- The current group's flag count raised by n; an issue that would pass 1,023 stalls (R14). -/
def State.raiseFlag (s : State) (f : Option (Fin 12)) : Res :=
  match f with
  | none => .ok s
  | some i => if 1023 ≤ s.cur.f[i] then stall s .sx else .ok (s.setCur { s.cur with f := s.cur.f.set i (s.cur.f[i] + 1) })

/-- A piece of work accepted from the current group. -/
def State.addWork (s : State) (f : Option (Fin 12)) (k : WorkKind) : State :=
  { s with
    work := s.work ++ [{ id := s.nextId, group := s.cur.key, team := s.cur.team, ctx := (s.launchOf s.cur).ctx, die := s.cur.place.die, flag := f, kind := k }]
    nextId := s.nextId + 1 }

/-- Accepted: assigned to its flag, and the stream goes on (R14). -/
def State.acceptWork (s : State) (fl : Fin 13) (k : WorkKind) : Res :=
  (s.raiseFlag (flagOf fl)).map fun t => t.addWork (flagOf fl) k

/-- Accepted; with fl = 0 the stream stays at the instruction until the work completes. -/
def State.acceptStall (s : State) (fl : Fin 13) (k : WorkKind) : Res :=
  if fl = 0 then .error (.hold { (s.addWork none k) with cur := { s.cur with wait := .engine s.nextId } })
  else s.acceptWork fl k

def State.findWork (s : State) (id : Nat) : Option Work := s.work.find? fun w => w.id == id

/-- Work complete: its flag falls by one; a stream that waits for it goes on (R14, R162). -/
def State.finishWork (s : State) (w : Work) : State :=
  { s with work := s.work.filter fun x => x.id != w.id }.updGroup w.group fun g =>
    let g := match w.flag with | some i => { g with f := g.f.set i (g.f[i] - 1) } | none => g
    if g.wait == Wait.engine w.id then { g with wait := .none, spc := g.spc + 4, retired := g.retired + 1 } else g

/-- Work that a fault record and a save wait for (R163, R192). -/
def WorkKind.committed : WorkKind → Bool
  | .laneMem .. | .burst .. | .hostAtomic .. | .copy .. | .weight .. | .swap .. | .mxmul .. | .drain .. | .qtile .. | .flush .. | .record .. => true
  | .sealing .. | .home .. | .nmrun .. | .remote .. | .bulk .. => false

def State.settled (s : State) (g : Nat) : Bool := !s.work.any fun w => w.group == g && w.kind.committed

/-! ## The streams of the arrays (R191, R195, R201) -/

/-- The other core of a core's pair (R201). -/
def partnerOf (core : Nat) : Nat := core ^^^ 1

/-- The core whose array a piece of work belongs to. -/
def WorkKind.arrayOf : WorkKind → Option Nat
  | .weight c _ _ _ _ _ => some c
  | .swap c _ => some c
  | .mxmul c _ _ _ _ _ _ _ _ _ _ _ _ _ _ _ => some c
  | _ => none

/-- The work is paired: it stands in the partner's stream too (R195, R201). -/
def WorkKind.paired : WorkKind → Bool
  | .weight _ _ _ _ _ p => p
  | .swap _ p => p
  | .mxmul _ _ p _ _ _ _ _ _ _ _ _ _ _ _ _ => p
  | _ => false

/-- The work stands in the stream of a core's array (R191, R195). -/
def WorkKind.inStream (core : Nat) (k : WorkKind) : Bool :=
  match k.arrayOf with
  | some c => c == core || (k.paired && partnerOf c == core)
  | none => false

/-- The die of a core number. -/
def coreDie (core : Nat) : Nat := if core < 96 then core / 12 else (core - 96) / 16

/-! ## Time (R4, R22; log 3) -/

/-- The arithmetic clock in MHz: 2,700 in steps of 5 % (R4). -/
def State.mhz (s : State) : Nat := 2700 - 135 * s.clockStep

/-- One cycle passes. -/
def State.tick (s : State) : State :=
  { s with now := s.now + 1, ns := s.ns + ((s.now + 1) * 1000 / s.mhz - s.now * 1000 / s.mhz) }

end Sys2Proof.Machine
end

