-- ==== Sys2Proof/Machine/Flags.lean ====
section
/-! DEFINITION. The sticky status of the lane stream: FPSTAT and NFFLAG (R26, R125), and what sets their bits. -/

namespace Sys2Proof.Machine

/-- NFFLAG's bits (R26). -/
def nfNan : BitVec 4 := 1
def nfPinf : BitVec 4 := 2
def nfNinf : BitVec 4 := 4
def nfSat : BitVec 4 := 8

/-- NFFLAG bits of one written float element (R125). -/
def nfOf (f : Fmt) (x : Nat) : BitVec 4 :=
  match decodeF f false x with
  | .nan _ => nfNan
  | .inf neg => if neg then nfNinf else nfPinf
  | .fin .. => 0

/-- NFFLAG bits of a register that holds .f32 or the two elements of .bf16x2. -/
def nfOfWord (packed : Bool) (x : Word32) : BitVec 4 :=
  if packed then nfOf bf16 (x.toNat % 2 ^ 16) ||| nfOf bf16 (x.toNat / 2 ^ 16) else nfOf f32 x.toNat

/-- Conditions added to FPSTAT and NFFLAG; both are sticky (R26). -/
def Group.raiseStatus (g : Group) (fl : Flags5) (nf : BitVec 4) : Group :=
  { g with fpstat := g.fpstat ||| fl, nfflag := g.nfflag ||| nf }

/-- FPCTL.DAZ, FTZ and DRM (R25). -/
def Group.daz (g : Group) : Bool := g.fpctl.getLsbD 4
def Group.ftz (g : Group) : Bool := g.fpctl.getLsbD 3
def Group.drm (g : Group) : Nat := g.fpctl.toNat % 8

/-- The rounding mode of an rm field: 5 reads FPCTL.DRM (R37). -/
def Group.mode (g : Group) (rm : Nat) : Nat := if rm = 5 then g.drm else rm

end Sys2Proof.Machine
end

