-- ==== Sys2Proof/Machine/Operands.lean ====
section
/-! DEFINITION. The operands of a lane instruction and the frame every lane instruction shares: decode and clause checks, the
active mask, poison, uniformity, writing results and going on in the clause (R12, R73, R75, R82, R118-R126, R378). -/

namespace Sys2Proof.Machine

/-! ## Reading (R11, R12, R119) -/

/-- The threads of a mask, ascending. -/
def threads (m : Word32) : List (Fin 32) := (List.finRange 32).filter fun t => m.getLsbD t.val

/-- A mask from the threads that satisfy a test. -/
def maskOf (p : Fin 32 → Bool) : Word32 :=
  BitVec.ofNat 32 ((List.finRange 32).foldl (fun a t => if p t then a + 2 ^ t.val else a) 0)

/-- The active threads (R12). -/
def activeMask (g : Group) (w : LaneFields) : Word32 := (if w.pn then ~~~g.rp w.pg else g.rp w.pg) &&& g.replay

/-- The lowest-numbered thread of a mask (R11, R122). -/
def lowest (m : Word32) : Fin 32 := ((threads m).head?).getD 0

/-- A source code as one thread reads it (R11, R119). -/
def Group.rv (g : Group) (c : Fin 128) (t : Fin 32) : Word32 :=
  if h : c.val < 64 then g.v[c.val][t] else (g.rs ⟨c.val - 64, by omega⟩).setWidth 32

/-- Source b, or the immediate (R119). -/
def srcB (g : Group) (w : LaneFields) (t : Fin 32) : Word32 := if w.i then w.imm else g.rv w.b t

/-- The register sources that an instruction reads, with their slots, in the order a, b, c; each with the registers that
the code names (R33, R119). -/
def laneSources (op : Nat) (w : LaneFields) : List (Nat × List Nat) :=
  let use := laneUse op w; let ty := w.ty.val
  let one (slot : Nat) (r : Role) (c : Fin 128) (width : Nat) : List (Nat × List Nat) :=
    if r == .src || (r == .srcImm && !w.i) then
      [(slot, if c.val < 64 then (List.range width).map (c.val + ·) else [c.val])] else []
  one 10 use.a w.a (operandWidth op ty false true false) ++ one 11 use.b w.b (operandWidth op ty false false true) ++
    one 12 use.c w.c (operandWidth op ty false false false)

/-- The registers that an instruction writes (R120). -/
def laneDests (op : Nat) (w : LaneFields) : List Nat :=
  if (laneUse op w).d != .dst then []
  else if w.d.val < 64 then (List.range (operandWidth op w.ty.val true false false)).map (w.d.val + ·)
  else if op == 0xC7 then [w.d.val, w.d.val + 1] else [w.d.val]

/-! ## Checks -/

/-- The header of the clause at the head of the lane queue, once it has started. -/
def Group.clause (g : Group) : Option ClauseHeader := g.lq.head?.bind fun e => if e.started then e.hdr else none

/-- CLPOS of the instruction that issues next (R253); 0 names the header. -/
def Group.clpos (g : Group) : Nat := match g.lq with | [] => 0 | e :: _ => if e.started then e.pos + 1 else 0

/-- The flag that a long-latency instruction selects (R73). -/
def Group.flagSel (g : Group) (w : LaneFields) : Option (Fin 12) :=
  g.clause.bind fun h => if w.pd.val % 2 = 1 then h.flagB else h.flagA

/-- R73: a flag that is not valid, or a register that an earlier long-latency instruction of the clause writes. The slot is
the field's own (R82; log 28). s0 named as the destination of a uniform long-latency instruction counts as written, although the
write is discarded (R10): R73 fixes CLAUSE by the clause's words alone (log 28, DESIGN CHOICE). -/
def clauseSlot (g : Group) (op : Nat) (w : LaneFields) : Option Nat :=
  let dirty := match g.lq with | [] => [] | e :: _ => e.dirty
  let hit (rs : List Nat) := rs.any fun r => dirty.contains r
  firstSlot ((8, isLongOp op && (g.flagSel w).isNone) :: (9, hit (laneDests op w)) ::
    (laneSources op w).map fun q => (q.1, hit q.2))

/-- A stack core lacks the instruction (R348). -/
def stackLacks (g : Group) (op : Nat) (w : LaneFields) : Bool :=
  g.place.onStack &&
    (isRemoteOp op || op == 0xC6 || op == 0x49 || op == 0x4A || (0x4D ≤ op && op ≤ 0x51) ||
     ((op == 0xC2 || op == 0xC3 || op == 0xC5) && bits w.x.val 1 0 != 0))

/-- A register is poisoned for a thread: where the poison arose (R378). -/
def Group.poisonedReg (g : Group) (r : Nat) (t : Fin 32) : Option Nat :=
  if r < 64 then (g.poisonV.find? fun q => q.1 == r && q.2.1 == t.val).map fun q => q.2.2
  else if r = 64 then none
  else (g.poisonS.find? fun q => q.1 + 64 == r).map fun q => q.2

/-- The p- and b-registers that a lane instruction reads beside its guard, as operand codes with their slots (R78, R82). -/
def laneOthers (op : Nat) (w : LaneFields) : List (Nat × List Nat) :=
  let use := laneUse op w
  let pred (slot n : Nat) := [(slot, [predReg n + 64])]
  (if op == 0x21 then pred 7 (w.x.val % 8) else if op == 0xC0 || op == 0xC1 || op == 0xC4 || op == 0xC7 then [(7, [recReg (w.x.val % 16) + 64])] else []) ++
    (if use.a == .pred then pred 10 (w.a.val % 8) else []) ++ (if use.b == .pred then pred 11 (w.b.val % 8) else []) ++
    (if use.c == .pred then pred 12 (w.c.val % 8) else [])

/-- The guard is poisoned (R124, R378): CHECK, whichever threads it holds; it names the threads of the replay mask (log 62). -/
def guardCheck (g : Group) (w : LaneFields) : Option FaultInfo :=
  (g.poisonedReg (predReg w.pg.val + 64) 0).map fun o => { poisonFault 6 o with tmask := g.replay }

/-- The buffer record that a lane instruction uses (R78, R256). -/
def laneRec (op : Nat) (w : LaneFields) : Option Nat :=
  if op == 0xC0 || op == 0xC1 || op == 0xC4 || op == 0xC7 then some (w.x.val % 16) else none

/-- CHECK for the first poisoned source (R124, R378): the threads whose source is poisoned. Where two operands are poisoned, the fault
names the first in slot order and its threads only; the manual does not say whether it names their union (log 34, DESIGN CHOICE). -/
def poisonCheck (g : Group) (srcs : List (Nat × List Nat)) (act : Word32) : Option FaultInfo :=
  srcs.findSome? fun q =>
    let bad := maskOf fun t => act.getLsbD t.val && q.2.any fun r => (g.poisonedReg r t).isSome
    if bad = 0 then none
    else
      let origin := (q.2.findSome? fun r => g.poisonedReg r (lowest bad)).getD 0
      some { poisonFault q.1 origin with tmask := bad }

/-- The uniformity check (R123) of the v-register sources, bit by bit. -/
def uniformCheck (g : Group) (srcs : List (Nat × List Nat)) (act : Word32) : Option FaultInfo :=
  srcs.findSome? fun q =>
    let rs := q.2.filter (· < 64); let t0 := lowest act
    let val (t : Fin 32) := rs.map fun r => g.rv (Fin.ofNat 128 r) t
    let diff := maskOf fun t => act.getLsbD t.val && val t != val t0
    if diff = 0 then none else some { cause := causeUniformity, slot := q.1, tmask := diff }

/-- A physical lane that disagrees on both executions (R376): the threads whose result disagrees. A uniform instruction is computed once,
on the datapath of the lowest active thread, and the check names that thread alone (log 64, DESIGN CHOICE: no rule says which datapath
computes it or whom TMASK names). -/
def State.badLane (s : State) (w : LaneFields) (act : Word32) : Option Word32 :=
  let p := s.cur.place
  match s.badLanes.find? fun b => b.1 == p.coreIx && b.2.1 == p.plane with
  | none => none
  | some b =>
    let hit := b.2.2 &&& (if w.u then maskOf (fun t => t == lowest act) else act)
    if hit = 0 then none else some hit

/-- The unit of the current group's lane is charged with a disagreement (R376, R379). -/
def State.chargeLane (s : State) (lane : Nat) : State :=
  let p := s.cur.place
  ({ s with errors := s.errors ++ [(.lane p.coreIx lane, 1, s.ns)] } : State).count p.die fun h => { h with laneBeater := h.laneBeater + 1 }

/-! ## Writing (R120, R122) -/

/-- One thread's result: the 32 bits, FPSTAT conditions and NFFLAG bits. -/
structure LaneOut where
  val : Word32
  fl : Flags5 := 0
  nf : BitVec 4 := 0
  deriving DecidableEq, Repr

/-- A v-register written in the threads of a mask; their poison marks go, and their words' upset bits (R375, R378). -/
def Group.wv (g : Group) (r : Fin 64) (act : Word32) (f : Fin 32 → Word32) : Group :=
  { g with
    v := g.v.set r (Vector.ofFn fun t => if act.getLsbD t.val then f t else g.v[r][t])
    poisonV := g.poisonV.filter fun q => !(q.1 == r.val && act.getLsbD q.2.1)
    softReg := g.softReg.filter fun q => !(q.1 == r.val && (act.getLsbD (2 * q.2.1) || act.getLsbD (2 * q.2.1 + 1))) }

/-- The 32-bit result in a destination code: the active threads' v elements, or the s-register of a uniform instruction,
sign-extended for an .i32 result (R120). -/
def Group.writeDst (g : Group) (d : Fin 128) (act : Word32) (sgn : Bool) (f : Fin 32 → Word32) : Group :=
  if h : d.val < 64 then g.wv ⟨d.val, h⟩ act f
  else
    let x := f (lowest act)
    g.ws ⟨d.val - 64, by omega⟩ (if sgn then x.signExtend 64 else x.setWidth 64)

/-- The bits of a predicate written for the active threads (R120). Only a write of all its bits clears the register's poison mark, as a
store of a whole unit does (R378; log 62). -/
def Group.writePred (g : Group) (p : Fin 8) (act : Word32) (f : Fin 32 → Bool) : Group :=
  let h := g.wp p ((g.rp p &&& ~~~act) ||| (maskOf f &&& act))
  if act = 0xFFFFFFFF then h else { h with poisonS := g.poisonS, softReg := g.softReg }

/-! ## The frame -/

/-- The instruction at the clause position has issued: the next of its clause, or the next clause (R12, R16, R253). -/
def State.laneDone (s : State) (dirty : List Nat) : State :=
  match s.cur.lq with
  | [] => s
  | e :: r =>
    match e.hdr with
    | none => s
    | some h =>
      let g := { s.cur with replay := 0xFFFFFFFF, retired := s.cur.retired + 1, roomWait := false }
      s.setCur (if e.pos = h.count.val then
          { g with lq := r, lastLpc := BitVec.ofNat 64 ((s.launchOf g).lbase + 12 * e.idx), yielded := h.yieldHint }
        else { g with lq := { e with pos := e.pos + 1, dirty := e.dirty ++ dirty } :: r })

/-- What a lane instruction that halts does. -/
def State.laneHalt (s : State) : Halt → State
  | .fault f => s.laneFault f s.cur.clpos
  | .poison k n f => (s.notePoison k n (s.launchOf s.cur).ctx).laneFault f s.cur.clpos
  | .hold t => t
  | .miss asks f => s.park asks { f with lane := true } s.cur.clpos
  | .zeroing e => s.setCur { s.cur with stop := .zeroing e }
  | .lacks => s.setCur { s.cur with stop := .returned, wait := s.cur.wait.kept }

/-- A lane instruction at the clause position (R118-R124): ILLEGAL, CLAUSE, what a stack core lacks; a poisoned guard; with no active
thread nothing but the place in the clause (R121); poison, uniformity, the body's own faults, a disagreeing lane; then it commits
for all its threads. -/
def lane (op : Nat) (w : LaneFields) (body : State → Word32 → Res) (s : State) : Out :=
  let g := s.cur; let act := activeMask g w; let srcs := laneSources op w
  if g.clause.isNone then .next s
  else match firstSlot (laneChecks op w) with
  | some n => .next (s.laneHalt (.fault { cause := causeIllegal, slot := n }))
  | none =>
    match clauseSlot g op w with
    | some n => .next (s.laneHalt (.fault { cause := causeClause, slot := n, brec := laneRec op w }))
    | none =>
      if stackLacks g op w then .next (s.laneHalt .lacks)
      else match guardCheck g w with
      | some f => .next ((s.noteReg 0xFFFFFFFF (predReg w.pg.val + 64)).laneHalt (.fault { f with brec := laneRec op w }))
      | none =>
      if act = 0 then .next (s.laneDone (if isLongOp op then laneDests op w else []))
      else match poisonCheck g (laneOthers op w ++ srcs) act with
      | some f =>
        .next ((((laneOthers op w ++ srcs).flatMap (·.2)).foldl (State.noteReg act) s).laneHalt (.fault { f with brec := laneRec op w }))
      | none =>
        match (if w.u || op == 0xA6 then uniformCheck g srcs act else none) with
        | some f => .next (s.laneHalt (.fault { f with brec := laneRec op w }))
        | none =>
          match body s act with
          | .error h => .next (s.laneHalt h)
          | .ok t =>
            match (if isLongOp op then none else s.badLane w act) with
            | some thr =>
              let f : FaultInfo :=
                { cause := causeCheck, hw := true, tmask := thr, detail := BitVec.ofNat 64 (2 ^ 56 + g.place.plane) }
              .next ((s.chargeLane g.place.plane).laneHalt (.fault f))
            | none => .next (t.laneDone (if isLongOp op then laneDests op w else []))

/-- A function of each thread's own sources, written to its own destination; a uniform instruction computes once, for the
lowest active thread (R122). -/
def lanePer (op : Nat) (sgn : Bool) (f : Group → Fin 32 → Word32 → Word32 → Word32 → LaneOut) (w : LaneFields) : State → Out :=
  lane op w fun s act =>
    let g := s.cur
    let one (t : Fin 32) := f g t (g.rv w.a t) (srcB g w t) (g.rv w.c t)
    let outs := if w.u then [one (lowest act)] else (threads act).map one
    let fl := outs.foldl (fun a o => a ||| o.fl) 0
    let nf := outs.foldl (fun a o => a ||| o.nf) 0
    .ok (s.setCur ((g.raiseStatus fl nf).writeDst w.d act sgn fun t => (one (if w.u then lowest act else t)).val))

/-- A test of each thread's own sources, written to its bit of pd. -/
def laneTest (op : Nat) (f : Group → Word32 → Word32 → Bool × Flags5) (w : LaneFields) : State → Out :=
  lane op w fun s act =>
    let g := s.cur
    let one (t : Fin 32) := f g (g.rv w.a t) (srcB g w t)
    let outs := if w.u then [one (lowest act)] else (threads act).map one
    let fl := outs.foldl (fun a o => a ||| o.2) 0
    .ok (s.setCur ((g.raiseStatus fl 0).writePred w.pd act fun t => (one (if w.u then lowest act else t)).1))

end Sys2Proof.Machine
end

