-- ==== Sys2Proof/Machine/LaneInt.lean ====
section
/-! DEFINITION. Lane integer, bitwise, bit-field, comparison and move instructions: opcodes 0x00 to 0x23 (R127-R136). -/

namespace Sys2Proof.Machine

/-! ## Elements (R33, R34) -/

/-- Bits of an element of a type (R33). -/
def elemBits (ty : Nat) : Nat := 32 / elems ty

/-- The integer types whose elements are signed (R33). -/
def signedTy (ty : Nat) : Bool := ty == 1 || ty == 3 || ty == 5

/-- Element j of a register, read as the type says (R33). -/
def elem (ty : Nat) (x : Word32) (j : Nat) : Int :=
  let n := elemBits ty; let e := x.toNat / 2 ^ (n * j) % 2 ^ n
  if signedTy ty then signed n e else e

/-- An exact integer brought to n bits: clamped to the range (rm = 1) or wrapped (R34). -/
def narrow (sat sgn : Bool) (n : Nat) (x : Int) : Nat :=
  let lo : Int := if sgn then -(2 ^ (n - 1)) else 0
  let hi : Int := if sgn then 2 ^ (n - 1) - 1 else 2 ^ n - 1
  let y := if sat then (if x < lo then lo else if hi < x then hi else x) else x
  (y % 2 ^ n).toNat

/-- A register whose element j is f j, of n bits each. -/
def packElems (n count : Nat) (f : Nat → Nat) : Word32 :=
  BitVec.ofNat 32 ((List.range count).foldl (fun a j => a + f j * 2 ^ (n * j)) 0)

/-- An exact function of each element, narrowed (R34, R127). -/
def intOp (w : LaneFields) (f : Int → Int → Int → Int) (a b c : Word32) : Word32 :=
  let ty := w.ty.val
  packElems (elemBits ty) (elems ty) fun j =>
    narrow (w.rm.val == 1) (signedTy ty) (elemBits ty) (f (elem ty a j) (elem ty b j) (elem ty c j))

/-- An integer instruction computed on each element. -/
def laneInt (op : Nat) (f : Nat → Int → Int → Int → Int) (w : LaneFields) : State → Out :=
  lanePer op (w.ty.val == 1) (fun _ _ a b c => { val := intOp w (f (elemBits w.ty.val)) a b c }) w

/-- A bitwise instruction. -/
def laneBits (op : Nat) (f : Word32 → Word32 → Word32 → Word32) (w : LaneFields) : State → Out :=
  lanePer op (w.ty.val == 1) (fun _ _ a b c => { val := f a b c }) w

/-- IADD (R127). -/
def execIadd (w : LaneFields) (s : State) : Out := laneInt 0x00 (fun _ x y _ => x + y) w s

/-- ISUB (R127). -/
def execIsub (w : LaneFields) (s : State) : Out := laneInt 0x01 (fun _ x y _ => x - y) w s

/-- IMUL (R127). -/
def execImul (w : LaneFields) (s : State) : Out := laneInt 0x02 (fun _ x y _ => x * y) w s

/-- IMULH (R127). -/
def execImulh (w : LaneFields) (s : State) : Out := laneInt 0x03 (fun n x y _ => x * y / 2 ^ n) w s

/-- IMAD (R128). -/
def execImad (w : LaneFields) (s : State) : Out := laneInt 0x04 (fun _ x y z => x * y + z) w s

/-- IMIN (R127). -/
def execImin (w : LaneFields) (s : State) : Out := laneInt 0x05 (fun _ x y _ => min x y) w s

/-- IMAX (R127). -/
def execImax (w : LaneFields) (s : State) : Out := laneInt 0x06 (fun _ x y _ => max x y) w s

/-- IABS (R129). -/
def execIabs (w : LaneFields) (s : State) : Out := laneInt 0x07 (fun _ x _ _ => (x.natAbs : Int)) w s

/-- INEG (R129). -/
def execIneg (w : LaneFields) (s : State) : Out := laneInt 0x08 (fun _ x _ _ => -x) w s

/-- Four byte products plus c, wrapped or clamped once (R34, R128). -/
def dot4 (w : LaneFields) (a b c : Word32) : Word32 :=
  let ty := w.ty.val; let sgn := signedTy ty
  let p (j : Nat) := elem ty a j * elem ty b j
  let z : Int := if sgn then c.toInt else c.toNat
  BitVec.ofNat 32 (narrow (w.rm.val == 1) sgn 32 (p 0 + p 1 + p 2 + p 3 + z))

/-- IDOT4 (R128): the result of signed bytes is an .i32 (R120). -/
def execIdot4 (w : LaneFields) (s : State) : Out :=
  lanePer 0x09 (signedTy w.ty.val) (fun _ _ a b c => { val := dot4 w a b c }) w s

/-- Quotient and remainder with the edge results of R35. -/
def quotOf (sgn : Bool) (x y : Int) : Int := if y = 0 then (if sgn then -1 else 2 ^ 32 - 1) else x.tdiv y
def remOf (x y : Int) : Int := if y = 0 then x else x.tmod y

/-- IDIV (R130). -/
def execIdiv (w : LaneFields) (s : State) : Out := laneInt 0x0A (fun _ x y _ => quotOf (signedTy w.ty.val) x y) w s

/-- IREM (R130). -/
def execIrem (w : LaneFields) (s : State) : Out := laneInt 0x0B (fun _ x y _ => remOf x y) w s

/-- AND (R131). -/
def execLaneAnd (w : LaneFields) (s : State) : Out := laneBits 0x10 (fun a b _ => a &&& b) w s

/-- OR (R131). -/
def execLaneOr (w : LaneFields) (s : State) : Out := laneBits 0x11 (fun a b _ => a ||| b) w s

/-- XOR (R131). -/
def execLaneXor (w : LaneFields) (s : State) : Out := laneBits 0x12 (fun a b _ => a ^^^ b) w s

/-- NOT (R131). -/
def execNot (w : LaneFields) (s : State) : Out := laneBits 0x13 (fun a _ _ => ~~~a) w s

/-- ANDN (R131). -/
def execLaneAndn (w : LaneFields) (s : State) : Out := laneBits 0x14 (fun a b _ => a &&& ~~~b) w s

/-- The three-input function of R131 in every bit position. -/
def mux3 (x : Nat) (a b c : Word32) : Word32 :=
  maskOf fun i =>
    let k := (if a.getLsbD i.val then 2 else 0) + (if b.getLsbD i.val then 1 else 0)
    bit x (if c.getLsbD i.val then 4 + k else k)

/-- BMUX3 (R131). -/
def execBmux3 (w : LaneFields) (s : State) : Out := laneBits 0x15 (mux3 w.x.val) w s

/-- SHL (R132). -/
def execLaneShl (w : LaneFields) (s : State) : Out := laneBits 0x16 (fun a b _ => if 32 ≤ b.toNat then 0 else a <<< b.toNat) w s

/-- SHR (R132). -/
def execLaneShr (w : LaneFields) (s : State) : Out := laneBits 0x17 (fun a b _ => if 32 ≤ b.toNat then 0 else a >>> b.toNat) w s

/-- SAR (R132). -/
def execLaneSar (w : LaneFields) (s : State) : Out := laneBits 0x18 (fun a b _ => a.sshiftRight (if 32 ≤ b.toNat then 32 else b.toNat)) w s

/-- Position and length of a bit field (R133). -/
def fieldPos (b : Word32) : Nat := min (b.toNat % 256) 32
def fieldLen (b : Word32) : Nat := min (b.toNat / 256 % 256) (32 - fieldPos b)

/-- BFE's field (R133). -/
def bitExtract (sgn : Bool) (a b : Word32) : Word32 :=
  let pos := fieldPos b; let len := fieldLen b; let f := a.toNat / 2 ^ pos % 2 ^ len
  if len = 0 then 0 else if sgn then BitVec.ofInt 32 (signed len f) else BitVec.ofNat 32 f

/-- BFI's field (R133). -/
def bitInsert (a b c : Word32) : Word32 :=
  let pos := fieldPos b; let m := BitVec.ofNat 32 ((2 ^ fieldLen b - 1) * 2 ^ pos)
  (c &&& ~~~m) ||| (BitVec.ofNat 32 (a.toNat * 2 ^ pos) &&& m)

/-- BFE (R133). -/
def execBfe (w : LaneFields) (s : State) : Out := laneBits 0x19 (fun a b _ => bitExtract (w.ty.val == 1) a b) w s

/-- BFI (R133). -/
def execBfi (w : LaneFields) (s : State) : Out := laneBits 0x1A bitInsert w s

/-- POPC (R134). -/
def execLanePopc (w : LaneFields) (s : State) : Out := laneBits 0x1B (fun a _ _ => BitVec.ofNat 32 (threads a).length) w s

/-- CLZ (R134). -/
def execLaneClz (w : LaneFields) (s : State) : Out := laneBits 0x1C (fun a _ _ => BitVec.ofNat 32 (if a = 0 then 32 else 31 - Nat.log2 a.toNat)) w s

/-- BREV (R134). -/
def execBrev (w : LaneFields) (s : State) : Out := laneBits 0x1D (fun a _ _ => maskOf fun i => a.getLsbD (31 - i.val)) w s

/-- The comparisons of R80 on two integers. -/
def compareInt (x : Nat) (a b : Int) : Bool :=
  match x with
  | 0 => a == b
  | 1 => a != b
  | 2 => a < b
  | 3 => a ≤ b
  | 4 => b < a
  | _ => b ≤ a

/-- ICMP (R135). -/
def execIcmp (w : LaneFields) (s : State) : Out := laneTest 0x20 (fun _ a b =>
    ((List.range (elems w.ty.val)).all (fun j => compareInt w.x.val (elem w.ty.val a j) (elem w.ty.val b j)), 0)) w s

/-- SEL (R136). -/
def execSel (w : LaneFields) (s : State) : Out := lanePer 0x21 false (fun g t a b _ =>
    { val := if (g.rp (Fin.ofNat 8 w.x.val)).getLsbD t.val then a else b }) w s

/-- MOV (R136). -/
def execMov (w : LaneFields) (s : State) : Out := laneBits 0x22 (fun _ b _ => b) w s

/-- MOVID (R136). -/
def execMovid (w : LaneFields) (s : State) : Out := lanePer 0x23 false (fun _ t _ _ _ => { val := BitVec.ofNat 32 t.val }) w s

end Sys2Proof.Machine
end

