-- ==== Sys2Proof/Machine/LaneFloat.lean ====
section
/-! DEFINITION. Lane float instructions: opcodes 0x40 to 0x56 (R137-R143). -/

namespace Sys2Proof.Machine

/-- A written FP32 result: its conditions and its NFFLAG bits (R125). -/
def f32Out (r : Nat × Flags5) : LaneOut := { val := BitVec.ofNat 32 r.1, fl := r.2, nf := nfOf f32 r.1 }

/-- Two BF16 results in one register. -/
def bfOut (lo hi : Nat × Flags5) : LaneOut :=
  { val := BitVec.ofNat 32 (hi.1 * 2 ^ 16 + lo.1), fl := lo.2 ||| hi.2, nf := nfOf bf16 lo.1 ||| nfOf bf16 hi.1 }

/-- A finite or special value as an exact result, a NaN without a condition. -/
def exactOf : FVal → Exact
  | .nan s => .nan (nvIf s)
  | .inf n => .inf n 0
  | .fin n m e => .fin n m 1 e false

/-- The two roundings of a BF16 element (R44): to FP32, then to BF16. -/
def twice (rm : Nat) (ftz : Bool) (x : Exact) : Nat × Flags5 :=
  let (y, f1) := roundF f32 rm ftz x
  let (z, f2) := roundF bf16 rm ftz (exactOf (decodeF f32 false y))
  (z, f1 ||| f2)

/-- An arithmetic instruction on .f32 (R138) or .bf16x2 (R44). -/
def floatOp (w : LaneFields) (x : Nat → FVal → FVal → FVal → Exact) (g : Group) (a b c : Word32) : LaneOut :=
  let md := g.mode w.rm.val
  if w.ty.val = 0x10 then
    let v (r : Word32) := decodeF f32 g.daz r.toNat
    f32Out (roundF f32 md g.ftz (x md (v a) (v b) (v c)))
  else
    let v (r : Word32) (j : Nat) := decodeF bf16 g.daz (r.toNat / 2 ^ (16 * j) % 2 ^ 16)
    let one (j : Nat) := twice md g.ftz (x 0 (v a j) (v b j) (v c j))
    bfOut (one 0) (one 1)

def laneFloat (op : Nat) (x : Nat → FVal → FVal → FVal → Exact) (w : LaneFields) : State → Out :=
  lanePer op false (fun g _ a b c => floatOp w x g a b c) w

/-- A unary FP32 instruction on the encoding. -/
def laneUn (op : Nat) (f : Group → Nat → LaneOut) (w : LaneFields) : State → Out :=
  lanePer op (w.ty.val == 1) (fun g _ a _ _ => f g a.toNat) w

/-- FADD (R138). -/
def execFadd (w : LaneFields) (s : State) : Out := laneFloat 0x40 (fun rm a b _ => addX rm a b) w s

/-- FSUB (R138). -/
def execFsub (w : LaneFields) (s : State) : Out := laneFloat 0x41 (fun rm a b _ => addX rm a b.neg) w s

/-- FMUL (R138). -/
def execFmul (w : LaneFields) (s : State) : Out := laneFloat 0x42 (fun _ a b _ => mulX a b) w s

/-- FFMA (R138). -/
def execFfma (w : LaneFields) (s : State) : Out := laneFloat 0x43 (fun rm a b c => fmaX rm a b c) w s

/-- FMIN and FMAX element by element (R139): a selection, not flushed. -/
def selectOp (w : LaneFields) (max : Bool) (g : Group) (a b : Word32) : LaneOut :=
  if w.ty.val = 0x10 then f32Out (selectF f32 g.daz max a.toNat b.toNat)
  else
    let one (j : Nat) := selectF bf16 g.daz max (a.toNat / 2 ^ (16 * j) % 2 ^ 16) (b.toNat / 2 ^ (16 * j) % 2 ^ 16)
    bfOut (one 0) (one 1)

/-- FMIN (R139). -/
def execFmin (w : LaneFields) (s : State) : Out := lanePer 0x44 false (fun g _ a b _ => selectOp w false g a b) w s

/-- FMAX (R139). -/
def execFmax (w : LaneFields) (s : State) : Out := lanePer 0x45 false (fun g _ a b _ => selectOp w true g a b) w s

/-- FABS (R139). -/
def execFabs (w : LaneFields) (s : State) : Out := lanePer 0x46 false (fun _ _ a _ _ => { val := a &&& 0x7FFFFFFF }) w s

/-- FNEG (R139). -/
def execFneg (w : LaneFields) (s : State) : Out := lanePer 0x47 false (fun _ _ a _ _ => { val := a ^^^ 0x80000000 }) w s

/-- The comparisons of R80 and R140 on two FP32 encodings. -/
def compareF (x : Nat) (daz : Bool) (p q : Nat) : Bool × Flags5 :=
  let a := decodeF f32 daz p; let b := decodeF f32 daz q
  let nan := a.isNan || b.isNan
  let nv := nvIf (a.isSnan || b.isSnan || (nan && 2 ≤ x && x ≤ 5))
  if nan then (x == 1 || x == 6, nv)
  else if x = 6 then (false, nv)
  else if x = 7 then (true, nv)
  else (compareInt x (cmpF a b) 0, nv)

/-- FCMP (R140). -/
def execFcmp (w : LaneFields) (s : State) : Out := laneTest 0x48 (fun g a b => compareF w.x.val g.daz a.toNat b.toNat) w s

/-- FRCP (R41, R42, R141). -/
def execFrcp (w : LaneFields) (s : State) : Out := laneUn 0x49 (fun g x => f32Out (transF 0x49 g.daz g.ftz x)) w s

/-- FRSQ (R41, R42, R141). -/
def execFrsq (w : LaneFields) (s : State) : Out := laneUn 0x4A (fun g x => f32Out (transF 0x4A g.daz g.ftz x)) w s

/-- FSQRT (R138). -/
def execFsqrt (w : LaneFields) (s : State) : Out := laneFloat 0x4B (fun _ a _ _ => sqrtX a) w s

/-- FDIV (R138). -/
def execFdiv (w : LaneFields) (s : State) : Out := laneFloat 0x4C (fun _ a b _ => divX a b) w s

/-- FEXP2 (R41, R42, R141). -/
def execFexp2 (w : LaneFields) (s : State) : Out := laneUn 0x4D (fun g x => f32Out (transF 0x4D g.daz g.ftz x)) w s

/-- FLOG2 (R41, R42, R141). -/
def execFlog2 (w : LaneFields) (s : State) : Out := laneUn 0x4E (fun g x => f32Out (transF 0x4E g.daz g.ftz x)) w s

/-- FSIN (R41, R42, R141). -/
def execFsin (w : LaneFields) (s : State) : Out := laneUn 0x4F (fun g x => f32Out (transF 0x4F g.daz g.ftz x)) w s

/-- FCOS (R41, R42, R141). -/
def execFcos (w : LaneFields) (s : State) : Out := laneUn 0x50 (fun g x => f32Out (transF 0x50 g.daz g.ftz x)) w s

/-- FTANH (R41, R42, R141). -/
def execFtanh (w : LaneFields) (s : State) : Out := laneUn 0x51 (fun g x => f32Out (transF 0x51 g.daz g.ftz x)) w s

/-- a - trunc(a) (R142). -/
def fraction (daz ftz : Bool) (x : Nat) : Nat × Flags5 :=
  match decodeF f32 daz x with
  | .nan s => (f32.nan, nvIf s)
  | .inf n => (signBit f32 n, 0)
  | .fin n m e =>
    if 0 ≤ e then (signBit f32 n, 0) else roundFin f32 0 ftz n (m % 2 ^ (-e).toNat) 1 e false

/-- A float rounded to an integral value (R142). -/
def integral (rm : Nat) (daz : Bool) (x : Nat) : Nat × Flags5 :=
  match decodeF f32 daz x with
  | .nan s => (f32.nan, nvIf s)
  | .inf n => (signBit f32 n + f32.inf, 0)
  | .fin n m e => ((roundFin f32 0 false n (toIntegral rm n m e).1 1 0 false).1, 0)

/-- FFRC (R142). -/
def execFfrc (w : LaneFields) (s : State) : Out := laneUn 0x52 (fun g x => f32Out (fraction g.daz g.ftz x)) w s

/-- FRND (R142). -/
def execFrnd (w : LaneFields) (s : State) : Out := laneUn 0x53 (fun g x => f32Out (integral (g.mode w.rm.val) g.daz x)) w s

/-- The class bit of an encoding (R143). -/
def classOf (x : Nat) : Nat :=
  match decodeF f32 false x with
  | .nan s => if s then 0 else 1
  | .inf n => if n then 2 else 9
  | .fin n m _ =>
    if m = 0 then (if n then 5 else 6)
    else if m < 2 ^ 23 then (if n then 4 else 7)
    else if n then 3 else 8

/-- FCLASS (R143). -/
def execFclass (w : LaneFields) (s : State) : Out := laneUn 0x54 (fun _ x => { val := BitVec.ofNat 32 (2 ^ classOf x) }) w s

/-- a * 2^k exactly (R143); a k beyond 600 either way rounds as 600 does. -/
def scaleX (a : FVal) (k : Int) : Exact :=
  let k := if k < -600 then -600 else if 600 < k then 600 else k
  match a with
  | .fin n m e => .fin n m 1 (e + k) false
  | v => exactOf v

/-- FSCL (R143). -/
def execFscl (w : LaneFields) (s : State) : Out := lanePer 0x55 false (fun g _ a b _ =>
    f32Out (roundF f32 (g.mode w.rm.val) g.ftz (scaleX (decodeF f32 g.daz a.toNat) b.toInt))) w s

/-- The unbiased exponent (R143). -/
def exponentOf (daz : Bool) (x : Nat) : Word32 :=
  match decodeF f32 daz x with
  | .fin _ m e => if m = 0 then 0x80000000 else BitVec.ofInt 32 (Nat.log2 m + e)
  | _ => 0x7FFFFFFF

/-- FEXPO (R143): its result is an .i32 (R120). -/
def execFexpo (w : LaneFields) (s : State) : Out :=
  lanePer 0x56 true (fun g _ a _ _ => { val := exponentOf g.daz a.toNat }) w s

end Sys2Proof.Machine
end

