-- ==== Sys2Proof/Machine/Quant.lean ====
section
/-! DEFINITION. Q formats, E8M7 scales, quantising and dequantising (R46-R49), and accumulator slots (R55-R57). -/

namespace Sys2Proof.Machine

/-- Bits of a Q format by its type code 0x20-0x23 (R46). -/
def qBits (ty : Nat) : Nat := if ty = 0x20 then 4 else if ty = 0x21 then 6 else if ty = 0x22 then 8 else 12

/-- The largest produced code (R46). -/
def qMax (n : Nat) : Nat := 2 ^ (n - 1) - 1

/-- R49: a scale that raises MXFMT. -/
def scaleBad (x : Nat) : Bool := bit x 15 || bits x 14 7 == 0 || bits x 14 7 == 255

/-- An E8M7 scale is scaleInt * 2^scaleExp (R49). -/
def scaleInt (x : Nat) : Nat := 128 + bits x 6 0
def scaleExp (x : Nat) : Int := (bits x 14 7 : Int) - 134

/-- The quantiser's last step on an exact quotient num / den * 2^exp (R47): the code and whether it saturated. -/
def quantFin (neg : Bool) (num den : Nat) (exp : Int) (qmax : Nat) : Int × Nat :=
  let n := (roundInt 0 neg num den exp 0 false).1
  let m := if qmax < n then qmax else n
  (if neg then -(m : Int) else m, if qmax < n then 1 else 0)

/-- Quantising (R47): the code and its saturation. -/
def quantise (x : FVal) (scale qmax : Nat) : Int × Nat :=
  match x with
  | .nan _ => (0, 0)
  | .inf neg => (if neg then -(qmax : Int) else qmax, 1)
  | .fin neg m e => quantFin neg m (scaleInt scale) (e - scaleExp scale) qmax

/-- Dequantising before its rounding (R48). -/
def dequantise (q : Int) (scale : Nat) : Exact := .fin (q < 0) (q.natAbs * scaleInt scale) 1 (scaleExp scale) false

/-- Element i of a densely packed stream of n-bit codes (R46). -/
def qElem (n : Nat) (stream : Nat) (i : Nat) : Int := signed n (stream / 2 ^ (n * i))

/-- The matrix operand path's reading of a code (R50): the most negative code stands for the negative of the largest. -/
def qOperand (n : Nat) (q : Int) : Int := if q = -(2 ^ (n - 1)) then q + 1 else q

/-- Codes packed densely, as a number (R46). -/
def qPack (n : Nat) (qs : List Int) : Nat := qs.foldr (fun q a => (q % 2 ^ n).toNat + 2 ^ n * a) 0

/-! ## Accumulator slots (R55-R57) -/

def slotAnchor (s : Nat) : Int := signed 8 (bits s 119 112)
def slotSum (s : Nat) : Int := signed 112 s

/-- Bit n of a slot set. -/
def slotSet (s n : Nat) : Nat := if bit s n then s else s + 2 ^ n

/-- R56: an FP32 addend with its anchor applied to a slot. -/
def slotAdd (s x : Nat) (anchor : BitVec 8) : Nat :=
  if anchor.toNat ≠ bits s 119 112 then slotSet s 124
  else match decodeF f32 false x with
    | .nan _ => slotSet s 120
    | .inf neg => slotSet s (if neg then 122 else 121)
    | .fin neg m e =>
      let a := slotAnchor s; let t := a + 36 - e
      if (if 0 ≤ t then 2 ^ t.toNat ≤ m else m != 0) then slotSet s 123
      else
        let n : Int := (roundInt 0 neg m 1 (e + 52 - a) 0 false).1
        let sum := ((slotSum s + (if neg then -n else n)) % 2 ^ 112).toNat
        s - s % 2 ^ 112 + sum

/-- R57: the value read out, with its conditions. -/
def slotValue (s : Nat) : Exact :=
  if bit s 120 || (bit s 121 && bit s 122) then .nan 0
  else if bit s 121 then .inf false 0
  else if bit s 122 then .inf true 0
  else .fin (slotSum s < 0) (slotSum s).natAbs 1 (slotAnchor s - 52) false

/-- The FP32 encoding of a slot's value: one rounding, RNE. -/
def slotRead (s : Nat) : Nat := (roundF f32 0 false (slotValue s)).1

end Sys2Proof.Machine
end

