-- ==== Sys2Proof/Machine/LaneConv.lean ====
section
/-! DEFINITION. Lane conversions: opcodes 0x80 to 0x84 (R144-R150). -/

namespace Sys2Proof.Machine

/-! ## CVT (R144, R145) -/

/-- A float element of a type, read under DAZ (R137). -/
def floatElem (daz : Bool) (ty x : Nat) : FVal := decodeF (if ty = 0x10 then f32 else bf16) daz x

/-- An element's bits. -/
def rawElem (ty : Nat) (x : Word32) (j : Nat) : Nat := x.toNat / 2 ^ (elemBits ty * j) % 2 ^ elemBits ty

/-- A float brought to an integer type (R45, R145). -/
def floatToInt (rm : Nat) (sgn : Bool) (n : Nat) (v : FVal) : Nat × Flags5 :=
  let lo : Int := if sgn then -(2 ^ (n - 1)) else 0
  let hi : Int := if sgn then 2 ^ (n - 1) - 1 else 2 ^ n - 1
  let put (x : Int) := (x % 2 ^ n).toNat
  match v with
  | .nan _ => (0, fNV)
  | .inf neg => (put (if neg then lo else hi), fNV)
  | .fin neg m e =>
    let (k, changed) := toIntegral rm neg m e
    let x : Int := if neg then -(k : Int) else k
    if x < lo then (put lo, fNV) else if hi < x then (put hi, fNV) else (put x, if changed then fNX else 0)

/-- One element converted from a source type to a destination type (R145). -/
def cvtElem (rm : Nat) (sat daz ftz : Bool) (src dst : Nat) (x : Nat) : Nat × Flags5 :=
  let f := if dst = 0x10 then f32 else bf16
  let i : Int := if signedTy src then signed (elemBits src) x else x
  if isFloatTy src then
    (if isFloatTy dst then roundF f rm ftz (exactOf (floatElem daz src x))
     else floatToInt rm (signedTy dst) (elemBits dst) (floatElem daz src x))
  else if isFloatTy dst then roundF f rm ftz (.fin (i < 0) i.natAbs 1 0 false)
  else (narrow sat (signedTy dst) (elemBits dst) i, 0)

/-- CVT on one thread (R144): the elements of a, then those of c where the destination has twice as many. -/
def convert (w : LaneFields) (g : Group) (a c : Word32) : LaneOut :=
  let src := w.x.val; let dst := w.ty.val; let ns := elems src; let nd := elems dst
  let one (j : Nat) :=
    cvtElem (g.mode w.rm.val) (w.rm.val == 1) g.daz g.ftz src dst (if j < ns then rawElem src a j else rawElem src c (j - ns))
  let v := packElems (elemBits dst) nd fun j => (one j).1
  { val := v
    fl := (List.range nd).foldl (fun q j => q ||| (one j).2) 0
    nf := if isFloatTy dst then nfOfWord (dst == 0x11) v else 0 }

/-- CVT (R144). -/
def execCvt (w : LaneFields) (s : State) : Out := lanePer 0x80 (w.ty.val == 1) (fun g _ a _ c => convert w g a c) w s

/-! ## QCVT and DQCVT (R146-R148) -/

/-- The threads whose scale fails R49. -/
def badScales (g : Group) (w : LaneFields) (act : Word32) : Word32 :=
  maskOf fun t => act.getLsbD t.val && scaleBad ((srcB g w t).toNat % 2 ^ 16)

/-- MXFMT for the threads with a bad scale, at operand b. -/
def scaleCheck (g : Group) (w : LaneFields) (act : Word32) : Except Halt Unit :=
  let bad := badScales g w act
  if bad = 0 then .ok () else .error (.fault { cause := causeMxfmt, slot := 11, tmask := bad })

/-- One thread's two values quantised: the codes, the saturation count, whether a value is a NaN (R146). -/
def quantPair (w : LaneFields) (a b c : Word32) : Word32 × Nat × Bool :=
  let q := qMax (qBits w.ty.val); let sc := b.toNat % 2 ^ 16
  let x0 := if w.x.val = 0x10 then decodeF f32 false a.toNat else decodeF bf16 false (a.toNat % 2 ^ 16)
  let x1 := if w.x.val = 0x10 then decodeF f32 false c.toNat else decodeF bf16 false (a.toNat / 2 ^ 16)
  let r0 := quantise x0 sc q; let r1 := quantise x1 sc q
  (packElems 16 2 fun j => ((if j = 0 then r0.1 else r1.1) % 2 ^ 16).toNat, r0.2 + r1.2, x0.isNan || x1.isNan)

/-- The rescale trap is armed (R27). -/
def Group.armed (g : Group) : Bool := g.rsthr.getLsbD 63

/-- RESCALE after a committed QCVT, QTILE or requantising MXDRAIN (R147, R208): NFFLAG.SAT, and, where the trap was armed when the
instruction was accepted, the trap when the count exceeds THRESH (log 43). -/
def Group.saturated (g : Group) (armed : Bool) (count : Nat) : Group :=
  if count = 0 then g
  else
    let g := { g with nfflag := g.nfflag ||| nfSat }
    if armed && g.rsthr.toNat % 2 ^ 32 < count then { g with traps := g.traps.addRescale count } else g

/-- QCVT (R146, R147). -/
def execQcvt (w : LaneFields) (s : State) : Out :=
  lane 0x81 w (fun s act =>
    let g := s.cur
    match scaleCheck g w act with
    | .error h => .error h
    | .ok _ =>
      let one (t : Fin 32) := quantPair w (g.rv w.a t) (srcB g w t) (g.rv w.c t)
      let outs := if w.u then [one (lowest act)] else (threads act).map one
      let count := outs.foldl (fun n o => n + o.2.1) 0
      let nv := outs.any fun o => o.2.2
      let g := (g.raiseStatus (nvIf nv) 0).writeDst w.d act false fun t => (one (if w.u then lowest act else t)).1
      .ok (s.setCur (g.saturated g.armed count))) s

/-- One thread's codes dequantised (R148). -/
def dequantPair (w : LaneFields) (a b : Word32) : LaneOut :=
  let n := qBits w.x.val; let sc := b.toNat % 2 ^ 16
  let q (j : Nat) := dequantise (signed n (a.toNat / 2 ^ (16 * j))) sc
  if w.ty.val = 0x10 then f32Out (roundF f32 0 false (q 0))
  else bfOut (roundF bf16 0 false (q 0)) (roundF bf16 0 false (q 1))

/-- DQCVT (R148). -/
def execDqcvt (w : LaneFields) (s : State) : Out :=
  lane 0x82 w (fun s act =>
    let g := s.cur
    match scaleCheck g w act with
    | .error h => .error h
    | .ok _ =>
      let one (t : Fin 32) := dequantPair w (g.rv w.a t) (srcB g w t)
      let outs := if w.u then [one (lowest act)] else (threads act).map one
      let fl := outs.foldl (fun a o => a ||| o.fl) 0
      let nf := outs.foldl (fun a o => a ||| o.nf) 0
      .ok (s.setCur ((g.raiseStatus fl nf).writeDst w.d act false fun t => (one (if w.u then lowest act else t)).val))) s

/-! ## PACK and UNPACK (R149, R150) -/

/-- PACK on one thread (R149). -/
def packCodes (n : Nat) (a b c : Word32) : Word32 :=
  let pos := b.toInt
  let f := a.toNat % 2 ^ n + a.toNat / 2 ^ 16 % 2 ^ n * 2 ^ n; let m := 2 ^ (2 * n) - 1
  let sh (x : Nat) : Word32 := BitVec.ofNat 32 (if 0 ≤ pos then x * 2 ^ pos.toNat else x / 2 ^ (-pos).toNat)
  if pos < -32 || 31 < pos then c else (c &&& ~~~sh m) ||| (sh f &&& sh m)

/-- PACK (R149). -/
def execPack (w : LaneFields) (s : State) : Out := laneBits 0x83 (packCodes (qBits w.ty.val)) w s

/-- UNPACK on one thread (R150). -/
def unpackCodes (n : Nat) (a b c : Word32) : Word32 :=
  let z := c.toNat * 2 ^ 32 + a.toNat; let pos := b.toNat % 32
  packElems 16 2 fun j => (signed n (z / 2 ^ (pos + n * j)) % 2 ^ 16).toNat

/-- UNPACK (R150). -/
def execUnpack (w : LaneFields) (s : State) : Out := laneBits 0x84 (unpackCodes (qBits w.ty.val)) w s

end Sys2Proof.Machine
end

