-- ==== Sys2Proof/Machine/Translate.lean ====
section
/-! DEFINITION. Address translation: the five-level walk, permissions, seals and homes (R161, R320-R334), and the tagged
addresses of the engines (R178). -/

namespace Sys2Proof.Machine

/-- The kinds of access, in DETAIL's code (R259). -/
inductive Acc where
  | read
  | write
  | atomic
  | fetch
  deriving DecidableEq, Repr

def Acc.code : Acc → Word
  | .read => 0
  | .write => 1
  | .atomic => 2
  | .fetch => 3

/-- The end of a walk (R322, R329, R333). -/
inductive Walk where
  | leaf (t : Tlb)
  | absent
  | malformed
  /-- an entry, at the key, that holds poison: it counts as malformed (R378). -/
  | poisoned (entry : Nat)
  /-- a valid leaf with ZA set, by its page's address. -/
  | zero (page : Nat)
  deriving DecidableEq, Repr

/-- The die that a frame is homed on (R324). -/
def frameDie (pa : Nat) : Nat := pa / 2 ^ 37

/-- The stack of the device, 0-15, and its channel 0-15 (R324, R383). -/
def frameStack (pa : Nat) : Nat := pa / 2 ^ 36
def frameChannel (pa : Nat) : Nat := pa % 2 ^ 36 / 2 ^ 16 % 16

/-- The frame lies in a fenced channel or on a fenced die (R379, R383). -/
def State.frameLost (s : State) (pa : Nat) : Bool :=
  s.fenced.contains (.channel (frameStack pa) (frameChannel pa)) || s.fenced.contains (.die (frameDie pa))

/-- One entry of the tables (R321) as a 128-bit number. -/
def entryFlag (e n : Nat) : Bool := bit e n
def entryAddr (e : Nat) : Nat := bits e 63 9 * 2 ^ 9

/-- R322 on an entry with V = 1 at a level whose page is 2^size bytes; nextAlign is the alignment of the table below. -/
def entryBad (size : Nat) (mayLeaf mayTable : Bool) (nextAlign e : Nat) : Bool :=
  let leaf := bit e 1; let hm := bit e 64; let a := entryAddr e
  bits e 111 65 != 0 || (!hm && 2 ^ 40 ≤ a) ||
  (if leaf then !mayLeaf || a % 2 ^ size != 0 || (bit e 5 && !hm) || (bit e 4 && !bit e 2)
   else !mayTable || bits e 8 2 != 0 || hm || bits e 127 112 != 0 || a % nextAlign != 0)

/-- The leaf translation that an entry gives. -/
def leafOf (die ctx pasid va size entry e : Nat) : Tlb :=
  { die := die, ctx := ctx, pasid := pasid, va := va / 2 ^ size * 2 ^ size, size := size, pa := entryAddr e, entry := entry,
    hm := bit e 64, r := bit e 2, w := bit e 3, x := bit e 4, sa := bit e 5, sealed := bit e 6, rwr := bit e 7,
    layout := bits e 127 112 }

/-- The levels below a table (R320): low bit of the index, index bits, whether a leaf and whether a table may stand there,
alignment of the next table. -/
def walkLevels : List (Nat × Nat × Bool × Bool × Nat) :=
  [(48, 9, false, true, 8192), (39, 9, false, true, 8192), (30, 9, true, true, 8192), (21, 9, true, true, 512),
   (16, 5, true, false, 1)]

/-- A walk from a table (R320-R322, R329). Poison in an entry makes it malformed (R378), and so does a frame in a fenced channel, be it
a table's or a page's (R383). -/
def walkFrom (s : State) (die ctx va : Nat) : List (Nat × Nat × Bool × Bool × Nat) → Nat → Walk
  | [], _ => .malformed
  | (lo, n, mayLeaf, mayTable, al) :: r, table =>
    let at_ := table + 16 * (va / 2 ^ lo % 2 ^ n)
    let e := s.read at_ 16
    if s.frameLost at_ then .malformed
    else if s.poisonedAt at_ 16 then .poisoned at_
    else if !bit e 0 then .absent
    else if entryBad lo mayLeaf mayTable al e then .malformed
    else if bit e 1 then
      (if !bit e 64 && s.frameLost (entryAddr e + va % 2 ^ lo) then .malformed
       else if bit e 8 then .zero (va / 2 ^ lo * 2 ^ lo)
       else .leaf (leafOf die ctx (s.pasidOf ctx) va lo at_ e))
    else walkFrom s die ctx va r (entryAddr e)

def Tlb.covers (t : Tlb) (die ctx va : Nat) : Bool :=
  t.die == die && t.ctx == ctx && t.va ≤ va && va < t.va + 2 ^ t.size

/-- The page is being moved by a HOME (R183). -/
def State.inMotion (s : State) (ctx va : Nat) : Bool :=
  s.work.any fun w => match w.kind with
    | .home c a n _ => c == ctx && a ≤ va && va < a + n
    | _ => false

/-- Translation on a die: a cached leaf, or a walk (R327, R329; log 6). A cached leaf with an uncorrectable error counts as malformed, as
an entry of a table does (R375, R378; log 62). A granule that has been lost with its channel is malformed
whichever way its page is known (R383). -/
def State.translate (s : State) (die ctx va : Nat) : Walk :=
  if s.inMotion ctx va then .absent
  else match s.tlb.find? fun t => t.covers die ctx va with
    | some t =>
      if t.bad then .poisoned (tlbKey t) else if !t.hm && s.frameLost (t.pa + (va - t.va)) then .malformed else .leaf t
    | none => walkFrom s die ctx va walkLevels (s.ctx ctx).ptroot

/-- A leaf found by a walk stays cached (R327; log 6). -/
def State.cache (s : State) (t : Tlb) : State := if s.tlb.contains t then s else { s with tlb := s.tlb ++ [t] }

/-- The physical key of a virtual address through a leaf. -/
def Tlb.key (t : Tlb) (va : Nat) : Nat :=
  let a := t.pa + (va - t.va); if t.hm then pasidKey t.pasid a else a

/-- What a line's check gives (R161). -/
inductive Line where
  | good (t : Tlb)
  | page
  | zero (page : Nat)
  | prot
  | sealed
  | remote
  deriving DecidableEq, Repr

/-- Permission, seal and home of a translated line (R161, R323, R324). -/
def lineOf (die : Nat) (k : Acc) : Walk → Line
  | .absent => .page
  | .malformed | .poisoned _ => .prot
  | .zero e => .zero e
  | .leaf t =>
    let perm := match k with | .read => t.r | .write => t.w | .atomic => t.r && t.w | .fetch => t.x
    if !perm then .prot
    else if t.sealed && (k == .write || k == .atomic) then .sealed
    else if k != .fetch && !t.hm && frameDie t.pa != die && !(t.sealed && k == .read) then .remote
    else .good t

/-- The 64 KiB granule of an address. -/
def granuleOf (va : Nat) : Nat := va / 2 ^ 16 * 2 ^ 16

/-- The 64 KiB granule of an address holds .scode or .lcode of a running launch of the context (R83; log 39). -/
def State.codePage (s : State) (ctx va : Nat) : Bool :=
  let g := granuleOf va
  let meets (base size : Nat) := base < g + 2 ^ 16 && g < base + size
  s.launches.any fun l => l.ctx == ctx && (meets l.scode l.ssize || meets l.lbase l.lsize)

/-- The line of an access from a place (R161): a device store to the code of a running launch is PROT (R83), and a stack core reaches
only memory homed on its die (R347; an HM page counts as homed there, R324). -/
def State.lineAt (s : State) (p : Place) (ctx : Nat) (k : Acc) (va : Nat) : Line :=
  let code := (k == .write || k == .atomic) && s.codePage ctx va
  match lineOf p.die k (s.translate p.die ctx va) with
  | .good t =>
    if code then .prot else if p.onStack && k != .fetch && !t.hm && frameDie t.pa != p.die then .remote else .good t
  | .sealed => if code then .prot else .sealed
  | .remote => if code then .prot else .remote
  | l => l

/-- A walk that has met poison notes it (R378). -/
def State.noteWalk (s : State) (die ctx va : Nat) : State :=
  match s.translate die ctx va with
  | .poisoned e => s.notePoison e 16 ctx
  | _ => s

/-- A fault of a line's check; a PROT whose walk has met poison notes it (R378). -/
def State.protHalt (s : State) (f : FaultInfo) : Halt :=
  match s.translate s.cur.place.die (s.launchOf s.cur).ctx (f.addr.toNat % 2 ^ 57) with
  | .poisoned e => if f.cause = causeProt then .poison e 16 f else .fault f
  | _ => .fault f

/-- The line of one scalar or engine access, as a key or a halt (R102, R161); slot names the operand. -/
def State.line (s : State) (k : Acc) (va slot : Nat) (brec : Option Nat := none) : Except Halt (State × Tlb) :=
  let ctx := (s.launchOf s.cur).ctx; let a := BitVec.ofNat 64 va
  match s.lineAt s.cur.place ctx k va with
  | .good t => .ok (s.cache t, t)
  | .page => .error (.miss [(granuleOf va, k == .write || k == .atomic)] (pageFault slot a k.code 0xFFFFFFFF brec))
  | .zero e => .error (.zeroing e)
  | .prot => .error (s.protHalt { cause := causeProt, slot := slot, addr := a, detail := k.code, brec := brec })
  | .sealed => failAddr causeSealed slot a k.code brec
  | .remote => failAddr causeRemoteLocal slot a k.code brec

/-- The access meets a row that another stack core holds (R352). -/
def State.rowHeld (s : State) (core key : Nat) : Bool :=
  key < 2 ^ 40 && s.rows.any fun r => r.core != core && r.stack == frameStack key && r.row == Config.rowOf key

/-- The waiter of a held row is noted (R352). -/
def State.noteWaiter (s : State) (core key : Nat) : State :=
  { s with rows := s.rows.map fun r =>
      if r.core != core && r.stack == frameStack key && r.row == Config.rowOf key && r.waiter.isNone then { r with waiter := some s.ns } else r }

/-! ## Tagged addresses (R178) -/

/-- A tagged address: a virtual address, or an offset in the team's window at a level. -/
inductive Tagged where
  | va (a : Nat)
  | pad (lvl : Fin 3) (off : Nat)
  deriving DecidableEq, Repr

/-- The spaces that R178 gives; anything else is PROT naming the operand, and the access that it was for (R259). -/
def taggedOf (k : Acc) (x : Word) (slot : Nat) : Except Halt Tagged :=
  let w := x.toNat
  match bits w 63 60 with
  | 0 => if bits w 59 57 = 0 then .ok (.va w) else failAddr causeProt slot x k.code
  | 1 => if bits w 59 32 = 0 then .ok (.pad 0 (bits w 31 0)) else failAddr causeProt slot x k.code
  | 2 => if bits w 59 32 = 0 then .ok (.pad 1 (bits w 31 0)) else failAddr causeProt slot x k.code
  | 3 => if bits w 59 32 = 0 then .ok (.pad 2 (bits w 31 0)) else failAddr causeProt slot x k.code
  | _ => failAddr causeProt slot x k.code

def Tagged.addr : Tagged → Nat
  | .va a => a
  | .pad _ o => o

/-- Runs of a range that each lie in one 64 KiB granule: offset, address, length. -/
def granuleRuns : Nat → Nat → Nat → Nat → List (Nat × Nat × Nat)
  | 0, _, _, _ => []
  | fuel + 1, off, a, n =>
    if n = 0 then []
    else
      let m := min n (2 ^ 16 - a % 2 ^ 16)
      (off, a, m) :: granuleRuns fuel (off + m) (a + m) (n - m)

/-- Every page of a virtual range in ascending order, as runs of keys: offset in the range, key, length (R179, R190). -/
def State.runs (s : State) (k : Acc) (slot : Nat) : List (Nat × Nat × Nat) → Except Halt (State × List (Nat × Nat × Nat))
  | [] => .ok (s, [])
  | (off, a, n) :: r =>
    match s.line k a slot with
    | .error h => .error h
    | .ok (t, l) =>
      match State.runs t k slot r with
      | .error h => .error h
      | .ok (u, ks) => .ok (u, (off, l.key a, n) :: ks)

/-- The key of a byte at an offset into runs. -/
def runKey : List (Nat × Nat × Nat) → Nat → Nat
  | [], o => o
  | (off, k, n) :: r, o => if off ≤ o && o < off + n then k + (o - off) else runKey r o

/-- The bytes that runs hold, in order. -/
def State.runBytes (s : State) (rs : List (Nat × Nat × Nat)) : List Byte := rs.flatMap fun r => readCells s.mem r.2.1 r.2.2

/-- The engine's words of a tagged address on a stack core (R348): spaces 2 and 3 are lacking. -/
def stackLacksTag (g : Group) (x : Word) : Bool := g.place.onStack && (bits x.toNat 63 60 == 2 || bits x.toNat 63 60 == 3)

end Sys2Proof.Machine
end

