-- ==== Sys2Proof/Machine/Record.lean ====
section
/-! DEFINITION. Buffer records and the addresses they give (R157-R159). -/

namespace Sys2Proof.Machine

/-- The fields of a buffer record (R157). -/
def recBase (b : BitVec 256) : Nat := bits b.toNat 56 0
def recExtent (b : BitVec 256) : Nat := bits b.toNat 95 64
def recStride (b : BitVec 256) : Nat := bits b.toNat 127 96
def recEsize (b : BitVec 256) : Nat := bits b.toNat 131 128
def recSwz (b : BitVec 256) : Nat := bits b.toNat 135 132
def recOob (b : BitVec 256) : Bool := bit b.toNat 136
def recWr (b : BitVec 256) : Bool := bit b.toNat 137
def recWmslot (b : BitVec 256) : Fin 8 := Fin.ofNat 8 (bits b.toNat 142 140)
def recWmen (b : BitVec 256) : Bool := bit b.toNat 143
def recWmid (b : BitVec 256) : Nat := bits b.toNat 159 144
def recLayout (b : BitVec 256) : Nat := bits b.toNat 175 160

/-- R158: a record that is invalid at its use. -/
def recBad (b : BitVec 256) : Bool :=
  let w := b.toNat; let swz := recSwz b
  bits w 63 57 != 0 || bits w 139 138 != 0 || bits w 255 176 != 0 || 4 < recEsize b || 3 < swz ||
  ((swz == 1 || swz == 3) && recBase b % 1024 != 0) || (swz == 2 && recBase b % 8192 != 0)

/-- The swizzle of a byte offset (R159). -/
def swizzle (swz o : Nat) : Nat :=
  let put (hi lo v : Nat) := o - bits o hi lo * 2 ^ lo + v * 2 ^ lo
  let c (n : Nat) := bits o n n
  match swz with
  | 1 => put 6 4 (bits o 6 4 ^^^ bits o 9 7)
  | 2 => put 9 7 (bits o 9 7 ^^^ bits o 12 10)
  | 3 => put 9 4 (c 9 * 32 + c 7 * 16 + c 5 * 8 + c 8 * 4 + c 6 * 2 + c 4)
  | _ => o

/-- A thread's address through a record (R159). -/
def recVa (b : BitVec 256) (idx : Word) : Nat := (recBase b + swizzle (recSwz b) (idx.toNat * recStride b)) % 2 ^ 57

/-- An access of w bytes at an index lies outside the record (R159). -/
def recOutside (b : BitVec 256) (idx : Word) (w : Nat) : Bool :=
  let i := idx.toNat
  recExtent b ≤ i || (recExtent b - 1) * recStride b + 2 ^ recEsize b < i * recStride b + w

end Sys2Proof.Machine
end

