-- ==== Sys2Proof/Machine/ScalarMem.lean ====
section
/-! DEFINITION. Scalar memory: major 0x5 (R99-R103). -/

namespace Sys2Proof.Machine

/-- The byte offset of a scalar memory word: sa + sext(imm9) * 8 (R100, R101, R103). -/
def State.memOffset (s : State) (a : Fin 64) (imm : BitVec 9) : Word := s.rs a + sext64 imm * 8

/-- A refresh holds the all-bank commands of a stack core to a channel (R350). -/
def State.refreshing (s : State) (p : Place) (key : Nat) : Bool :=
  p.onStack && key < 2 ^ 40 && s.refresh.any fun r => r.1 == frameStack key && r.2.1 == frameChannel key

/-- The burst of a stack core to the channel of a key (R350). -/
def Burst.mine (core key : Nat) (b : Burst) : Bool := b.core == core && b.stack == frameStack key && b.channel == frameChannel key

/-- One more command of a burst; a safe point follows every eighth (R350). -/
def Burst.command (b : Burst) (who : Option (Nat × LaneAcc)) : Burst := { b with since := if 7 ≤ b.since.length then [] else who :: b.since }

/-- An all-bank command of a stack core, with the lane work and the access that it is for while it may be withdrawn (R350, R351). -/
def State.allBank (p : Place) (s : State) (key : Nat) (who : Option (Nat × LaneAcc) := none) : State :=
  if p.onStack && key < 2 ^ 40 then
    let ix := p.coreIx
    match s.bursts.find? (·.mine ix key) with
    | none => { s with bursts := s.bursts ++ [{ core := ix, stack := frameStack key, channel := frameChannel key, since := [who] }] }
    | some _ => { s with bursts := s.bursts.map fun b => if b.mine ix key then b.command who else b }
  else s

/-- An access of the scalar stream waits, in the given way, while a stack core holds its row, or a refresh its channel (R350, R352);
then it is one more command of a stack core's burst. -/
def State.reachKey (s : State) (w : Wait) (key : Nat) : Except Halt State :=
  if s.refreshing s.cur.place key then .error (.hold (s.waiting w))
  else if s.rowHeld s.cur.place.coreIx key then .error (.hold ((s.noteWaiter s.cur.place.coreIx key).waiting w))
  else .ok (s.allBank s.cur.place key)

def State.heldCheck (s : State) (key : Nat) : Except Halt State := s.reachKey .sx key

/-- A memory-side release of a stack core frees its rows, and is a safe point of its bursts (R284, R350, R352). -/
def State.releaseCore (s : State) (ix : Nat) : State :=
  { s with
    rows := s.rows.filter fun r => r.core != ix
    bursts := s.bursts.map fun b => if b.core == ix then { b with since := [] } else b }

/-- A stack core's store holds the row it writes; a seventeenth row first releases the others (R352). -/
def State.holdRow (s : State) (p : Place) (key : Nat) : State :=
  if !p.onStack || 2 ^ 40 ≤ key then s
  else
    let ix := p.coreIx; let r : Row := { core := ix, stack := frameStack key, row := Config.rowOf key, since := s.ns }
    let mine := s.rows.filter fun x => x.core == ix
    if mine.any fun x => x.stack == r.stack && x.row == r.row then s
    else if 16 ≤ mine.length then (let t := s.releaseCore ix; { t with rows := t.rows ++ [r] })
    else { s with rows := s.rows ++ [r] }

/-- The memory-side release of a group, if it is on a stack core (R284). -/
def State.releaseRows (s : State) (p : Place) : State := if p.onStack then s.releaseCore p.coreIx else s

/-- A 64-bit value read into an s-register; poison marks the register (R378). -/
def State.loadInto (s : State) (d : Fin 64) (key n : Nat) (f : Nat → Word) : State :=
  if s.poisonedAt key n then
    let t := s.notePoison key n (s.launchOf s.cur).ctx
    if d = 0 then t
    else t.setCur { t.cur with poisonS := (d.val, levelCode key) :: t.cur.poisonS.filter fun q => q.1 != d.val }
  else s.ws d (f (s.read key n))

/-- SLD, SLDW, SST and SSTW up to the access (R100): none where a zero-fill access is dropped. -/
def State.recAccess (s : State) (n : Fin 16) (a : Fin 64) (imm : BitVec 9) (w : Nat) (store : Bool) :
    Except Halt (State × Option Nat) :=
  let b := s.cur.b[n]; let o := (s.memOffset a imm).toNat; let va := (recBase b + o) % 2 ^ 57; let vaw := BitVec.ofNat 64 va
  if recBad b then failAddr causeBounds 7 0 0 (some n.val)
  else if (recBase b + o) % w ≠ 0 then failAddr causeAlign 10 vaw 0 (some n.val)
  else if recExtent b * 2 ^ recEsize b < o + w then
    (if recOob b then .ok (s, none) else failAddr causeBounds 10 vaw 0 (some n.val))
  else if store && !recWr b then failAddr causeProt 7 vaw 1 (some n.val)
  else match s.line (if store then .write else .read) va 10 (some n.val) with
    | .error h => .error h
    | .ok (t, l) => (t.heldCheck (l.key va)).map fun u => (u, some (l.key va))

def recLoad (w : Nat) (f : Nat → Word) (d : Fin 64) (n : Fin 16) (a : Fin 64) (imm : BitVec 9) (s : State) : Out :=
  scalar [(10, a)] (brec := some n.val) (s := s) fun s => match s.recAccess n a imm w false with
    | .error h => .error h
    | .ok (t, none) => .ok (t.ws d 0)
    | .ok (t, some k) => .ok (t.loadInto d k w f)

def recStore (w : Nat) (d : Fin 64) (n : Fin 16) (a : Fin 64) (imm : BitVec 9) (s : State) : Out :=
  scalar [(10, a), (9, d)] (brec := some n.val) (s := s) fun s => match s.recAccess n a imm w true with
    | .error h => .error h
    | .ok (t, none) => .ok t
    | .ok (t, some k) => .ok ((t.holdRow s.cur.place k).write k w (s.rs d).toNat)

/-- SLD (R100). -/
def execSld (d : Fin 64) (n : Fin 16) (a : Fin 64) (imm : BitVec 9) (s : State) : Out :=
  recLoad 8 (fun v => BitVec.ofNat 64 v) d n a imm s

/-- SLDW (R100). -/
def execSldw (d : Fin 64) (n : Fin 16) (a : Fin 64) (imm : BitVec 9) (s : State) : Out :=
  recLoad 4 (fun v => (BitVec.ofNat 32 v).signExtend 64) d n a imm s

/-- SST (R100). -/
def execSst (d : Fin 64) (n : Fin 16) (a : Fin 64) (imm : BitVec 9) (s : State) : Out := recStore 8 d n a imm s

/-- SSTW (R100). -/
def execSstw (d : Fin 64) (n : Fin 16) (a : Fin 64) (imm : BitVec 9) (s : State) : Out := recStore 4 d n a imm s

/-- Levels 1 and 2 are lacking on a stack core (R348). -/
def padLacks (lvl : Fin 3) (s : State) : Bool := s.cur.place.onStack && lvl != 0

/-- SLDS and SSTS up to the access (R101). -/
def State.padAccess (s : State) (lvl : Fin 3) (a : Fin 64) (imm : BitVec 9) : Except Halt Nat :=
  let o := (s.memOffset a imm).toNat; let tag := BitVec.ofNat 64 ((lvl.val + 1) * 2 ^ 60 + o % 2 ^ 32)
  if o % 8 ≠ 0 then failAddr causeAlign 10 tag
  else if s.windowSize s.cur lvl < o + 8 then failAddr causeDeckle 10 tag (BitVec.ofNat 64 lvl.val)
  else .ok (s.windowKey s.cur lvl o)

/-- SLDS (R101). -/
def execSlds (d : Fin 64) (lvl : Fin 3) (a : Fin 64) (imm : BitVec 9) (s : State) : Out :=
  lacking (padLacks lvl) (scalar [(10, a)] fun s => (s.padAccess lvl a imm).map fun k => s.loadInto d k 8 (fun v => BitVec.ofNat 64 v)) s

/-- SSTS (R101). -/
def execSsts (d : Fin 64) (lvl : Fin 3) (a : Fin 64) (imm : BitVec 9) (s : State) : Out :=
  lacking (padLacks lvl) (scalar [(10, a), (9, d)] fun s => (s.padAccess lvl a imm).map fun k => s.write k 8 (s.rs d).toNat) s

/-- BLD (R103). -/
def execBld (n : Fin 16) (a : Fin 64) (imm : BitVec 9) (s : State) : Out :=
  scalar [(10, a)] (fun s =>
    let x := s.memOffset a imm
    if bits x.toNat 63 57 ≠ 0 then failAddr causeProt 10 x
    else if x.toNat % 32 ≠ 0 then failAddr causeAlign 10 x
    else match s.line .read x.toNat 10 with
      | .error h => .error h
      | .ok (t, l) =>
        let k := l.key x.toNat
        match t.heldCheck k with
        | .error h => .error h
        | .ok t =>
          if t.poisonedAt k 32 then .error (.poison k 32 { poisonFault 10 (levelCode k) with addr := x })
          else .ok (t.setCur (t.cur.setB n (BitVec.ofNat 256 (t.read k 32))))) s

/-- BADJ (R103): only the base field changes, modulo 2^57. -/
def execBadj (n : Fin 16) (a : Fin 64) (imm : BitVec 9) (s : State) : Out :=
  scalar [(10, a)] (fun s =>
    let b := s.cur.b[n].toNat; let x := (recBase s.cur.b[n] + (s.memOffset a imm).toNat) % 2 ^ 57
    .ok (s.setCur (s.cur.setB n (BitVec.ofNat 256 (b - bits b 56 0 + x))))) s (some n.val)

end Sys2Proof.Machine
end

