-- ==== Sys2Proof/Machine/Stats.lean ====
section
/-! DEFINITION. Watermark statistics: contributions, merging, and a core's slots (R15, R209-R211). -/

namespace Sys2Proof.Machine

/-- A count of n bits that saturates (R209). -/
def satAdd (n a b : Nat) : Nat := min (a + b) (2 ^ n - 1)

/-- The bin of an exponent above the base (R210). -/
def binOf (e : Int) : Fin 16 := if e < 0 then 0 else if 13 < e then 15 else Fin.ofNat 16 (e.toNat + 1)

/-- One contribution of an FP32 value (R210). -/
def Stats.add (st : Stats) (base : Int) (x : Nat) : Stats :=
  let st := { st with total := satAdd 64 st.total 1 }
  match decodeF f32 false x with
  | .nan _ => { st with nan := satAdd 32 st.nan 1 }
  | .inf neg => if neg then { st with ninf := satAdd 32 st.ninf 1 } else { st with pinf := satAdd 32 st.pinf 1 }
  | .fin _ _ _ =>
    let m := x % 2 ^ 31
    if m = 0 then st
    else
      let b := binOf ((exponentOf false x).toInt - base)
      { st with
        maxabs := max st.maxabs m
        minnz := if st.minnz = 0 then m else min st.minnz m
        bins := st.bins.set b (satAdd 32 st.bins[b] 1) }

/-- Two sets of statistics merged field by field (R210). -/
def Stats.merge (p q : Stats) : Stats :=
  { maxabs := max p.maxabs q.maxabs
    minnz := if p.minnz = 0 then q.minnz else if q.minnz = 0 then p.minnz else min p.minnz q.minnz
    nan := satAdd 32 p.nan q.nan
    pinf := satAdd 32 p.pinf q.pinf
    ninf := satAdd 32 p.ninf q.ninf
    sat := satAdd 32 p.sat q.sat
    total := satAdd 64 p.total q.total
    bins := Vector.ofFn fun i => satAdd 32 p.bins[i] q.bins[i] }

/-- The record id that a core's slot is bound to for a context; 0 for none (R15, R211). -/
def State.boundId (s : State) (core ctx : Nat) (slot : Fin 8) : Nat :=
  let c := s.core core; if c.slotCtx == some ctx then c.slots[slot].id else 0

/-- Key of a byte of a watermark record (R29, R209): the table is reached through the context's translation (R323). -/
def State.recordKey (s : State) (ctx id off : Nat) : Option Nat :=
  let va := bits (s.ctx ctx).wmtab.toNat 56 16 * 2 ^ 16 + 256 * id + off
  match s.translate 0 ctx va with
  | .leaf t => some (t.key va)
  | _ => none

/-- n bytes of a record's field; zero where the table is not mapped. -/
def State.recordRead (s : State) (ctx id off n : Nat) : Nat :=
  match s.recordKey ctx id off with | some k => s.read k n | none => 0

/-- BASEXP of a record (R209). -/
def State.baseExp (s : State) (ctx id : Nat) : Int := signed 8 (s.recordRead ctx id 4 1)

/-- Statistics added to the slot that is bound to a record (R211). -/
def State.toSlot (s : State) (core : Nat) (slot : Fin 8) (st : Stats) : State :=
  let c := s.core core; let w := c.slots[slot]
  s.setCore { c with slots := c.slots.set slot { w with stats := w.stats.merge st } }

/-- COUNT of a context's records, and a record that is allocated (R209, R211). -/
def State.recordOk (s : State) (ctx id : Nat) : Bool :=
  1 ≤ id && id ≤ (s.ctx ctx).wmtab.toNat % 2 ^ 16 && bit (s.recordRead ctx id 2 2) 0

end Sys2Proof.Machine
end

