-- ==== Sys2Proof/Machine/LaneMem.lean ====
section
/-! DEFINITION. The lane memory class, opcodes 0xC0 to 0xC7: acceptance, commit and completion (R157-R177). -/

namespace Sys2Proof.Machine

/-! ## Widths, operands and order -/

/-- Bytes of a memory type (R33). -/
def tyBytes (ty : Nat) : Nat :=
  if ty = 0x30 then 1 else if ty = 0x31 then 2 else if ty = 0x32 then 8 else if ty = 0x33 then 16 else 4

/-- Bytes of a remote operation's target (R224, R225). -/
def remoteBytes (op ty : Nat) : Nat :=
  if op = 0xE7 then 16 else if op = 0xE4 || op = 0xE5 then 8 else if op = 0xE6 then tyBytes ty else 4

/-- Bytes of a beater command's target (R174). -/
def beaterBytes (cmd : Nat) : Nat := if cmd = 11 then 64 else if cmd = 6 || 13 ≤ cmd then 16 else 4

/-- Bytes of one thread's access. -/
def accBytes (op : Nat) (w : LaneFields) : Nat :=
  if op = 0xC7 then 16 else if op = 0xC6 then beaterBytes (w.x.val / 16) else tyBytes w.ty.val

/-- A data operand of up to 16 bytes: a register group, a whole s-register for 8 bytes, or its low half (R33, R120). -/
def dataOf (g : Group) (c : Fin 128) (n : Nat) (t : Fin 32) : Nat :=
  if c.val < 64 then
    (List.range (if n ≤ 4 then 1 else n / 4)).foldr (fun k a => (g.rv (Fin.ofNat 128 (c.val + k)) t).toNat + 2 ^ 32 * a) 0
  else if n = 8 then (g.rs (Fin.ofNat 64 (c.val - 64))).toNat else (g.rv c t).toNat

/-- The signed offset: imm32, or none where imm32 is the data (R78, R164). -/
def laneOffset (w : LaneFields) : Word := if w.i then 0 else w.imm.signExtend 64

/-- The index or byte offset of a thread: zext(a) + sext(imm32) (R159, R168). -/
def laneIndex (g : Group) (w : LaneFields) (t : Fin 32) : Word := (g.rv w.a t).setWidth 64 + laneOffset w

/-- Operand b as data of an access (R78). -/
def laneData (g : Group) (op : Nat) (w : LaneFields) (t : Fin 32) : Nat :=
  if w.i then w.imm.toNat else dataOf g w.b (if op = 0xC6 then 4 else tyBytes w.ty.val) t

/-- The instruction is an acquire of the lane stream (R275). -/
def laneAcquire (op : Nat) (w : LaneFields) : Bool :=
  laneOrder op w != 0 && (op == 0xC0 || op == 0xC2 || op == 0xC7 || op == 0xC4 || op == 0xC5)

/-- The instruction is a release of the lane stream (R275). -/
def laneRelease (op : Nat) (w : LaneFields) : Bool :=
  laneOrder op w == 1 && (op == 0xC1 || op == 0xC3 || op == 0xC4 || op == 0xC5 || op == 0xC6)

/-- Opcode and fields of pending lane memory work. -/
def WorkKind.laneOp : WorkKind → Option (Nat × LaneFields × List LaneAcc)
  | .laneMem op w acc _ _ => some (op, w, acc)
  | .burst op w acc got _ _ => some (op, w, acc ++ got.map (·.1))
  | .hostAtomic w acc reqs _ _ => some (0xC4, w, acc ++ reqs.flatten)
  | _ => none

/-- Bytes that an access may touch: runs of key and length. -/
def accRuns (op : Nat) (w : LaneFields) (a : LaneAcc) : List (Nat × Nat) :=
  (a.key, accBytes op w) :: (if op == 0xC6 && w.x.val / 16 == 11 then [(a.b, 16)] else [])

/-- Two lists of runs share a byte. -/
def runsMeet (xs ys : List (Nat × Nat)) : Bool := xs.any fun x => ys.any fun y => x.1 < y.1 + y.2 && y.1 < x.1 + x.2

/-- The group has lane memory instructions not yet performed. -/
def State.lanePending (s : State) (g : Nat) : Bool := s.work.any fun w => w.group == g && (w.kind.laneOp).isSome

/-- A pending lane access of one thread of the group touches a run of bytes (R273). -/
def State.threadMeets (s : State) (g thread : Nat) (run : Nat × Nat) : Bool :=
  s.work.any fun w => w.group == g && match w.kind.laneOp with
    | some (op, f, acc) => acc.any fun a => a.thread == thread && runsMeet [run] (accRuns op f a)
    | none => false

/-- An acquire of the group is pending: the lane issues no lane memory instruction (R275). -/
def State.acquiring (s : State) (g : Nat) : Bool :=
  s.work.any fun w => w.group == g && match w.kind.laneOp with | some (op, f, _) => laneAcquire op f | none => false

/-! ## Commit (R161, R162) -/

/-- A fault of the lane memory class: the threads in TMASK, and the address of the lowest of them (R256). -/
def memFault (cause slot : Nat) (mask : Word32) (addr : Fin 32 → Nat) (detail : Nat) (brec : Option Nat) : FaultInfo :=
  { cause := cause, slot := slot, tmask := mask, addr := BitVec.ofNat 64 (addr (lowest mask)), detail := BitVec.ofNat 64 detail,
    brec := brec }

/-- The committed accesses become pending work on the selected flag; a full flag count holds the lane (R14, R162). -/
def State.commitLane (s : State) (f : Option (Fin 12)) (k : WorkKind) : Res :=
  match f with
  | none => .ok (s.addWork none k)
  | some i =>
    if 1023 ≤ s.cur.f[i] then .error (.hold s)
    else .ok ((s.setCur { s.cur with f := s.cur.f.set i (s.cur.f[i] + 1) }).addWork (some i) k)

/-- One thread's access after its line has been classified. -/
structure LineAcc where
  thread : Fin 32
  va : Nat
  line : Line
  deriving DecidableEq, Repr

/-- The watermark contributions of a committed store (R167): each whole element of 2 or 4 bytes. -/
def storeElems (esize n data : Nat) : List Nat :=
  if esize = 1 then (List.range (n / 2)).map fun k => data / 2 ^ (16 * k) % 2 ^ 16 * 2 ^ 16
  else if esize = 2 then (List.range (n / 4)).map fun k => data / 2 ^ (32 * k) % 2 ^ 32
  else []

/-- Contributions of the committed threads to the bound slot (R167, R211). -/
def State.contribute (s : State) (b : BitVec 256) (values : List Nat) : State :=
  let base := s.baseExp (s.launchOf s.cur).ctx (recWmid b)
  let st := values.foldl (fun (st : Stats) x => st.add base x) {}
  if st.total = 0 then s else s.toSlot s.cur.place.coreIx (recWmslot b) st

/-- A system-atomic page's operations: ADD, EXCH and CAS, ADD not on .b64 (R172). -/
def hostOpOk (w : LaneFields) : Bool :=
  let cmd := w.x.val / 16; (cmd == 0 && w.ty.val != 0x32) || cmd == 6 || cmd == 7

/-- The requests that accesses to system-atomic pages make, in order (R172): one for all the threads that ADD to a word, one a thread for
EXCH and CAS. -/
def hostReqs (w : LaneFields) (acc : List LaneAcc) : List (List LaneAcc) :=
  if w.x.val / 16 == 0 then (acc.map (·.key)).dedup.map fun k => acc.filter fun a => a.key == k else acc.map fun a => [a]

/-- The address that a host access carries, translated where the front end holds its translation (R361). -/
def State.hostAddr (s : State) (pasid a : Nat) : Nat × Bool :=
  match s.ats.find? fun q => q.1 == pasid && q.2.1 ≤ a && a < q.2.1 + 2 ^ q.2.2.1 with
  | some q => (q.2.2.2 + (a - q.2.1), true)
  | none => (a, false)

/-- Requests at the host that it has not answered (R355). -/
def State.nonPosted (s : State) : Nat :=
  s.work.foldl (fun n w => match w.kind with | .hostAtomic _ _ reqs _ _ => n + reqs.length | _ => n) 0

/-- An AtomicOp request to the host (R172, R358, R361): FetchAdd carries the sum. -/
def State.hostRequest (s : State) (id pasid : Nat) (w : LaneFields) (r : List LaneAcc) : HostMsg :=
  let n := tyBytes w.ty.val; let cmd := w.x.val / 16; let a := r.headD { thread := 0, key := 0 }
  let dest := s.hostAddr pasid (a.key % 2 ^ 64)
  .atomicOp id pasid dest.1 dest.2 cmd n (if cmd == 0 then r.foldl (fun x q => x + q.b) 0 % 2 ^ (8 * n) else a.b) a.c

/-- Requests to the host wait: for the group's earlier lane accesses that they must follow (R273, R275), or for room among the requests that
may be outstanding (R355). -/
def State.hostWaits (s : State) (w : LaneFields) (reqs : List (List LaneAcc)) : Bool :=
  !reqs.isEmpty && ((laneRelease 0xC4 w && s.lanePending s.cur.key) || 4096 < s.nonPosted + reqs.length ||
    reqs.any fun r => r.any fun a => s.threadMeets s.cur.key a.thread (a.key, tyBytes w.ty.val))

/-- Step 6 and what follows (R161): the good threads commit; the group stops where a thread is unfinished. -/
def State.commitRecord (s : State) (op : Nat) (w : LaneFields) (act zero : Word32) (b : BitVec 256) (n : Nat)
    (lines : List LineAcc) : Res :=
  let g := s.cur; let brec := some (w.x.val % 16)
  let isSa (l : LineAcc) : Bool := match l.line with | .good t => t.sa && op == 0xC4 | _ => false
  let saBad (l : LineAcc) : Bool := isSa l && !hostOpOk w
  let good (l : LineAcc) : Bool := match l.line with | .good _ => !saBad l | _ => false
  match lines.findSome? fun l => match l.line with | .zero e => some e | _ => none with
  | some e => .error (.zeroing e)
  | none =>
    let ok := lines.filter good
    let accOf (ls : List LineAcc) : List LaneAcc := ls.filterMap fun l => match l.line with
      | .good t => some { thread := l.thread.val, key := t.key l.va, b := laneData g op w l.thread,
                          c := dataOf g w.c (tyBytes w.ty.val) l.thread }
      | _ => none
    let acc := accOf ok; let reqs := hostReqs w (accOf (ok.filter isSa)); let ctx := (s.launchOf g).ctx
    let s := lines.foldl (fun (s : State) l => match l.line with
      | .good t => s.cache t
      | .prot => s.noteWalk g.place.die ctx l.va
      | _ => s) s
    let done : Res :=
      if acc.isEmpty && zero = 0 then .ok s
      else if s.hostWaits w reqs then .error (.hold s)
      else
        let k : WorkKind := if reqs.isEmpty then .laneMem op w acc zero act
          else .hostAtomic w (accOf (ok.filter fun l => !isSa l)) reqs zero act
        match s.commitLane (g.flagSel w) k with
        | .error h => .error h
        | .ok t =>
          let t := { t with hostOut := t.hostOut ++ reqs.map (s.hostRequest s.nextId (s.pasidOf ctx) w) }
          .ok (if op = 0xC1 && recWmen b then t.contribute b (acc.flatMap fun a => storeElems (recEsize b) n a.b) else t)
    let bad := lines.filter fun l => !good l
    if bad.isEmpty then done
    else match done with
    | .error h => .error h
    | .ok t =>
      let mask := if w.u then act else maskOf fun u => bad.any fun l => l.thread == u
      let asks := (bad.filter fun l => l.line == .page).map fun l => (granuleOf l.va, op != 0xC0 && op != 0xC7)
      let addr (u : Fin 32) := ((lines.find? fun l => l.thread == u).map (·.va)).getD 0
      let det : Nat := if op = 0xC0 || op = 0xC7 then 0 else if op = 0xC1 then 1 else 2
      let has (p : LineAcc → Bool) := bad.any p
      let stop (cause slot : Nat) : Res :=
        let f := { memFault cause slot mask addr det brec with part := !(acc.isEmpty && zero = 0) }
        let u := if asks.isEmpty then t else (t.askPages asks).1
        .error (.hold (u.laneHalt (.fault f)))
      if has fun l => l.line == .prot || saBad l then
        stop causeProt (if (bad.find? fun l => l.line == .prot || saBad l).any saBad then 7 else 10)
      else if has fun l => l.line == .sealed then stop causeSealed 10
      else if has fun l => l.line == .remote then stop causeRemoteLocal 10
      else .error (.hold (t.park asks { memFault causePage 10 mask addr det brec with lane := true, part := !(acc.isEmpty && zero = 0) } t.cur.clpos))

/-- Acceptance of LD, ST, ATOM and ACCRD (R160): record, alignment, bounds, the record's permission and binding, lines. -/
def acceptRecord (op : Nat) (w : LaneFields) (s : State) (act : Word32) : Res :=
  let g := s.cur; let rn := w.x.val % 16; let b := g.b[rn]; let n := accBytes op w; let brec := some rn
  let ts := if w.u then [lowest act] else threads act
  let idx (t : Fin 32) := laneIndex g w t
  let va (t : Fin 32) := recVa b (idx t)
  let failing (p : Fin 32 → Bool) : Word32 :=
    let m := maskOf fun t => ts.contains t && p t
    if m != 0 && w.u then act else m
  let fault (cause slot : Nat) (m : Word32) (d : Nat) : Res := .error (.fault (memFault cause slot m va d brec))
  let kind : Acc := if op = 0xC1 then .write else if op = 0xC4 then .atomic else .read
  if s.acquiring g.key then .error (.hold s)
  else if recBad b then .error (.fault { cause := causeBounds, slot := 7, tmask := act, brec := brec })
  else
    let mis := failing fun t => va t % n != 0
    if mis != 0 then fault causeAlign 10 mis 0
    else
      let out := failing fun t => recOutside b (idx t) n
      if out != 0 && !recOob b then fault causeBounds 10 out 0
      else
        let zero := out; let live := ts.filter fun t => !recOutside b (idx t) n
        let liveMask := if live.isEmpty then 0 else failing fun t => live.contains t
        let wmBad := op == 0xC1 && recWmen b &&
          (recWmid b == 0 || s.boundId g.place.coreIx (s.launchOf g).ctx (recWmslot b) != recWmid b)
        if liveMask != 0 && (((op == 0xC1 || op == 0xC4) && !recWr b) || wmBad) then
          fault causeProt 7 liveMask (if op = 0xC4 then 2 else 1)
        else
          let ctx := (s.launchOf g).ctx
          s.commitRecord op w act zero b n
            (live.map fun t => { thread := t, va := va t, line := s.lineAt g.place ctx kind (va t) })

/-- Acceptance at the scratchpad levels (R160, R168, R173): alignment, then the window. -/
def acceptPad (op : Nat) (w : LaneFields) (s : State) (act : Word32) : Res :=
  let g := s.cur; let n := accBytes op w; let lvl : Fin 3 := Fin.ofNat 3 (w.x.val % 4); let size := s.windowSize g lvl
  let ts := if w.u then [lowest act] else threads act
  let off (t : Fin 32) := (laneIndex g w t).toNat
  let sumrow := op == 0xC6 && w.x.val / 16 == 11
  let slotOff (t : Fin 32) := (srcB g w t).toNat
  let failing (p : Fin 32 → Bool) : Word32 :=
    let m := maskOf fun t => ts.contains t && p t
    if m != 0 && w.u then act else m
  let tag (o : Fin 32 → Nat) (t : Fin 32) : Nat := (lvl.val + 1) * 2 ^ 60 + o t % 2 ^ 32
  let check (cause : Nat) (bad badSlot : Fin 32 → Bool) (d : Nat) : Option FaultInfo :=
    let m1 := failing bad; let m := m1 ||| failing fun t => sumrow && badSlot t
    if m = 0 then none
    else if m1 != 0 then some (memFault cause 10 m (tag off) d none)
    else some (memFault cause 11 m (tag slotOff) d none)
  if s.acquiring g.key then .error (.hold s)
  else match check causeAlign (fun t => off t % n != 0) (fun t => slotOff t % 16 != 0) 0 with
  | some f => .error (.fault f)
  | none =>
    match check causeDeckle (fun t => size < off t + n) (fun t => size < slotOff t + 16) lvl.val with
    | some f => .error (.fault f)
    | none =>
      let acc := ts.map fun t => ({
        thread := t.val
        key := s.windowKey g lvl (off t)
        b := if sumrow then s.windowKey g lvl (slotOff t) else laneData g op w t
        c := dataOf g w.c (if op = 0xC6 then 4 else tyBytes w.ty.val) t } : LaneAcc)
      s.commitLane (g.flagSel w) (.laneMem op w acc 0 act)

/-- LD (R164). -/
def execLd (w : LaneFields) (s : State) : Out := lane 0xC0 w (acceptRecord 0xC0 w) s

/-- ST (R164). -/
def execSt (w : LaneFields) (s : State) : Out := lane 0xC1 w (acceptRecord 0xC1 w) s

/-- LDS (R168). -/
def execLds (w : LaneFields) (s : State) : Out := lane 0xC2 w (acceptPad 0xC2 w) s

/-- STS (R168). -/
def execSts (w : LaneFields) (s : State) : Out := lane 0xC3 w (acceptPad 0xC3 w) s

/-- ATOM (R170). -/
def execAtom (w : LaneFields) (s : State) : Out := lane 0xC4 w (acceptRecord 0xC4 w) s

/-- ATOMS (R170). -/
def execAtoms (w : LaneFields) (s : State) : Out := lane 0xC5 w (acceptPad 0xC5 w) s

/-- BKCMD (R173). -/
def execBkcmd (w : LaneFields) (s : State) : Out := lane 0xC6 w (acceptPad 0xC6 w) s

/-- ACCRD (R177). -/
def execAccrd (w : LaneFields) (s : State) : Out := lane 0xC7 w (acceptRecord 0xC7 w) s

/-! ## What an access does -/

/-- The new word of an atomic of n bytes (R170). -/
def atomNew (cmd ty n m b c : Nat) : Nat :=
  let v (x : Nat) : Int := if ty = 1 then signed 32 x else x
  match cmd with
  | 0 => (m + b) % 2 ^ (8 * n)
  | 1 => if v m ≤ v b then m else b
  | 2 => if v m ≤ v b then b else m
  | 3 => m &&& b
  | 4 => m ||| b
  | 5 => m ^^^ b
  | 6 => b
  | 7 => if m = c then b else m
  | _ => if b ≤ m then 0 else m + 1

/-- The new word or slot of a beater command other than SUMROW (R174). -/
def beaterNew (cmd ty m b c : Nat) : Nat :=
  let v (x : Nat) : Int := if ty = 1 then signed 32 x else x
  let f (x : Nat) := decodeF f32 false x
  let r (x : Exact) := (roundF f32 0 false x).1
  match cmd with
  | 0 => (m + b) % 2 ^ 32
  | 1 => if v m ≤ v b then m else b
  | 2 => if v m ≤ v b then b else m
  | 3 => m ||| b
  | 4 => m &&& b
  | 5 => m ^^^ b
  | 6 => slotAdd m b (BitVec.ofNat 8 c)
  | 7 => (selectF f32 false true m b).1
  | 8 => (selectF f32 false false m b).1
  | 9 => r (mulX (f m) (f b))
  | 10 => (transF 0x4D false false (r (addX 0 (f m) (f b).neg))).1
  | 12 => r (addX 0 (f m) (f b))
  | 13 => slotAdd (c % 256 * 2 ^ 112) b (BitVec.ofNat 8 c)
  | _ => c % 256 * 2 ^ 112

/-- SUMROW (R175): the sixteen values of the row applied to the slot with one anchor. -/
def State.sumRow (s : State) (row slot c : Nat) : State :=
  s.write slot 16 ((List.range 16).foldl (fun l i => slotAdd l (s.read (row + 4 * i) 4) (BitVec.ofNat 8 c)) (s.read slot 16))

/-- Level and array of a scratchpad key with beaters. -/
def beaterArray (k : Nat) : Nat × Nat :=
  if k < 2 ^ 42 then (1, (k - 2 ^ 41) / 2 ^ 23) else (2, (k - 2 ^ 42) / 2 ^ 26)

/-- The beater that executes the commands of a bank: its own, or that of the other bank of its pair (R381). -/
def State.beaterFor (s : State) (lvl arr bank : Nat) : Nat :=
  if s.fenced.contains (.beater lvl arr bank) then (if bank % 2 = 0 then bank + 1 else bank - 1) else bank

/-- One beater command at its bank (R174-R176, R376, R378): poison or a beater that disagrees twice drops it. -/
def State.beat (s : State) (w : LaneFields) (g : Group) (a : LaneAcc) : State :=
  let cmd := w.x.val / 16; let n := beaterBytes cmd; let (lvl, arr) := beaterArray a.key; let bank := (padBank a.key).1
  let beater := s.beaterFor lvl arr bank; let ctx := (s.launchOf g).ctx
  if s.badBeaters.contains (lvl, arr, beater) then
    ({ s with
      beaterChecks := s.beaterChecks ++ [(g.key, bank, lvl)]
      errors := s.errors ++ [(.beater lvl arr beater, 2, s.ns)] } : State).count (arrayDie lvl arr) fun h =>
        { h with laneBeater := h.laneBeater + 1 }
  else if s.poisonedAt a.key n || (cmd == 11 && s.poisonedAt a.b 16) then
    (let t := s.notePoison a.key n ctx; if cmd = 11 then t.notePoison a.b 16 ctx else t)
  else if cmd = 11 then s.sumRow a.key a.b a.c
  else s.write a.key n (beaterNew cmd w.ty.val (s.read a.key n) a.b a.c)

/-- One committed access performed: the machine after it, and the value or the poison that its thread receives. -/
def State.perform (s : State) (op : Nat) (w : LaneFields) (g : Group) (a : LaneAcc) : State × Except Nat Nat :=
  let n := accBytes op w
  if op = 0xC6 then (s.beat w g a, .ok 0)
  else if op = 0xC1 || op = 0xC3 then ((s.holdRow g.place a.key).write a.key n a.b, .ok 0)
  else if s.poisonedAt a.key n then (s.notePoison a.key n (s.launchOf g).ctx, .error (levelCode a.key))
  else
    let m := s.read a.key n
    if op = 0xC0 || op = 0xC2 then (s, .ok m)
    else if op = 0xC7 then (s, .ok (slotRead m + 2 ^ 32 * bits m 127 120))
    else ((s.holdRow g.place a.key).write a.key n (atomNew (w.x.val / 16) w.ty.val n m a.b a.c), .ok m)

/-! ## Completion (R162) -/

/-- A value delivered to the destination registers for a mask of threads (R33, R120, R164, R177). -/
def Group.deliver (g : Group) (op : Nat) (w : LaneFields) (m : Word32) (x : Nat) : Group :=
  if w.d.val < 64 then
    (List.range (operandWidth op w.ty.val true false false)).foldl
      (fun g k => g.wv (Fin.ofNat 64 (w.d.val + k)) m fun _ => BitVec.ofNat 32 (x / 2 ^ (32 * k))) g
  else
    let d := Fin.ofNat 64 (w.d.val - 64)
    if op = 0xC7 then (g.ws d (BitVec.ofNat 64 (x % 2 ^ 32))).ws (d + 1) (BitVec.ofNat 64 (x / 2 ^ 32))
    else if w.ty.val = 1 then g.ws d ((BitVec.ofNat 32 x).signExtend 64)
    else g.ws d (BitVec.ofNat 64 x)

/-- The destination registers marked poisoned for a mask of threads (R378). -/
def Group.deliverPoison (g : Group) (op : Nat) (w : LaneFields) (m : Word32) (origin : Nat) : Group :=
  (laneDests op w).foldl (fun g r =>
    if r < 64 then
      { g with poisonV := ((threads m).map fun t => (r, t.val, origin)) ++
                 g.poisonV.filter fun q => !(q.1 == r && m.getLsbD q.2.1) }
    else { g with poisonS := (r - 64, origin) :: g.poisonS.filter fun q => q.1 != r - 64 }) g

/-- The instruction returns a value. -/
def returnsValue (op : Nat) : Bool := op == 0xC0 || op == 0xC2 || op == 0xC4 || op == 0xC5 || op == 0xC7

/-- What an access gives its thread, a value or a mark of poison, delivered. -/
def State.deliverTo (op : Nat) (w : LaneFields) (grp : Nat) (act : Word32) (s : State) (a : LaneAcc) (r : Except Nat Nat) : State :=
  if !returnsValue op then s
  else
    let m : Word32 := if w.u then act else maskOf fun u => u.val == a.thread
    s.updGroup grp fun g => match r with
      | .ok x => g.deliver op w m x
      | .error o => g.deliverPoison op w m o

/-- One access performed and its value delivered. -/
def State.performTo (op : Nat) (w : LaneFields) (grp : Nat) (act : Word32) (s : State) (a : LaneAcc) : State :=
  match s.group grp with
  | none => s
  | some g => let q := s.perform op w g a; q.1.deliverTo op w grp act a q.2

/-- An earlier remote operation of the group to some of its own bytes is not yet answered (R273; log 54). -/
def State.remoteBehind (s : State) (x : Work) (runs : List (Nat × Nat)) : Bool :=
  s.remotes.any fun r => r.group == x.group && r.work < x.id && r.pkt.kind == 1 && r.pkt.virt &&
    match s.translate r.pkt.ddie r.ctx (r.pkt.addr.toNat % 2 ^ 57) with
    | .leaf t => runsMeet [(t.key (r.pkt.addr.toNat % 2 ^ 57), remoteBytes r.pkt.op r.pkt.ty)] runs
    | _ => false

/-- The work must wait for an earlier lane instruction of its group: the same bytes, or a release (R273, R275). -/
def State.laneBehind (s : State) (x : Work) (op : Nat) (w : LaneFields) (acc : List LaneAcc) : Bool :=
  s.remoteBehind x (acc.flatMap (accRuns op w)) ||
  s.work.any fun y => y.id < x.id && y.group == x.group && match y.kind.laneOp with
    | some (op', w', acc') => laneRelease op w || runsMeet (acc.flatMap (accRuns op w)) (acc'.flatMap (accRuns op' w'))
    | none => false

/-- Pending lane memory work of a stack core with an access to the channel of a key (R350). -/
def State.burstWork (s : State) (core key : Nat) : Bool :=
  s.work.any fun w => match w.kind.laneOp with
    | some (_, _, acc) => (acc.any fun a => a.key < 2 ^ 40 && frameStack a.key == frameStack key && frameChannel a.key == frameChannel key) &&
        (match s.group w.group with | some g => g.place.onStack && g.place.coreIx == core | none => false)
    | none => false

/-- A burst of another stack core stands before a per-bank command to a key (R350, R351). -/
def State.behindBurst (s : State) (key : Nat) (b : Burst) : Bool := b.mine b.core key && key < 2 ^ 40 && s.burstWork b.core key

/-- The bursts that accesses wait behind, with the waiter noted (R351). -/
def State.noteBurst (s : State) (acc : List LaneAcc) : State :=
  { s with bursts := s.bursts.map fun b =>
      if b.waiter.isNone && acc.any fun a => s.behindBurst a.key b then { b with waiter := some s.ns } else b }

/-- A per-bank lane instruction waits behind a burst (R351). -/
def State.waitsBehind (s : State) (b : Burst) (x : Work) : Bool :=
  match x.kind with
  | .laneMem _ _ acc _ _ => !(((s.group x.group).getD {}).place.onStack) && acc.any fun a => s.behindBurst a.key b
  | _ => false

/-- A burst behind which nothing waits any more has no waiter (R351). -/
def State.quietBursts (s : State) : State :=
  { s with bursts := s.bursts.map fun b => if s.work.any (s.waitsBehind b) then b else { b with waiter := none } }

/-- What follows once the accesses of a lane memory instruction are performed (R162). -/
def State.laneEnd (s : State) (x : Work) (p : Place) (op : Nat) (w : LaneFields) (zero : Word32) : State :=
  let t := if laneRelease op w then s.releaseRows p else s
  let t := if zero != 0 && returnsValue op then t.updGroup x.group fun g => g.deliver op w zero 0 else t
  (t.finishWork x).quietBursts

/-- The accesses of a piece of lane memory work performed, and what follows (R162). Every thread's destination changes in this one step:
a clause that reads the register before it sees the old value in every thread, and after it the new one, which are two of the
outcomes that R73 allows (log 29, DESIGN CHOICE). -/
def State.laneComplete (s : State) (x : Work) (p : Place) (op : Nat) (w : LaneFields) (acc : List LaneAcc) (zero act : Word32) : State :=
  (acc.foldl (State.performTo op w x.group act) s).laneEnd x p op w zero

/-! ## Bursts of a stack core (R350, R351; log 61) -/

/-- A load: what its thread gets is what its command reads. -/
def loadsMemory (op : Nat) : Bool := op == 0xC0 || op == 0xC7

/-- An access of a stack core issued as an all-bank command; a load reads. -/
def State.issueCommand (x : Work) (p : Place) (op : Nat) (w : LaneFields) (q : State × List (LaneAcc × Nat × Bool)) (a : LaneAcc) :
    State × List (LaneAcc × Nat × Bool) :=
  let (s, got) := q; let t := s.allBank p a.key (some (x.id, a))
  match loadsMemory op, s.group x.group with
  | true, some g => match t.perform op w g a with
    | (u, .ok v) => (u, got ++ [(a, v, false)])
    | (u, .error o) => (u, got ++ [(a, o, true)])
  | _, _ => (t, got ++ [(a, 0, false)])

/-- The commands of some accesses issued, behind those issued before. -/
def State.issueBurst (s : State) (x : Work) (p : Place) (op : Nat) (w : LaneFields) (acc : List LaneAcc) (got : List (LaneAcc × Nat × Bool))
    (zero act : Word32) : State :=
  let (t, all) := acc.foldl (State.issueCommand x p op w) (s, got)
  { t with work := t.work.map fun y => if y.id == x.id then { y with kind := .burst op w [] all zero act } else y }

/-- Commands of a piece of work that can no longer be withdrawn. -/
def State.firm (s : State) (id : Nat) : State :=
  { s with bursts := s.bursts.map fun b => { b with since := b.since.map fun c => if c.any (·.1 == id) then none else c } }

/-- The work of a burst complete: loads deliver what they have read, and other accesses are performed. -/
def State.burstEnd (s : State) (x : Work) (p : Place) (op : Nat) (w : LaneFields) (got : List (LaneAcc × Nat × Bool)) (zero act : Word32) : State :=
  let one (t : State) (q : LaneAcc × Nat × Bool) : State :=
    if loadsMemory op then t.deliverTo op w x.group act q.1 (if q.2.2 then .error q.2.1 else .ok q.2.1)
    else t.performTo op w x.group act q.1
  ((got.foldl one s).firm x.id).laneEnd x p op w zero

/-- Accesses that are to be performed or issued now wait for a refresh of their channel (R350), or for a row that a stack core holds, with
the waiter noted (R352); none where they need not. -/
def State.accessWaits (s : State) (p : Place) (acc : List LaneAcc) : Option State :=
  if acc.any fun a => s.refreshing p a.key then some s
  else if acc.any fun a => s.rowHeld p.coreIx a.key then some (acc.foldl (fun (t : State) a => t.noteWaiter p.coreIx a.key) s)
  else none

/-- LANE_MEMORY_COMPLETE (R162): every committed access is performed, every destination written, the flag falls by one. It
waits for what is before it, for rows that a stack core holds (R352), and, as a per-bank command, behind a stack core's burst (R351). A
stack core first issues its accesses to memory as commands of a burst, which a rollback may withdraw until the work completes (R350,
R351). -/
def execLaneMemoryComplete (id : Nat) (s : State) : Out :=
  match s.findWork id with
  | none => .next s
  | some x =>
    let p := ((s.group x.group).getD {}).place
    match x.kind with
    | .laneMem op w acc zero act =>
      if s.laneBehind x op w acc then .next s
      else match s.accessWaits p acc with
        | some t => .next t
        | none =>
          if !p.onStack && acc.any fun a => s.bursts.any (s.behindBurst a.key) then .next (s.noteBurst acc)
          else if p.onStack && acc.any fun a => a.key < 2 ^ 40 then .next (s.issueBurst x p op w acc [] zero act)
          else .next (s.laneComplete x p op w acc zero act)
    | .burst op w acc got zero act =>
      match s.accessWaits p (acc ++ if loadsMemory op then [] else got.map (·.1)) with
      | some t => .next t
      | none => .next (if acc.isEmpty then s.burstEnd x p op w got zero act else s.issueBurst x p op w acc got zero act)
    | _ => .next s

/-- Work that the rollback of a burst serves: per-bank lane work that waits behind it and behind nothing else (R351). -/
def State.burstServed (s : State) (b : Burst) (x : Work) : Bool :=
  s.waitsBehind b x && match x.kind with
  | .laneMem op w acc _ _ => !s.laneBehind x op w acc && (s.accessWaits ((s.group x.group).getD {}).place acc).isNone
  | _ => false

/-- The commands of a burst since its last safe point withdrawn: their work issues them again (R351). -/
def State.withdraw (s : State) (b : Burst) : State :=
  let back (id : Nat) (a : LaneAcc) : Bool := b.since.any (· == some (id, a))
  { s with
    work := s.work.map fun y => match y.kind with
      | .burst op w acc got zero act =>
        { y with kind := .burst op w (acc ++ (got.map (·.1)).filter (back y.id)) (got.filter fun q => !back y.id q.1) zero act }
      | _ => y
    bursts := s.bursts.map fun c =>
      if c.core == b.core && c.stack == b.stack && c.channel == b.channel then { c with since := [], waiter := none } else c }

/-- The rollback of a burst (R351): it goes back to its last safe point, the waiting commands are served, and the withdrawn commands stay to
be issued after them. -/
def State.rollback (s : State) (b : Burst) : State :=
  (s.work.filter (s.burstServed b)).foldl (fun (t : State) x => match x.kind with
    | .laneMem op w acc zero act => t.laneComplete x ((t.group x.group).getD {}).place op w acc zero act
    | _ => t) (s.withdraw b)

/-- HOST_ATOMIC_COMPLETION (R172, R359): the host answers the next of an ATOM's requests. It has performed the operations of the threads
that the request serves; an error changes nothing, gives those threads 0 and is logged. After the last answer the accesses on
device pages complete. -/
def execHostAtomicCompletion (id : Nat) (ok : Bool) (s : State) : Out :=
  match s.findWork id with
  | none => .next s
  | some x =>
    match x.kind with
    | .hostAtomic w acc (r :: reqs) zero act =>
      if s.laneBehind x 0xC4 w r then .next s
      else
        let p := ((s.group x.group).getD {}).place
        let t := if ok then r.foldl (State.performTo 0xC4 w x.group act) s
          else
            let m : Word32 := if w.u then act else maskOf fun u => r.any fun a => a.thread == u.val
            let addr := (r.headD { thread := 0, key := 0 }).key % 2 ^ 64
            (s.updGroup x.group fun g => g.deliver 0xC4 w m 0).useFree.logEvent
              { kind := 0x22, ctx := x.ctx, data := leBytes 8 addr ++ [s.freeWord.setWidth 8] }
        if reqs.isEmpty then
          (if acc.isEmpty then .next (t.laneComplete x p 0xC4 w [] zero act)
           else .next { t with work := t.work.map fun y => if y.id == id then { y with kind := .laneMem 0xC4 w acc zero act } else y })
        else .next { t with work := t.work.map fun y => if y.id == id then { y with kind := .hostAtomic w acc reqs zero act } else y }
    | _ => .next s

end Sys2Proof.Machine
end

