-- ==== Sys2Proof/Machine/Words.lean ====
section
/-! DEFINITION. Arrival words and write-once words (R226, R229), and the moving of bytes by the engines (R179, R378). -/

namespace Sys2Proof.Machine

/-! ## Arrival words (R229) -/

def arrGen (w : Nat) : Nat := bits w 63 48
def arrUnit (w : Nat) : Nat := bits w 47 46
def arrTarget (w : Nat) : Nat := if bits w 45 23 = 0 then 2 ^ 23 else bits w 45 23
def arrCount (w : Nat) : Nat := bits w 22 0

/-- An addition of n (R229). -/
def arrAdd (w n : Nat) : Nat :=
  let total := arrCount w + n
  (arrGen w + total / arrTarget w) % 2 ^ 16 * 2 ^ 48 + (w % 2 ^ 48 - arrCount w) + total % arrTarget w

/-- An addition at a key. -/
def State.addArrival (s : State) (key n : Nat) : State := s.write key 8 (arrAdd (s.read key 8) n)

/-- The addend of an engine for bytes, lines and transitions (R180, R229, R233); none for the reserved unit. -/
def arrAddend (w bytes lines trans : Nat) : Option Nat :=
  match arrUnit w with
  | 0 => some bytes
  | 1 => some trans
  | 2 => some lines
  | _ => none

/-- An engine's addition at a key: a word of the reserved unit is left unchanged (R180, R229). -/
def State.engineArrival (s : State) (key bytes lines trans : Nat) : State :=
  match arrAddend (s.read key 8) bytes lines trans with
  | some n => s.addArrival key n
  | none => s

/-! ## Write-once words (R226) -/

/-- The marker of a conflict. -/
def onceMarker : Nat := 2 ^ 64 - 1

/-- A write-once step: the new word, whether it is a transition, whether it is a new conflict. A payload of all ones leaves the marker,
as a conflict, and on an empty word it is a transition as well (R226, R233). -/
def onceStep (w p : Nat) : Nat × Bool × Bool :=
  if !bit w 63 then (2 ^ 63 + p % 2 ^ 63, true, p % 2 ^ 63 == 2 ^ 63 - 1)
  else if w = onceMarker then (w, false, false)
  else if w % 2 ^ 63 = p % 2 ^ 63 then (w, false, false)
  else (onceMarker, false, true)

/-! ## Moving bytes -/

/-- The parts of two runs of equal length that match byte for byte. -/
def matchRuns (src dst : List (Nat × Nat × Nat)) : List Seg :=
  src.flatMap fun a => dst.filterMap fun b =>
    let lo := max a.1 b.1; let hi := min (a.1 + a.2.2) (b.1 + b.2.2)
    if lo < hi then some { src := a.2.1 + (lo - a.1), dst := b.2.1 + (lo - b.1), len := hi - lo } else none

/-- ECC units that a range touches. -/
def unitsOf (k n : Nat) : List Nat :=
  let e := eccSize k; let u := k / e * e
  (List.range ((k + n - u + e - 1) / e)).map fun i => u + e * i

/-- The ECC units of the destination that a run poisons (R378). -/
def State.poisonMoved (s : State) (g : Seg) : List Nat :=
  (s.poisoned.filter fun u => u < g.src + g.len && g.src < u + eccSize u).flatMap fun u =>
    let lo := max u g.src; let hi := min (u + eccSize u) (g.src + g.len)
    unitsOf (g.dst + (lo - g.src)) (hi - lo)

/-- An ECC unit that a run writes whole. -/
def Seg.fills (g : Seg) (u : Nat) : Bool := g.dst ≤ u && u + eccSize u ≤ g.dst + g.len

/-- The runs of one row copied: every byte of the row is read before one is written (R179); what comes from a poisoned unit is written
as poisoned (R378). -/
def State.moveSegs (ctx : Nat) (s : State) (gs : List Seg) : State :=
  let bad := gs.flatMap s.poisonMoved
  let s := gs.foldl (fun (t : State) g => t.notePoison g.src g.len ctx) s
  let whole (u : Nat) := gs.any fun g => g.fills u
  { s with
    mem := gs.foldl (fun m g => copyCells s.mem m g.src g.dst g.len) s.mem
    poisoned := (bad ++ s.poisoned.filter fun u => !whole u).dedup
    poisonSeen := s.poisonSeen.filter fun u => !whole u
    soft := s.soft.filter fun u => !whole u.1 }

/-- One run copied. -/
def State.moveSeg (ctx : Nat) (s : State) (g : Seg) : State := s.moveSegs ctx [g]

/-- Bytes written by an engine, poisoned where its source was. -/
def State.putBytes (s : State) (k : Nat) (bs : List Byte) (bad : Bool) : State :=
  let t := s.writeBytes k bs
  if bad then { t with poisoned := (unitsOf k bs.length ++ t.poisoned).dedup } else t

end Sys2Proof.Machine
end

