-- ==== Sys2Proof/Machine/Sides.lean ====
section
/-! DEFINITION. The operand sides of an engine instruction: windows and pages checked before acceptance (R161, R178, R179,
R190). -/

namespace Sys2Proof.Machine

/-- The check holds, or the instruction halts. -/
def ensure (c : Bool) (h : Halt) : Except Halt Unit := if c then .ok () else .error h

/-- A fault that names a slot. -/
def named (cause slot : Nat) : Halt := .fault { cause := cause, slot := slot }

/-- A fault that names a slot and the address that failed. -/
def namedAt (cause slot : Nat) (addr : Word) (detail : Word := 0) : Halt :=
  .fault { cause := cause, slot := slot, addr := addr, detail := detail }

/-- A run of bytes: offset in its piece, key, length. -/
abbrev Run := Nat × Nat × Nat

/-- One side of an engine instruction: the access, the operand slot, the tagged address, and the pieces it touches, as
offset and length from that address. -/
structure Side where
  acc : Acc
  slot : Nat
  tag : Tagged
  pieces : List (Nat × Nat)
  deriving DecidableEq, Repr

/-- A run of a side before its check: its line, where it has one. -/
structure Found where
  piece : Nat
  off : Nat
  len : Nat
  va : Nat
  key : Nat
  line : Option Line
  deriving DecidableEq, Repr

/-- The bytes that a side reaches. -/
def Side.reach (d : Side) : Nat := d.pieces.foldl (fun m p => max m (p.1 + p.2)) 0

/-- A side that reaches past its window (R179, R190). -/
def State.padFault (s : State) (d : Side) : Option Halt :=
  match d.tag with
  | .va _ => none
  | .pad lvl o =>
    if s.windowSize s.cur lvl < o + d.reach then
      some (.fault { cause := causeDeckle, slot := d.slot, addr := BitVec.ofNat 64 ((lvl.val + 1) * 2 ^ 60 + o),
                     detail := BitVec.ofNat 64 lvl.val })
    else none

/-- The runs of a side, each in one 64 KiB granule, with their lines. -/
def State.look (s : State) (d : Side) : List Found :=
  let ctx := (s.launchOf s.cur).ctx
  d.pieces.zipIdx.flatMap fun (p, i) =>
    match d.tag with
    | .pad lvl o => [{ piece := i, off := 0, len := p.2, va := o + p.1, key := s.windowKey s.cur lvl (o + p.1), line := none }]
    | .va a => (granuleRuns (p.2 / 2 ^ 16 + 2) 0 ((a + p.1) % 2 ^ 57) p.2).map fun r =>
        let l := s.lineAt s.cur.place ctx d.acc r.2.1
        { piece := i, off := r.1, len := r.2.2, va := r.2.1
          key := match l with | .good t => t.key r.2.1 | _ => 0
          line := some l }

/-- The missing granules of some sides, each with whether it is to be written. -/
def sidesAsks (fs : List (Side × Found)) : List (Nat × Bool) :=
  (fs.filter fun f => f.2.line == some .page).map fun f => (granuleOf f.2.va, f.1.acc != .read)

/-- Windows first, then pages (R161): what an instruction with these sides halts with. -/
def sidesHalt (fs : List (Side × Found)) : Option Halt :=
  let at_ (l : Line) (cause : Nat) : Option Halt := (fs.find? fun f => f.2.line == some l).map fun f =>
    .fault { cause := cause, slot := f.1.slot, addr := BitVec.ofNat 64 f.2.va, detail := f.1.acc.code }
  let zero : Option Halt := fs.findSome? fun f => match f.2.line with | some (.zero e) => some (.zeroing e) | _ => none
  let pages := fs.filter fun f => f.2.line == some .page
  let miss : Option Halt := if pages.isEmpty then none else
    some (.miss (sidesAsks fs)
      ((pages.head?.map fun f => pageFault f.1.slot (BitVec.ofNat 64 f.2.va) f.1.acc.code).getD {cause := causePage}))
  zero <|> at_ .prot causeProt <|> at_ .sealed causeSealed <|> at_ .remote causeRemoteLocal <|> miss

/-- The sides checked: for each side and each piece, the runs of keys that hold its bytes. -/
def State.sides (s : State) (ds : List Side) : Except Halt (State × List (List (List Run))) :=
  match ds.findSome? s.padFault with
  | some h => .error h
  | none =>
    let looked := ds.map fun d => (d, s.look d)
    let all := looked.flatMap fun q => q.2.map fun f => (q.1, f)
    match sidesHalt all with
    | some (.fault f) => .error (s.asking (sidesAsks all) (s.protHalt f))
    | some h => .error h
    | none =>
      let t := looked.foldl (fun t q => q.2.foldl (fun (t : State) f => match f.line with | some (.good l) => t.cache l | _ => t) t) s
      .ok (t, looked.map fun q => q.1.pieces.zipIdx.map fun (_, i) =>
        (q.2.filter fun f => f.piece == i).map fun f => (f.off, f.key, f.len))

/-- The rows of a tile: n rows of w bytes at a stride. -/
def tileRows (n w stride : Nat) : List (Nat × Nat) := (List.range n).map fun i => (i * stride, w)

/-- A tagged operand (R178) held to an alignment; cause is what a misaligned address raises. -/
def taggedAt (k : Acc) (x : Word) (slot align cause : Nat) : Except Halt Tagged := do
  let t ← taggedOf k x slot
  ensure (t.addr % align == 0) (namedAt cause slot x)
  .ok t

/-- Every stack-core row that a run of bytes lies in is held (R352). -/
def State.holdRun (s : State) (p : Place) (k n : Nat) : State :=
  if p.onStack then (unitsOf k n).foldl (fun t u => t.holdRow p u) s else s

/-- A refresh holds the all-bank commands of a stack core to a channel of a run of bytes (R350). -/
def State.runRefreshing (s : State) (p : Place) (k n : Nat) : Bool :=
  p.onStack && !s.refresh.isEmpty && (unitsOf k n).any fun u => s.refreshing p u

/-- A run of bytes meets a row that another stack core holds (R352). -/
def State.runHeld (s : State) (core k n : Nat) : Bool := !s.rows.isEmpty && (unitsOf k n).any fun u => s.rowHeld core u

/-- The waiter is noted on every row of a run that is held (R352). -/
def State.noteRun (s : State) (core k n : Nat) : State := (unitsOf k n).foldl (fun t u => t.noteWaiter core u) s

end Sys2Proof.Machine
end

