-- ==== Sys2Proof/Machine/Blocks.lean ====
section
/-! DEFINITION. Quantised operand blocks: header, scale vector, rows (R188, R189, R197). -/

namespace Sys2Proof.Machine

/-- A block's header (R188). -/
structure BlockHead where
  fmt : Nat
  z : Bool
  rows : Nat
  cols : Nat
  pitch : Nat
  off : Nat
  deriving DecidableEq, Repr

/-- The Q formats' codes. -/
def qFmtOk (f : Nat) : Bool := 0x20 ≤ f && f ≤ 0x23

/-- The header in 64 bytes; none where a field breaks R188 or a dense row does not fit its pitch (R189). -/
def parseHead (h : Nat) : Option BlockHead :=
  let b : BlockHead := { fmt := bits h 7 0, z := bit h 9, rows := bits h 31 16, cols := bits h 47 32, pitch := bits h 63 48, off := bits h 95 64 }
  if bits h 511 160 != 0 || bits h 127 112 != 0 || bits h 15 10 != 0 || bit h 8 || !qFmtOk b.fmt
      || b.rows == 0 || 4096 < b.rows || b.cols == 0 || 4096 < b.cols || b.pitch % 16 != 0 || b.off % 64 != 0
      || (!b.z && b.pitch * 8 < b.cols * qBits b.fmt) then none
  else some b

/-- A scale vector (R188): its orientation and its scales. -/
structure ScaleVec where
  orient : Bool
  vals : List (BitVec 16)
  deriving DecidableEq, Repr

/-- Blocks of 32 in n. -/
def blocks32 (n : Nat) : Nat := (n + 31) / 32

/-- Whether any byte of a side's runs is poisoned. -/
def State.runsPoisoned (s : State) (rs : List Run) : Bool := rs.any fun r => s.poisonedAt r.2.1 r.2.2

/-- A POISON event for each run that holds poison (R378). -/
def State.noteRuns (s : State) (ctx : Nat) (rs : List Run) : State := rs.foldl (fun t r => t.notePoison r.2.1 r.2.2 ctx) s

/-- A read at acceptance waits for the rows that a stack core holds (R285, R352). -/
def State.runsReach (s : State) (rs : List Run) : Except Halt Unit :=
  let core := s.cur.place.coreIx
  if rs.any fun r => s.runHeld core r.2.1 r.2.2 then
    .error (.hold ((rs.foldl (fun (t : State) r => t.noteRun core r.2.1 r.2.2) s).waiting .sx))
  else .ok ()

/-- n bytes at an offset of a tagged operand, read at acceptance (R190); poison is reported beside them. -/
def State.readTagged (s : State) (slot : Nat) (t : Tagged) (off n : Nat) : Except Halt (State × Nat × Bool) := do
  let (u, rs) ← s.sides [{ acc := .read, slot := slot, tag := t, pieces := [(off, n)] }]
  let runs := rs.flatten.flatten
  u.runsReach runs
  .ok (u.noteRuns (u.launchOf u.cur).ctx runs, ofLeBytes (u.runBytes runs), u.runsPoisoned runs)

/-- The header at a tagged operand, which must be 64-byte aligned (R190). -/
def State.readHead (s : State) (x : Word) (slot : Nat) : Except Halt (State × Tagged × BlockHead × Bool) := do
  ensure (x.toNat % 64 == 0) (namedAt causeMxfmt slot x)
  let t ← taggedOf .read x slot
  let (u, h, p) ← s.readTagged slot t 0 64
  match parseHead h with
  | none => .error (namedAt causeMxfmt slot x)
  | some b => .ok (u, t, b, p)

/-- The scale vector at an offset of a tagged operand: a wrong count, a non-zero field or an invalid scale is MXFMT. -/
def State.readScales (s : State) (slot : Nat) (t : Tagged) (off : Nat) (need : Bool → Nat) :
    Except Halt (State × ScaleVec × Bool) := do
  let (u, w, p) ← s.readTagged slot t off 8
  let n := bits w 15 0; let orient := bit w 16
  ensure (bits w 63 17 == 0 && n == need orient) (named causeMxfmt slot)
  let (u, v, q) ← u.readTagged slot t (off + 8) (2 * n)
  let vals := (List.range n).map fun i => BitVec.ofNat 16 (v / 2 ^ (16 * i))
  ensure (vals.all fun x => !scaleBad x.toNat) (named causeMxfmt slot)
  .ok (u, { orient := orient, vals := vals }, p || q)

/-- The scales are constant along the other dimension than the edge (R197): uniform, or blocked across the edge. -/
def ScaleVec.constAlong (v : ScaleVec) (edgeCols : Bool) : Bool :=
  v.orient == edgeCols || v.vals.all fun x => some x == v.vals.head?

/-- The scale of an edge index. -/
def ScaleVec.at (v : ScaleVec) (edgeCols : Bool) (i : Nat) : BitVec 16 :=
  (if v.orient == edgeCols then v.vals[i / 32]? else v.vals.head?).getD 0

/-! ## Rows (R46, R50, R189) -/

/-- The groups of a zero-run row: an overrun reads as zero. -/
def zeroRun (n : Nat) : Nat → List Byte → List Int
  | 0, _ => []
  | k + 1, row =>
    let bm := if 4 ≤ row.length then ofLeBytes (row.take 4) else 0
    let rest := row.drop 4; let codes := ofLeBytes rest
    let below (e : Nat) := ((List.range e).filter fun i => bit bm i).length
    let one (e : Nat) : Int := if bit bm e && (below e + 1) * n ≤ 8 * rest.length then qElem n codes (below e) else 0
    (List.range 32).map one ++ zeroRun n k (rest.drop ((below 32 * n + 7) / 8))

/-- The 12-bit operands of one row of a block (R50, R189). -/
def rowOperands (fmt : Nat) (z : Bool) (cols : Nat) (row : List Byte) : List Int :=
  let n := qBits fmt
  let codes := if z then (zeroRun n (blocks32 cols) row).take cols
    else let v := ofLeBytes row; (List.range cols).map fun i => qElem n v i
  codes.map (qOperand n)

/-- n rows of a pitch, each as its operands. -/
def splitRows (pitch n : Nat) (data : List Byte) : List (List Byte) :=
  (List.range n).map fun i => (data.drop (i * pitch)).take pitch

/-- Element of a list of rows; zero outside. -/
def elemAt (rows : List (List Int)) (i j : Nat) : Int := ((rows[i]?).bind fun r => r[j]?).getD 0

end Sys2Proof.Machine
end

