-- ==== Sys2Proof/Machine/Wire.lean ====
section
/-! DEFINITION. A fabric packet as bytes: the header, the bodies by kind, and the CRC-64 (R369, R370). -/

namespace Sys2Proof.Machine

/-- Beats of 32 bytes that a kind of packet takes (R370). -/
def kindBeats (kind : Nat) : Nat := if kind = 2 then 6 else if kind = 6 then 5 else 2

/-- The bytes of a packet on the wire. -/
def packetBytes (p : Packet) : Nat := 32 * kindBeats p.kind

/-- One bit of the CRC-64 register moved out (R369; log 44). -/
def crcBit (c : BitVec 64) : BitVec 64 := if c.getLsbD 63 then (c <<< 1) ^^^ 0x42F0E1EBA9EA3693 else c <<< 1

/-- One byte taken into the register. -/
def crcByte (c : BitVec 64) (b : Byte) : BitVec 64 :=
  let x : BitVec 64 := c ^^^ (b ++ (0 : BitVec 56))
  crcBit (crcBit (crcBit (crcBit (crcBit (crcBit (crcBit (crcBit x)))))))

/-- The CRC-64 of bytes (R369): ECMA-182, most significant bit first, from a register of zero (log 44). -/
def crc64 (bs : List Byte) : BitVec 64 := bs.foldl crcByte 0

/-- The 32 bytes of the header (R369). -/
def headerBytes (p : Packet) : List Byte :=
  leBytes 1 p.kind ++ leBytes 1 p.op ++ leBytes 1 p.dpkg ++
    leBytes 1 (p.ddie + (if p.relayed then 8 else 0) + 32 * (kindBeats p.kind - 1)) ++ leBytes 1 p.spkg ++ leBytes 1 (p.sdie + 8 * p.stream) ++
    leBytes 2 p.fabid ++ leBytes 8 p.scount ++ leBytes 8 p.addr.toNat ++ leBytes 8 p.ext.toNat

/-- Bytes made up to a length with zeros, or cut to it. -/
def padTo (n : Nat) (bs : List Byte) : List Byte := (bs ++ List.replicate n 0).take n

/-- The body from byte 32 to the CRC (R370). -/
def bodyBytes (p : Packet) : List Byte :=
  padTo (packetBytes p - 40) (match p.kind with
    | 1 => leBytes 8 p.value.toNat ++ leBytes 1 p.ty ++ [p.anchor]
    | 3 => leBytes 1 p.reqStream ++ leBytes 1 p.width ++ leBytes 6 0 ++ leBytes 8 p.value.toNat
    | 2 | 6 | 7 => p.body
    | _ => [])

/-- A packet's bytes. -/
def wireBytes (p : Packet) : List Byte :=
  let bs := headerBytes p ++ bodyBytes p
  bs ++ leBytes 8 (crc64 bs).toNat

/-- The length of the part of a body that a packet's record keeps. -/
def keptBody (kind : Nat) : Nat := if kind = 2 then 128 else if kind = 6 then 112 else if kind = 7 then 3 else 0

/-- R369 and R370 on a packet's KIND, OP and zero fields. -/
def packetFormed (p : Packet) : Bool :=
  p.dpkg < 256 && p.ddie < 8 && p.spkg < 256 && p.sdie < 8 && p.stream < 8 && p.fabid < 2 ^ 16 && p.scount < 2 ^ 64 &&
  p.body.length == keptBody p.kind &&
  (p.kind == 1 || (p.ty == 0 && p.anchor == 0)) && (p.kind == 1 || p.kind == 3 || p.value == 0) &&
  (p.kind == 3 || (p.reqStream == 0 && p.width == 0)) &&
  match p.kind with
  | 1 => 0xE0 ≤ p.op && p.op ≤ 0xE7 && p.ty < 256 && (p.op == 0xE6 || p.ext == 0)
  | 2 => p.op ≤ 6
  | 3 => p.op == 0 && p.reqStream < 8 && (p.width == 4 || p.width == 8)
  | 4 => p.op == 0
  | 5 => p.op == 0 && p.ext.toNat < 2 ^ 8
  | 6 => p.op == 0 && p.ext == 0
  | 7 => p.op == 0 && p.ext.toNat < 2 ^ 32 && p.scount == 0
  | 8 => p.op == 0 && p.ext.toNat < 2 ^ 37 && p.scount == 0
  | _ => false

/-- The packet that bytes hold, whatever their zero fields and their CRC hold. -/
def readPacket (bs : List Byte) : Packet :=
  let h := ofLeBytes (bs.take 32); let b := bs.drop 32; let kind := bits h 7 0; let x := ofLeBytes (b.take 16)
  { kind := kind, op := bits h 15 8, dpkg := bits h 23 16, ddie := bits h 26 24, relayed := bit h 27, spkg := bits h 39 32
    sdie := bits h 42 40, stream := bits h 45 43, fabid := bits h 63 48, scount := bits h 127 64
    addr := BitVec.ofNat 64 (bits h 191 128), ext := BitVec.ofNat 64 (bits h 255 192)
    value := BitVec.ofNat 64 (if kind = 1 then bits x 63 0 else if kind = 3 then bits x 127 64 else 0)
    ty := if kind = 1 then bits x 71 64 else 0
    anchor := if kind = 1 then BitVec.ofNat 8 (bits x 79 72) else 0
    reqStream := if kind = 3 then bits x 7 0 else 0
    width := if kind = 3 then bits x 15 8 else 0
    body := b.take (keptBody kind) }

/-- The packet that received bytes are, or none where R369 discards them: the CRC fails, or a field that R369 and R370 fix holds
something else. -/
def parsePacket (bs : List Byte) : Option Packet :=
  let p := readPacket bs
  if packetFormed p && wireBytes p == bs then some p else none

end Sys2Proof.Machine
end

