-- ==== Sys2Proof/Machine/Optics.lean ====
section
/-! DEFINITION. The fibres of a package: slots, what is lit, what may be reached, and putting a packet on an out-fibre (R363, R364, R366,
R368, R379, R387, R389). -/

namespace Sys2Proof.Machine

/-! ## Slots and fibres (R366, R379, R387) -/

/-- Slots of 4 us since reset, and the slot's number in the cycle of 32 (log 19). -/
def State.slotCount (s : State) : Nat := s.ns / 4000
def State.slot (s : State) : Nat := s.slotCount % 32

def State.fibre (s : State) (f : Nat) : Fibre := (s.fibres.find? fun x => x.fibre == f).getD { fibre := f }
def State.setFibre (s : State) (x : Fibre) : State := { s with fibres := x :: s.fibres.filter fun y => y.fibre != x.fibre }

/-- UNIT of an optical event (R385). -/
def State.fibreUnit (s : State) (f : Nat) : BitVec 32 := BitVec.ofNat 32 (s.pkgid * 2 ^ 24 + f / 12 * 2 ^ 21 + f * 2 ^ 8)

/-- The stripe mask of the lit modules. -/
def Fibre.litMask (x : Fibre) : BitVec 24 :=
  (List.range 3).foldl (fun m i => if x.dark.contains i then m else m ||| BitVec.ofNat 24 (0xFF * 2 ^ (8 * i))) 0

/-- The out-fibre carries traffic: not fenced with its die, locked, some module lit, and no restripe outstanding after a loss (R379,
R387). -/
def State.fibreSends (s : State) (f : Nat) : Bool :=
  let x := s.fibre f
  !x.outDown && x.dark.length != 3 && !s.fenced.contains (.die (f / 12)) && x.stripe &&& x.litMask == x.stripe && x.stripe != 0

/-- The package at the other end of fibre f in slot i of a table; none where it is dark. -/
def tableEntry (t : List Nat) (f i : Nat) : Option Nat :=
  match t[32 * f + i]? with
  | some e => if bit e 15 then none else some (e % 256)
  | none => none

/-- The package that an out-fibre reaches in this slot. -/
def State.lit (s : State) (f : Nat) : Option Nat :=
  match s.cal with
  | some c => if s.fibreSends f then tableEntry c.out f s.slot else none
  | none => none

/-- The dies of the package that are not fenced. -/
def State.dieMask (s : State) : Nat := ((List.range 8).filter fun d => !s.fenced.contains (.die d)).foldl (fun m d => m + 2 ^ d) 0

def State.calid (s : State) : Nat := (s.cal.map (·.calid)).getD 0

/-! ## What may be reached (R363, R364) -/

/-- Packages of the domain; a package with no calender is alone (R366; log 19). -/
def State.domain (s : State) : Nat := (s.cal.map (·.domain)).getD 1

/-- A die of a package is reachable (R364): in the package, not fenced; of another package, by its table entry. -/
def State.reachable (s : State) (pkg die : Nat) : Bool :=
  if pkg = s.pkgid then !s.fenced.contains (.die die)
  else s.reach.any fun r => r.pkg == pkg && r.reachable && r.dies.getLsbD die

/-! ## Sending on a fibre (R368, R387, R389) -/

/-- A calender change holds every send to other packages (R389). -/
def State.holding (s : State) : Bool :=
  match s.calPhase with
  | .drain _ | .dark _ | .relock _ => true
  | .none | .accepted _ => false

/-- Beats of packets. -/
def beatsOf (l : List (Nat × Packet)) : Nat := l.foldl (fun n q => n + kindBeats q.2.kind) 0

/-- What a fibre remembers of what it has sent, newest first: the last 2,048 beats, and all beats of the 2 us within which a loss of
light is detected (R387). n counts the beats that are newer. -/
def keepSent (now : Nat) : Nat → List (Nat × Packet) → List (Nat × Packet)
  | _, [] => []
  | n, q :: r => if n < 2048 || now ≤ q.1 + 2000 then q :: keepSent now (n + kindBeats q.2.kind) r else []

/-- The packets of which the replay buffer of 2,048 beats holds every beat, newest first. -/
def heldSent : Nat → List (Nat × Packet) → List (Nat × Packet)
  | _, [] => []
  | n, q :: r => if n + kindBeats q.2.kind ≤ 2048 then q :: heldSent (n + kindBeats q.2.kind) r else []

/-- The packet of which the replay buffer holds only the last beats, with their number. -/
def heldTail : Nat → List (Nat × Packet) → Option (Nat × Packet)
  | _, [] => none
  | n, q :: r => if n + kindBeats q.2.kind ≤ 2048 then heldTail (n + kindBeats q.2.kind) r else if n < 2048 then some (2048 - n, q.2) else none

/-- A packet put on an out-fibre. -/
def State.putOn (s : State) (f : Nat) (p : Packet) : State :=
  let x := s.fibre f
  ({ s with outbox := s.outbox ++ [p] } : State).setFibre { x with sent := keepSent s.ns 0 ((s.ns, p) :: x.sent) }

/-- A packet that starts now on an out-fibre ends before the dark interval, the last 200 ns of the slot (R368): the fibre carries 22,800
beats in the 3,800 ns of light on 24 wavelengths, and fewer in proportion (R374, R387). -/
def State.inTime (s : State) (f : Nat) (p : Packet) : Bool :=
  let waves := ((List.range 24).filter fun i => (s.fibre f).stripe.getLsbD i).length
  s.ns % 4000 * waves + 4 * kindBeats p.kind ≤ 3800 * waves

/-- The out-fibre that takes a packet: the first lit one that reaches its destination, or, where it has not been relayed, the first
lit one, whose neighbour relays it; on either it must end in time (R368; the path is not architectural). -/
def State.outFibre (s : State) (p : Packet) : Option Nat :=
  ((List.range 96).find? fun f => s.lit f == some p.dpkg && s.inTime f p).or
    (if p.relayed then none else (List.range 96).find? fun f => (s.lit f).isSome && s.inTime f p)

/-- A packet for another package given to the optical engines; it waits while no out-fibre can take it. -/
def State.transmit (s : State) (p : Packet) : State :=
  match s.outFibre p with
  | some f => s.putOn f p
  | none => { s with heldOut := s.heldOut ++ [p] }

/-- The packets that waited for an out-fibre go out as soon as one takes them; an operation for a peer that can no longer be reached is
not sent (R400). -/
def State.sendHeld (s : State) : State :=
  if s.holding then s
  else (s.heldOut.filter fun p => s.reachable p.dpkg p.ddie || !(p.kind == 1 || p.kind == 2 || p.kind == 6)).foldl State.transmit
    { s with heldOut := [] }

end Sys2Proof.Machine
end

