-- ==== Sys2Proof/Machine/Records.lean ====
section
/-! DEFINITION. Watermark records in memory: halves, naming a record, merges, closes and resets (R209, R211, R212, R215, R323,
R339-R343). -/

namespace Sys2Proof.Machine

/-! ## Halves of a record (R209) -/

/-- The 112 bytes of a half. -/
def halfBytes (st : Stats) (epoch : Nat) : List Byte :=
  leBytes 4 st.maxabs ++ leBytes 4 st.minnz ++ leBytes 4 st.nan ++ leBytes 4 st.pinf ++ leBytes 4 st.ninf ++ leBytes 4 st.sat ++
    leBytes 8 st.total ++ (List.finRange 16).flatMap (fun i => leBytes 4 st.bins[i]) ++ leBytes 8 epoch ++ leBytes 8 0

/-- The statistics in the bytes of a half, as a number. -/
def halfStats (h : Nat) : Stats :=
  { maxabs := bits h 31 0, minnz := bits h 63 32, nan := bits h 95 64, pinf := bits h 127 96, ninf := bits h 159 128,
    sat := bits h 191 160, total := bits h 255 192, bins := Vector.ofFn fun i => bits h (256 + 32 * i.val + 31) (256 + 32 * i.val) }

def halfEpoch (h : Nat) : Nat := bits h 831 768

/-- The current half lies at byte 32 of a record, the closed half at byte 144. -/
def curHalf : Nat := 32
def closedHalf : Nat := 144

/-- The empty statistics. -/
def Stats.none : Stats := {}

/-! ## Naming a record (R211, R339) -/

/-- An id as an operand: BOUNDS above COUNT, for 0, or with ALLOC clear; the record's page is translated as an operand's. -/
def State.recordAt (s : State) (id slot : Nat) : Except Halt State := do
  let ctx := (s.launchOf s.cur).ctx; let tab := (s.ctx ctx).wmtab.toNat
  ensure (id != 0 && id ≤ tab % 2 ^ 16) (named causeBounds slot)
  let va := bits tab 56 16 * 2 ^ 16 + 256 * id
  match s.translate s.cur.place.die ctx va with
  | .absent => .error (.miss [(granuleOf va, false)] (pageFault slot (BitVec.ofNat 64 va) 0))
  | .malformed | .poisoned _ => .error (s.protHalt { cause := causeProt, slot := slot, addr := BitVec.ofNat 64 va })
  | .zero e => .error (.zeroing e)
  | .leaf t =>
    let s ← s.heldCheck (t.key va)
    ensure (bit (s.read (t.key va) 4) 16 && !(s.ctx ctx).freeing.contains id) (named causeBounds slot)
    .ok (s.cache t)

/-- EPOCH of a record. -/
def State.recordEpoch (s : State) (ctx id : Nat) : Nat := s.recordRead ctx id 8 8

/-- Bytes written into a record (R323). -/
def State.recordWrite (s : State) (ctx id off : Nat) (bs : List Byte) : State :=
  match s.recordKey ctx id off with | some k => s.writeBytes k bs | none => s

/-- The die that homes a record (R339). -/
def State.recordDie (s : State) (ctx id : Nat) : Nat :=
  match s.translate 0 ctx (bits (s.ctx ctx).wmtab.toNat 56 16 * 2 ^ 16 + 256 * id) with
  | .leaf t => frameDie t.pa
  | _ => 0

/-! ## Merges, closes and resets (R212, R215, R342, R343) -/

/-- The merge at the home (R212): the partials join the current half, a stale epoch counts as LATE, and the slot learns the
record's epoch. A freed record takes nothing (R341). -/
def State.mergeFlush (s : State) (ctx id : Nat) (h : Nat) (slot : Option (Nat × Fin 8)) : State :=
  if !bit (s.recordRead ctx id 2 2) 0 || (s.ctx ctx).freeing.contains id then s
  else
    let epoch := s.recordEpoch ctx id; let cur := s.recordRead ctx id curHalf 112
    let s := s.recordWrite ctx id curHalf (halfBytes ((halfStats cur).merge (halfStats h)) (halfEpoch cur))
    let s := if halfEpoch h != epoch then s.recordWrite ctx id 16 (leBytes 4 (satAdd 32 (s.recordRead ctx id 16 4) 1)) else s
    match slot with
    | none => s
    | some (core, i) =>
      if s.boundId core ctx i != id then s
      else let c := s.core core; s.setCore { c with slots := c.slots.set i { c.slots[i] with epoch := epoch } }

/-- WMCLOSE's effect (R215). -/
def State.closeRecord (s : State) (ctx id : Nat) : State :=
  let epoch := s.recordEpoch ctx id; let cur := s.recordRead ctx id curHalf 112
  let s := s.recordWrite ctx id closedHalf (halfBytes (halfStats cur) epoch)
  let s := s.recordWrite ctx id curHalf (halfBytes {} ((epoch + 1) % 2 ^ 64))
  let s := s.recordWrite ctx id 8 (leBytes 8 (epoch + 1))
  s.recordWrite ctx id 2 (leBytes 2 (s.recordRead ctx id 2 2 ||| 2))

/-- WMRESET's effect (R215). -/
def State.resetRecord (s : State) (ctx id : Nat) : State :=
  let epoch := s.recordEpoch ctx id
  let s := s.recordWrite ctx id closedHalf (halfBytes {} 0)
  let s := s.recordWrite ctx id curHalf (halfBytes {} ((epoch + 1) % 2 ^ 64))
  let s := s.recordWrite ctx id 16 (leBytes 4 0)
  let s := s.recordWrite ctx id 8 (leBytes 8 (epoch + 1))
  s.recordWrite ctx id 2 (leBytes 2 (s.recordRead ctx id 2 2 &&& (2 ^ 16 - 1 - 2)))

/-- A record cannot be changed now: its page is in motion, or a stack core other than the group's holds its row (R285, R352). -/
def State.recordHeld (s : State) (ctx id core : Nat) : Bool :=
  match s.recordKey ctx id 0 with
  | some k => s.runHeld core k 256
  | none => s.inMotion ctx (bits (s.ctx ctx).wmtab.toNat 56 16 * 2 ^ 16 + 256 * id)

/-- The row of a record that waits for it is noted (R352). -/
def State.noteRecord (s : State) (ctx id core : Nat) : State :=
  match s.recordKey ctx id 0 with
  | some k => s.noteRun core k 256
  | none => s

/-- WMCLOSE and WMRESET of a group that waited for its flushes are applied, in order, with what they clear (R215), as their records can be
changed; n bounds their number. -/
def State.applyRecords (n : Nat) (grp : Nat) (s : State) : State :=
  match n with
  | 0 => s
  | k + 1 =>
    match (s.work.filter fun w => w.group == grp).find? fun w => match w.kind with | .flush _ | .record _ _ => true | _ => false with
    | none => s
    | some x =>
      match x.kind with
      | .record id close =>
        let core := ((s.group grp).getD {}).place.coreIx
        if s.recordHeld x.ctx id core then s.noteRecord x.ctx id core
        else State.applyRecords k grp ((if close then s.closeRecord x.ctx id else s.resetRecord x.ctx id).finishWork x)
      | _ => s

end Sys2Proof.Machine
end

