-- ==== Sys2Proof/Machine/Send.lean ====
section
/-! DEFINITION. Sending on the streams of a die, and how an operation is answered (R219, R220, R222, R371). -/

namespace Sys2Proof.Machine

/-- The stream of a group's operations: its core pair (R219). -/
def streamOf (p : Place) : Nat := p.cluster * 2 + p.core / 2

/-- The next count of a context on a die's stream (R371). -/
def State.nextCount (s : State) (ctx die stream : Nat) : Nat :=
  (((s.ctx ctx).counts.find? fun c => c.1 == die && c.2.1 == stream).map fun c => c.2.2).getD 0

def State.bumpCount (s : State) (ctx die stream : Nat) : State :=
  s.updCtx ctx fun c =>
    { c with counts := (die, stream, s.nextCount ctx die stream + 1) :: c.counts.filter fun q => !(q.1 == die && q.2.1 == stream) }

/-- Operations of a context unanswered on a die's stream. -/
def State.unanswered (s : State) (ctx die stream : Nat) : List Remote :=
  s.remotes.filter fun r => r.ctx == ctx && r.pkt.sdie == die && r.pkt.stream == stream

/-- n more operations keep the span of unanswered counts within 1,024 (R219). -/
def State.room (s : State) (ctx die stream n : Nat) : Bool :=
  let top := s.nextCount ctx die stream + n
  (s.unanswered ctx die stream).all fun r => top ≤ r.pkt.scount + 1024

/-- A packet given to the die-to-die links, or to the fabric, where it may have to wait for the end of a calender change. -/
def State.emit (s : State) (p : Packet) : State :=
  if p.dpkg = s.pkgid then { s with inflight := s.inflight ++ [p] }
  else if s.holding then { s with heldOut := s.heldOut ++ [p] }
  else s.transmit p

/-- An operation sent with the next count of its stream, and held until it is answered (R219, R220). -/
def State.sendOp (s : State) (group work : Nat) (p : Packet) (src : Option (List (Nat × Nat)) := none) (slot : Option (Nat × Fin 8) := none) : State :=
  let p := { p with scount := s.nextCount p.ctx p.sdie p.stream, spkg := s.pkgid, fabid := (s.ctx p.ctx).fabid }
  let t := (s.bumpCount p.ctx p.sdie p.stream).emit p
  { t with
    remotes := t.remotes ++ [{ id := t.nextId, pkt := p, ctx := p.ctx, group := group, work := work, sent := t.ns, src := src, slot := slot }]
    nextId := t.nextId + 1 }

/-- A denial recorded (R28, R222). -/
def RemStat.deny (r : RemStat) (reason seq : Nat) : RemStat :=
  if r.d then { r with count := if r.count = 0xFFFF then r.count else r.count + 1 }
  else { d := true, reason := BitVec.ofNat 8 reason, count := 1, seq := BitVec.ofNat 32 seq }

/-- The packet of one RBULK line with its source bytes (R233). -/
def State.linePacket (s : State) (src : List (Nat × Nat)) (p : Packet) : Packet :=
  { p with body := src.flatMap fun r => readCells s.mem r.1 r.2 }

/-- A source line holds poison; its read noted (R378). -/
def State.linePoison (s : State) (src : List (Nat × Nat)) : Bool := src.any fun r => s.poisonedAt r.1 r.2
def State.noteLine (s : State) (src : List (Nat × Nat)) (ctx : Nat) : State := src.foldl (fun t r => t.notePoison r.1 r.2 ctx) s

/-- A core that no row belongs to: every held row is another's. -/
def noCore : Nat := 2 ^ 64

/-- A source line lies in a row that a stack core holds (R285, R352). -/
def State.lineHeld (s : State) (src : List (Nat × Nat)) : Bool := src.any fun r => s.runHeld noCore r.1 r.2
def State.noteHeld (s : State) (src : List (Nat × Nat)) : State := src.foldl (fun t r => t.noteRun noCore r.1 r.2) s

/-- An operation or line that has its answer: the work it belongs to has one fewer left. -/
def State.oneDone (s : State) (work : Nat) : State :=
  match s.findWork work with
  | none => s
  | some x =>
    let put (k : WorkKind) : State := { s with work := s.work.map fun w => if w.id == work then { w with kind := k } else w }
    match x.kind with
    | .remote n => if n ≤ 1 then s.finishWork x else put (.remote (n - 1))
    | .flush n => if n ≤ 1 then s.finishWork x else put (.flush (n - 1))
    | .bulk ls n b => if n ≤ 1 && ls.isEmpty then s.finishWork x else put (.bulk ls (n - 1) b)
    | _ => s

/-- What becomes of the next line of a bulk transfer in place of its sending: a refusal that the sender records itself (R222, R365). -/
def State.lineRefused (s : State) (src : List (Nat × Nat)) (p : Packet) : Option Nat :=
  if !s.reachable p.dpkg p.ddie then some 0x07 else if s.linePoison src then some 0x0A else none

/-- Lines of a bulk transfer sent while its stream has room and its source can be read; a poisoned source line, or a line for a peer
that can no longer be reached, is not sent and counts as denied (R219, R233, R352, R365, R378, R400). n bounds their number. -/
def State.pump (n : Nat) (work : Nat) (s : State) : State :=
  match n with
  | 0 => s
  | k + 1 =>
    match s.findWork work with
    | none => s
    | some x =>
      match x.kind with
      | .bulk ((src, p) :: r) left b =>
        if s.room p.ctx p.sdie p.stream 1 && (p.dpkg == s.pkgid || !s.holding) then
          let t : State := { s with work := s.work.map fun w => if w.id == work then { w with kind := .bulk r left b } else w }
          if s.reachable p.dpkg p.ddie && s.lineHeld src then s.noteHeld src
          else
            let t := match t.lineRefused src p with
              | some reason =>
                let seq := t.nextCount p.ctx p.sdie p.stream
                (((t.noteLine src p.ctx).bumpCount p.ctx p.sdie p.stream).updGroup x.group fun g =>
                  { g with remstat := g.remstat.deny reason seq }).oneDone work
              | none => t.sendOp x.group work (t.linePacket src p) (some src)
            State.pump k work t
        else s
      | _ => s

/-- Every bulk transfer goes on as its stream has room. -/
def State.pumpAll (s : State) : State :=
  s.work.foldl (fun t w => match w.kind with | .bulk ls _ _ => t.pump ls.length w.id | _ => t) s

/-- An operation answered: as denied with a reason, or as applied (R220, R222). -/
def State.answer (s : State) (r : Remote) (denied : Option Nat) : State :=
  let t : State := { s with remotes := s.remotes.filter fun q => q.id != r.id }
  let t := match denied with
    | none => t
    | some reason => t.updGroup r.group fun g => { g with remstat := g.remstat.deny reason r.pkt.scount }
  let u := t.oneDone r.work
  (u.applyRecords u.work.length r.group).pumpAll

end Sys2Proof.Machine
end

