-- ==== Sys2Proof/Machine/Watermark.lean ====
section
/-! DEFINITION. Watermark records: halves, flushes, closes, reads and scales, and the watermark instructions of major 0xB
(R209-R215, R339-R346). -/

namespace Sys2Proof.Machine

/-! ## Flushes (R212, R342, R343) -/

/-- The partials of one slot leave for the record's home, on stream 6 of the die. -/
def State.flushSlot (s : State) (core die ctx group work : Nat) (slot : Fin 8) : State :=
  let c := s.core core; let w := c.slots[slot]
  let p : Packet := {
    kind := 6, op := 0, dpkg := s.pkgid, ddie := s.recordDie ctx w.id, relayed := false, spkg := s.pkgid, sdie := die, stream := 6,
    fabid := 0, scount := 0, addr := BitVec.ofNat 64 (bits (s.ctx ctx).wmtab.toNat 56 16 * 2 ^ 16 + 256 * w.id), ext := 0,
    body := halfBytes w.stats w.epoch, ctx := ctx }
  (s.setCore { c with slots := c.slots.set slot { w with stats := {} } }).sendOp group work p none (some (core, slot))

/-- The slots of a mask that are bound and hold partials. -/
def State.flushable (s : State) (core ctx : Nat) (mask : Nat) : List (Fin 8) :=
  (List.finRange 8).filter fun i => bit mask i.val && s.boundId core ctx i != 0 && (s.core core).slots[i].stats != {}

/-- A flush of some slots accepted as work of the current group (R212), once their stream has room for it (R219, R397). -/
def State.startFlush (s : State) (fl : Fin 13) (slots : List (Fin 8)) : Res :=
  if slots.isEmpty then .ok s
  else if !s.room (s.launchOf s.cur).ctx s.cur.place.die 6 slots.length then stall s .sx
  else do
    let id := s.nextId
    let t ← s.acceptWork fl (.flush slots.length)
    let ctx := (t.launchOf t.cur).ctx
    .ok (slots.foldl (fun (u : State) i => u.flushSlot u.cur.place.coreIx u.cur.place.die ctx u.cur.key id i) t)

/-- The group has flushes not yet merged, or a WMCLOSE or WMRESET not yet applied. -/
def State.flushing (s : State) (g : Nat) : Bool :=
  s.work.any fun w => w.group == g && match w.kind with | .flush _ | .record _ _ => true | _ => false

/-- A flush of one slot of a core is under way. -/
def State.slotFlushing (s : State) (core : Nat) (slot : Fin 8) : Bool := s.remotes.any fun r => r.slot == some (core, slot)

/-- A core's slots may pass to a context: they are its own or nobody's, or they hold no partials and no flush of theirs is under way
(R344). -/
def State.slotsReady (s : State) (core ctx : Nat) : Bool :=
  match (s.core core).slotCtx with
  | none => true
  | some old => old == ctx || ((s.flushable core old 255).isEmpty && (List.finRange 8).all fun i => !s.slotFlushing core i)

/-- Some slots of a core flushed by the front end, once their stream has room (R344, R397). -/
def State.flushSlots (s : State) (core ctx : Nat) (slots : List (Fin 8)) : State :=
  if !s.room ctx (coreDie core) 6 slots.length then s
  else slots.foldl (fun (u : State) i => u.flushSlot core (coreDie core) ctx (2 ^ 64) 0 i) s

/-- The partials of another context leave a core's slots (R344). -/
def State.drainSlots (s : State) (core ctx : Nat) : State :=
  match (s.core core).slotCtx with
  | none => s
  | some old => if old = ctx then s else s.flushSlots core old (s.flushable core old 255)

/-- The core's slots, which are ready, pass to a context (R15, R344): the old bindings are kept, the context's own restored. -/
def State.passSlots (s : State) (core ctx : Nat) : State :=
  let c := s.core core
  if c.slotCtx == some ctx then s
  else
    let d := s.core core
    let kept := match d.slotCtx with
      | none => d.slotsKept
      | some old => (old, Vector.ofFn fun i => (d.slots[i].id, d.slots[i].epoch)) :: d.slotsKept.filter fun q => q.1 != old
    let mine : Vector (Nat × Nat) 8 := ((kept.find? fun q => q.1 == ctx).map fun q => q.2).getD (Vector.replicate 8 (0, 0))
    s.setCore { d with
      slotCtx := some ctx
      slotsKept := kept.filter fun q => q.1 != ctx
      slots := Vector.ofFn fun i => { id := mine[i].1, epoch := mine[i].2 } }

/-- WMFLUSH (R212). -/
def execWmflush (b : Fin 64) (fl : Fin 13) (s : State) : Out :=
  scalar [(11, b)] (fun s => do
    let m := (s.rs b).toNat
    ensure (m < 256) (named causeMxfmt 11)
    let ctx := (s.launchOf s.cur).ctx; let core := s.cur.place.coreIx
    let t ← ((List.finRange 8).filter fun i => bit m i.val && s.boundId core ctx i != 0).foldlM
      (fun (u : State) i => u.recordAt (u.boundId core ctx i) 11) s
    if !t.cur.lq.isEmpty then stall t .clauses
    else t.startFlush fl (t.flushable core ctx m)) s

/-- WMBIND (R211): partials of another record are flushed first, as WMFLUSH flushes them: after the clauses enqueued before, and with
the merge applied before the slot is bound; binding the same id changes nothing. -/
def execWmbind (b c : Fin 64) (s : State) : Out :=
  scalar [(11, b), (12, c)] (fun s => do
    ensure ((s.rs b).toNat < 8) (named causeMxfmt 11)
    ensure ((s.rs c).toNat < 2 ^ 16) (named causeMxfmt 12)
    let slot : Fin 8 := Fin.ofNat 8 (s.rs b).toNat; let id := (s.rs c).toNat
    let ctx := (s.launchOf s.cur).ctx; let core := s.cur.place.coreIx
    let t ← if id = 0 then .ok s else s.recordAt id 12
    if t.boundId core ctx slot = id then .ok t
    else if t.slotFlushing core slot then stall t .sx
    else if !(t.flushable core ctx (2 ^ slot.val)).isEmpty then
      if !t.cur.lq.isEmpty then stall t .clauses
      else do
        let u ← t.startFlush 0 [slot]
        stall u .sx
    else if !t.slotsReady core ctx then stall (t.drainSlots core ctx) .sx
    else
      let u := t.passSlots core ctx
      let c := u.core core
      let w : WmSlot := { id := id, epoch := if id = 0 then 0 else u.recordEpoch ctx id }
      .ok (u.setCore { c with slots := c.slots.set slot w })) s

/-! ## Reading, closing and resetting (R213, R215) -/

/-- The field of WMRD (R213): offset from the half or record, and bytes. -/
def wmField (f : Nat) (closed : Bool) : Nat × Nat :=
  let h := if closed then closedHalf else curHalf
  if f < 6 then (h + 4 * f, 4)
  else if f = 6 then (h + 24, 8)
  else if f = 7 then (h + 96, 8)
  else if f < 24 then (h + 32 + 4 * (f - 8), 4)
  else if f = 24 then (8, 8)
  else if f = 25 then (16, 4)
  else if f = 26 then (4, 1)
  else (2, 2)

/-- WMRD (R213). -/
def execWmrd (a b c : Fin 64) (s : State) : Out :=
  scalar [(11, b), (12, c)] (fun s => do
    let d := (s.rs c).toNat; let f := bits d 4 0
    ensure (d < 64 && f < 28 && !(24 ≤ f && bit d 5)) (named causeMxfmt 12)
    let t ← s.recordAt (s.rs b).toNat 11
    if t.flushing t.cur.key then stall t .sx
    else
      let q := wmField f (bit d 5); let x := t.recordRead (t.launchOf t.cur).ctx (t.rs b).toNat q.1 q.2
      .ok (t.ws a (if f = 26 then BitVec.ofInt 64 (signed 8 x) else BitVec.ofNat 64 x))) s

/-- WMCLOSE and WMRESET (R215): once the group's earlier flushes are merged the record changes, which clears the flag; with fl = 0 the
stream waits for that. -/
def recordChange (close : Bool) (b : Fin 64) (fl : Fin 13) : State → Out :=
  scalar [(11, b)] fun s => do
    let t ← s.recordAt (s.rs b).toNat 11
    if fl = 0 && t.flushing t.cur.key then stall t .sx
    else
      let u ← t.acceptWork fl (.record (t.rs b).toNat close)
      .ok (u.applyRecords u.work.length u.cur.key)

/-- WMCLOSE (R215). -/
def execWmclose (b : Fin 64) (fl : Fin 13) (s : State) : Out := recordChange true b fl s

/-- WMRESET (R215). -/
def execWmreset (b : Fin 64) (fl : Fin 13) (s : State) : Out := recordChange false b fl s

/-! ## Scales (R207, R345, R346) -/

/-- The smallest E8M7 scale that is at least m * 2^e / qmax, clamped; with its fraction forced to zero for a power of two; 1.0
for zero (R207). -/
def fitScale (pow2 : Bool) (qmax m : Nat) (e : Int) : Nat :=
  if m = 0 then 0x3F80
  else
    let l := ilog m qmax            -- floor(log2 (m / qmax))
    let up (num : Nat) (x : Int) : Nat :=  -- ceil (num * 2^x / qmax)
      if 0 ≤ x then (num * 2 ^ x.toNat + qmax - 1) / qmax else (num + qmax * 2 ^ (-x).toNat - 1) / (qmax * 2 ^ (-x).toNat)
    let n := up m (7 - l)
    let (f, ex) := if n = 256 then (0, l + e + 128) else (n - 128, l + e + 127)
    let (f, ex) := if pow2 && f ≠ 0 then (0, ex + 1) else (f, ex)
    if ex < 1 then 0x0080 else if 254 < ex then (if pow2 then 0x7F00 else 0x7F7F) else ex.toNat * 128 + f

/-- fit and pow2 of an FP32 value, times a power of two. -/
def fitF32 (pow2 : Bool) (qmax x : Nat) (k : Int) : Nat :=
  match decodeF f32 false x with
  | .fin _ m e => fitScale pow2 qmax m (e + k)
  | _ => 0x3F80

/-- The exponent raised by one, stopping at the largest scale. -/
def dblScale (x : Nat) : Nat := if x < 254 * 128 then x + 128 else 0x7F7F

/-- The candidate bin of CLIP (R346). -/
def clipBin (st : Stats) : Nat :=
  let lim := (st.total - st.nan - st.pinf - st.ninf) / 1024
  let above (j : Nat) := (List.finRange 16).foldl (fun z i => if j ≤ i.val then z + st.bins[i] else z) 0
  (((List.range 15).map fun i => 15 - i).find? fun j => lim < above j).getD 0

/-- The bound U of CLIP and CLIP2, as a scale (R346). -/
def clipScale (pow2 : Bool) (qmax : Nat) (st : Stats) (base : Int) : Nat :=
  let k := clipBin st
  match decodeF f32 false st.maxabs with
  | .fin _ m e =>
    let p := base + k
    let pBelow : Bool := decide ((Nat.log2 m : Int) + e > p) || (decide ((Nat.log2 m : Int) + e = p) && decide (2 ^ Nat.log2 m < m))
    if k = 0 || k = 15 || m = 0 || !pBelow then fitScale pow2 qmax m e else fitScale pow2 qmax 1 p
  | _ => if k = 0 || k = 15 then 0x3F80 else fitScale pow2 qmax 1 (base + k)

/-- The scale of a closed half under a policy (R345). -/
def policyScale (policy qmax : Nat) (st : Stats) (base : Int) : Nat :=
  let d (x : Nat) := if 0 < st.sat then dblScale x else x
  match policy with
  | 0 => fitF32 false qmax st.maxabs 0
  | 1 => fitF32 true qmax st.maxabs 0
  | 2 => fitF32 false qmax st.maxabs 1
  | 3 => clipScale false qmax st base
  | 4 => clipScale true qmax st base
  | 5 => d (fitF32 false qmax st.maxabs 0)
  | 6 => d (fitF32 true qmax st.maxabs 0)
  | _ => 0x3F80

/-- The scale of a record: 1.0 while no half is closed; and the EPOCH that a block written with it carries (R188, R345). -/
def State.recordScale (s : State) (ctx id policy qfmt : Nat) : Nat × Nat :=
  let h := s.recordRead ctx id closedHalf 112
  if !bit (s.recordRead ctx id 2 2) 1 then (0x3F80, 0)
  else (policyScale policy (qMax (qBits qfmt)) (halfStats h) (s.baseExp ctx id), halfEpoch h)

/-- WMSCALE (R214). -/
def execWmscale (a b c : Fin 64) (s : State) : Out :=
  scalar [(11, b), (12, c)] (fun s => do
    let d := (s.rs c).toNat
    ensure (bits d 7 4 == 0 && bits d 63 16 == 0 && bits d 3 0 < 8 && qFmtOk (bits d 15 8)) (named causeMxfmt 12)
    let t ← s.recordAt (s.rs b).toNat 11
    if t.flushing t.cur.key then stall t .sx
    else .ok (t.ws a (BitVec.ofNat 64 (t.recordScale (t.launchOf t.cur).ctx (t.rs b).toNat (bits d 3 0) (bits d 15 8)).1))) s

end Sys2Proof.Machine
end

