-- ==== Sys2Proof/Machine/Zero.lean ====
section
/-! DEFINITION. What the front end does to a context's pages on its own: the events of its writes to leaf entries, the zeroing of ZA
frames, and reads through the context's translation (R325, R329, R333, R378). -/

namespace Sys2Proof.Machine

/-- A leaf entry written by the front end, and the event that tells the host of the page and of the entry's new value (R325, R385;
log 47). -/
def State.writeLeaf (s : State) (ctx va len entry v : Nat) : State :=
  (s.write entry 16 v).logEvent { kind := 0x21, ctx := ctx, data := leBytes 8 ctx ++ leBytes 8 va ++ leBytes 8 len ++ leBytes 16 v }

/-! ## Zero on allocate (R329, R333) -/

/-- The ZA leaf entry of an address: where it lies, its value, and the log2 of its page. -/
def zaWalk (s : State) (va : Nat) : List (Nat × Nat × Bool × Bool × Nat) → Nat → Option (Nat × Nat × Nat)
  | [], _ => none
  | (lo, n, _) :: r, table =>
    let at_ := table + 16 * (va / 2 ^ lo % 2 ^ n); let e := s.read at_ 16
    if !bit e 0 then none
    else if bit e 1 then (if bit e 8 then some (at_, e, lo) else none)
    else zaWalk s va r (entryAddr e)

/-- Every byte of a frame zeroed; its ECC units are good again. -/
def State.clearFrame (s : State) (k n : Nat) : State :=
  { s with
    mem := clearCells s.mem k n
    poisoned := s.poisoned.filter fun u => !(k ≤ u && u < k + n)
    poisonSeen := s.poisonSeen.filter fun u => !(k ≤ u && u < k + n)
    soft := s.soft.filter fun u => !(k ≤ u.1 && u.1 < k + n) }

/-- The frame of a ZA page zeroed, ZA cleared and told of, and every walk that waited going on; nothing for another page. -/
def State.zeroFrame (ctx va : Nat) (s : State) : State :=
  match walkFrom s 0 ctx va walkLevels (s.ctx ctx).ptroot, zaWalk s va walkLevels (s.ctx ctx).ptroot with
  | .zero page, some (at_, e, size) =>
    let k := if bit e 64 then pasidKey (s.pasidOf ctx) (entryAddr e) else entryAddr e
    let t := (s.clearFrame k (2 ^ size)).writeLeaf ctx page (2 ^ size) at_ (e - 2 ^ 8)
    let wake (g : Group) : Group := match g.stop with
      | .zeroing a => (match t.translate g.place.die (t.launchOf g).ctx a with
        | .zero _ => g
        | _ => { g with stop := .running })
      | _ => g
    { t with cur := wake t.cur, others := t.others.map wake }
  | _, _ => s

/-- ZERO_ON_ALLOCATE (R333). -/
def execZeroOnAllocate (ctx va : Nat) (s : State) : Out := .next (s.zeroFrame ctx va)

/-- The runs of a range, with the frames that it reaches zeroed where they still had to be (R333). -/
def State.zeroRange (s : State) (ctx va n : Nat) : State :=
  (granuleRuns (n / 2 ^ 16 + 2) 0 va n).foldl (fun t r => t.zeroFrame ctx r.2.1) s

/-! ## Reading through a context's translation (R323, R333, R378) -/

/-- n bytes at a virtual address of a context, as the front end reads them; none where a page is missing, cannot be read or holds
poison. -/
def State.readVa (s : State) (ctx va n : Nat) : Option Nat :=
  let part (r : Nat × Nat × Nat) : Option (List Byte) :=
    match s.translate 0 ctx r.2.1 with
    | .leaf t => if t.r && !s.poisonedAt (t.key r.2.1) r.2.2 then some (readCells s.mem (t.key r.2.1) r.2.2) else none
    | _ => none
  if 2 ^ 57 < va + n then none
  else ((granuleRuns (n / 2 ^ 16 + 2) 0 va n).mapM part).map fun bs => ofLeBytes bs.flatten

/-- The poison that such a read meets is noted, in the tables and in the bytes (R378). -/
def State.noteVa (s : State) (ctx va n : Nat) : State :=
  (granuleRuns (n / 2 ^ 16 + 2) 0 va n).foldl (fun t r =>
    match t.translate 0 ctx r.2.1 with
    | .leaf l => if l.r then t.notePoison (l.key r.2.1) r.2.2 ctx else t
    | .poisoned e => t.notePoison e 16 ctx
    | _ => t) s

/-- A read by the front end: frames that still had to be zeroed are zeroed first (R333), and poison that it meets is noted (R378). -/
def State.takeVa (s : State) (ctx va n : Nat) : State × Option Nat :=
  if 2 ^ 57 < va + n then (s, none)
  else let t := s.zeroRange ctx va n; (t.noteVa ctx va n, t.readVa ctx va n)

/-! ## Windows and the save area (R305, R316, R317; log 49) -/

/-- A window of a team: its number, its level, where it lies in the team's part of the save area, its first byte in place, its length. -/
structure Pad where
  ix : Nat
  lvl : Fin 3
  off : Nat
  key : Nat
  len : Nat
  deriving DecidableEq, Repr

/-- Where a window lies in a team's part of the save area: the unit windows in the order of their cores, the cluster window, the die
window. -/
def Team.padOff (t : Team) (lvl ci : Nat) : Nat :=
  if lvl = 0 then ci * t.win[(0 : Fin 3)].size
  else t.unitCores.length * t.win[(0 : Fin 3)].size + if lvl = 1 then 0 else t.win[(1 : Fin 3)].size

/-- The number of a team's die window: the unit windows come first, in the order of their cores, then the cluster window. -/
def Team.dieWindow (t : Team) : Nat := t.unitCores.length + 1

/-- A team's windows. -/
def Team.pads (t : Team) : List Pad :=
  ((t.unitCores.zipIdx.map fun (q : Nat × Nat) => ({ ix := q.2, lvl := 0, off := t.padOff 0 q.2, key := unitKey q.1 t.win[(0 : Fin 3)].base, len := t.win[(0 : Fin 3)].size } : Pad)) ++
    ([{ ix := t.unitCores.length, lvl := 1, off := t.padOff 1 0, key := clusterKey t.die t.cluster t.win[(1 : Fin 3)].base, len := t.win[(1 : Fin 3)].size },
     { ix := t.dieWindow, lvl := 2, off := t.padOff 2 0, key := dieKey t.die t.win[(2 : Fin 3)].base, len := t.win[(2 : Fin 3)].size }] : List Pad)).filter fun p => p.len != 0

/-- A window lies where it was placed: its team is resident, or it is held there (R316). -/
def Team.inPlace (t : Team) (p : Pad) : Bool := t.status == .resident || t.held.contains p.ix

/-- The bytes of a team's windows: where its registers, its arrays and the rest begin in its part of the save area. -/
def Team.padBytes (t : Team) : Nat := t.padOff 2 0 + t.win[(2 : Fin 3)].size

/-- The pieces of n bytes at an offset into some parts of a save area, one part after the other: offset in the n bytes, offset from
SAVEBASE, length. -/
def areaPieces : List Window → Nat → Nat → List (Nat × Nat × Nat)
  | [], _, _ => []
  | w :: r, off, n =>
    let m := min n (w.size - off)
    (if m = 0 then [] else [(0, w.base + off, m)]) ++ (areaPieces r (off - w.size) (n - m)).map fun q => (m + q.1, q.2)

/-- The granule runs of n bytes at an offset into a team's part of the save area: offset in the n bytes, address, length. -/
def State.areaVas (s : State) (t : Team) (off n : Nat) : List (Nat × Nat × Nat) :=
  (areaPieces t.area off n).flatMap fun p =>
    (granuleRuns (p.2.2 / 2 ^ 16 + 2) 0 ((s.ctx (s.launch t.launch).ctx).savebase + p.2.1) p.2.2).map fun r => (p.1 + r.1, r.2)

/-- Where those bytes lie, as far as their pages can be translated: offset, key, length. -/
def State.areaRuns (s : State) (t : Team) (off n : Nat) : List (Nat × Nat × Nat) :=
  (s.areaVas t off n).filterMap fun r => match s.translate 0 (s.launch t.launch).ctx r.2.1 with
    | .leaf l => some (r.1, l.key r.2.1, r.2.2)
    | _ => none

/-- The frames that those bytes reach zeroed where they still had to be (R333). -/
def State.zeroArea (s : State) (t : Team) (off n : Nat) : State :=
  (s.areaVas t off n).foldl (fun u r => u.zeroFrame (s.launch t.launch).ctx r.2.1) s

/-- What the manual gives no form: bytes of the save area that the front end writes, each a free value. -/
def State.fillArea (s : State) (t : Team) (off n : Nat) : State :=
  let u := s.zeroArea t off n
  (u.areaRuns t off n).foldl (fun (v : State) r =>
    { v.writeBytes r.2.1 ((List.range r.2.2).map fun i => (Config.freeValue (v.fresh + i)).setWidth 8) with fresh := v.fresh + r.2.2 }) u

/-! ## Bytes that change their place (R183, R268, R316) -/

/-- Where a run of bytes lies once n bytes at old have moved to new. -/
def movedRun (old n new : Nat) (r : Nat × Nat) : List (Nat × Nat) :=
  let lo := max r.1 old; let hi := min (r.1 + r.2) (old + n)
  if hi ≤ lo then [r]
  else ([(r.1, lo - r.1), (new + (lo - old), hi - lo), (hi, r.1 + r.2 - hi)] : List (Nat × Nat)).filter fun q => q.2 != 0

/-- Bytes have moved: an arrival word that NMRUN work is to add to goes with them, and so do the source bytes of the lines of a bulk
transfer, unsent or unanswered (R183, R233, R268, R316). -/
def State.moveRefs (s : State) (old n new : Nat) : State :=
  { s with
    work := s.work.map fun w => match w.kind with
      | .nmrun x => { w with kind := .nmrun { x with arrival := x.arrival.map fun a => if old ≤ a && a < old + n then new + (a - old) else a } }
      | .bulk lines left b => { w with kind := .bulk (lines.map fun l => (l.1.flatMap (movedRun old n new), l.2)) left b }
      | _ => w
    remotes := s.remotes.map fun r => { r with src := r.src.map fun l => l.flatMap (movedRun old n new) } }

/-- Bytes have gone with their window: no NMRUN work adds to an arrival word there. -/
def State.loseRefs (s : State) (old n : Nat) : State :=
  { s with work := s.work.map fun w => match w.kind with
      | .nmrun x => { w with kind := .nmrun { x with arrival := x.arrival.filter fun a => !(old ≤ a && a < old + n) } }
      | _ => w }

end Sys2Proof.Machine
end

