-- ==== Sys2Proof/Machine/Home.lean ====
section
/-! DEFINITION. The home of a remote operation: windows, refusals, application, answers (R221, R222, R225-R229, R233, R352,
R353, R371, R372). -/

namespace Sys2Proof.Machine

/-! ## The context and the target -/

/-- The context that a packet belongs to on this package (R221, R363). -/
def State.packetCtx (s : State) (p : Packet) : Option Ctx :=
  if p.spkg = s.pkgid then s.ctxs.find? fun c => c.num == p.ctx
  else if p.fabid = 0 then none else s.ctxs.find? fun c => c.fabid == p.fabid

/-- Where an address of a packet leads at the home. -/
inductive Landing where
  | refuse (reason : Nat)
  /-- a page being zeroed or moved: the packet waits. -/
  | later
  | poison (key : Nat)
  | at (key : Nat) (tlb : Tlb)
  deriving DecidableEq, Repr

/-- An address of a packet at its home: the refusals of R222. A malformed entry counts as a lack of permission, as R322 counts it, and so
does a write to the code of a running launch (R83). Where several refusals hold, the manual does not say which reason is given: the
one that the tests below meet first (log 53, DESIGN CHOICE). -/
def State.landing (s : State) (p : Packet) (c : Ctx) (addr n : Nat) (write : Bool) : Landing :=
  if !p.virt && c.shsize < addr + n then .refuse 0x01
  else
    let va := if p.virt then addr % 2 ^ 57 else c.shbase + addr
    if s.inMotion c.num va then .later
    else match s.translate p.ddie c.num va with
    | .absent => .refuse 0x02
    | .malformed | .poisoned _ => .refuse 0x03
    | .zero _ => .later
    | .leaf t =>
      if t.hm then .refuse (if t.sa then 0x09 else 0x05)
      else if frameDie t.pa != p.ddie then .refuse 0x05
      else if (if write then !(t.w && t.rwr) || s.codePage c.num va else !t.r) then .refuse 0x03
      else if write && t.sealed then .refuse 0x04
      else if s.poisonedAt (t.key va) n then .poison (t.key va)
      else .at (t.key va) t

/-! ## What a packet does at its home -/

/-- A write-once conflict logged (R226, R385). -/
def State.logConflict (s : State) (p : Packet) (ctx addr old new : Nat) : State :=
  (s.count p.ddie fun h => { h with conflicts := h.conflicts + 1 }).logEvent {
    kind := 0x20, ctx := ctx, unit := s.unitOf { die := p.ddie },
    data := leBytes 8 addr ++ leBytes 8 (p.spkg * 2 ^ 38 + p.sdie * 2 ^ 35 + p.stream * 2 ^ 32 + p.scount % 2 ^ 32) ++
      leBytes 8 (old % 2 ^ 63) ++ leBytes 8 (new % 2 ^ 63) }

/-- A write-once step at a key: the machine after it, and whether it was a transition (R226, R233). -/
def State.onceAt (s : State) (p : Packet) (ctx key pay : Nat) : State × Bool :=
  let w := s.read key 8; let (new, tr, conflict) := onceStep w pay
  let t := s.write key 8 new
  (if conflict then t.logConflict p ctx key w pay else t, tr)

/-- The 4-byte operations (R225). -/
def remoteNew (op ty m b : Nat) : Nat :=
  let v (x : Nat) : Int := if ty = 1 then signed 32 x else x
  match op with
  | 0xE0 => (m + b) % 2 ^ 32
  | 0xE1 => if ty = 0x10 then (selectF f32 false false m b).1 else if v m ≤ v b then m else b
  | 0xE2 => if ty = 0x10 then (selectF f32 false true m b).1 else if v m ≤ v b then b else m
  | _ => m ||| b

/-- An operation other than RREAD applied at its target (R225). -/
def State.applyOp (s : State) (p : Packet) (ctx key : Nat) : State :=
  match p.op with
  | 0xE4 => (s.onceAt p ctx key (p.value.toNat % 2 ^ 63)).1
  | 0xE5 => s.addArrival key p.value.toNat
  | 0xE7 => s.write key 16 (slotAdd (s.read key 16) (p.value.toNat % 2 ^ 32) p.anchor)
  | op => s.write key 4 (remoteNew op p.ty (s.read key 4) (p.value.toNat % 2 ^ 32))

/-- Operation and type of an RBULK mode (R232). -/
def bulkOp (mode : Nat) : Nat × Nat :=
  match mode with
  | 1 => (0xE0, 1)
  | 2 => (0xE3, 0)
  | 3 => (0xE2, 1)
  | 4 => (0xE1, 1)
  | 5 => (0xE2, 0x10)
  | _ => (0xE1, 0x10)

/-- A line applied word by word: the machine after it, and the transitions it made (R233). -/
def State.applyLine (s : State) (p : Packet) (ctx key : Nat) : State × Nat :=
  let v := ofLeBytes p.body
  if p.op = 0 then
    (List.range 16).foldl (fun (q : State × Nat) i =>
      let r := q.1.onceAt p ctx (key + 8 * i) (bits v (64 * i + 62) (64 * i)); (r.1, if r.2 then q.2 + 1 else q.2)) (s, 0)
  else
    let (op, ty) := bulkOp p.op
    ((List.range 32).foldl (fun (t : State) i =>
      t.write (key + 4 * i) 4 (remoteNew op ty (t.read (key + 4 * i) 4) (bits v (32 * i + 31) (32 * i)))) s, 0)

/-- What comes of a packet at its home. -/
inductive Applied where
  | refused (reason : Nat)
  | poison (key n : Nat)
  | later
  /-- its row is held, in a bank of a stack. -/
  | held (stack bank : Nat)
  | done (s : State)
  deriving DecidableEq, Repr

/-- A key in a row that some stack core holds (R352). -/
def State.heldRow (s : State) (k n : Nat) : Bool := s.runHeld noCore k n

/-- The reply of an RREAD, which takes the home context's next count on stream 7 (R219, R228, R370, R371). -/
def State.replyTo (s : State) (p : Packet) (c : Ctx) (key : Nat) : State :=
  let w := tyBytes p.ty
  (s.bumpCount c.num p.ddie 7).emit
    { kind := 3, op := 0, dpkg := p.spkg, ddie := p.sdie, relayed := false, spkg := s.pkgid, sdie := p.ddie, stream := 7, fabid := p.fabid
      scount := s.nextCount c.num p.ddie 7, addr := p.ext, ext := BitVec.ofNat 64 p.scount, reqStream := p.stream, width := w
      value := BitVec.ofNat 64 (s.read key w), ctx := p.ctx }

/-- The record that a flush names (R212, R339). -/
def flushId (c : Ctx) (p : Packet) : Nat := (p.addr.toNat - bits c.wmtab.toNat 56 16 * 2 ^ 16) / 256

/-- A packet applied, or why not (R222, R225, R233, R212). -/
def State.homeApply (s : State) (p : Packet) (c : Ctx) : Applied :=
  if p.kind = 6 then
    let slot := (s.remotes.find? fun r => r.pkt == p).bind (·.slot)
    match s.recordKey c.num (flushId c p) 0 with
    | some k =>
      if s.heldRow k 256 then .held (frameStack k) (Config.bankOf k)
      else .done (s.mergeFlush c.num (flushId c p) (ofLeBytes (p.body.take 112)) slot)
    | none => .done s
  else
    let n := if p.kind = 2 then 128 else remoteBytes p.op p.ty
    match s.landing p c p.addr.toNat n (!(p.kind == 1 && p.op == 0xE6)) with
    | .refuse r => .refused r
    | .later => .later
    | .poison key => .poison key n
    | .at key t =>
      let s := s.cache t
      if s.heldRow key n then .held (frameStack key) (Config.bankOf key)
      else if p.kind = 1 then .done (if p.op = 0xE6 then s.replyTo p c key else s.applyOp p c.num key)
      else if p.ext = BitVec.allOnes 64 then .done (s.applyLine p c.num key).1
      else match s.landing p c p.ext.toNat 8 true with
        | .refuse r => .refused (if r = 0x05 then 0x08 else r)
        | .later => .later
        | .poison ak => .poison ak 8
        | .at ak t =>
          let s := s.cache t
          if s.heldRow ak 8 then .held (frameStack ak) (Config.bankOf ak)
          else
            let (u, tr) := s.applyLine p c.num key
            .done (u.engineArrival ak 128 1 tr)

/-! ## Windows and answers (R221, R371, R372) -/

/-- A denial sent at once. -/
def State.denyPacket (s : State) (p : Packet) (reason : Nat) : State :=
  s.emit { kind := 5, op := 0, dpkg := p.spkg, ddie := p.sdie, relayed := false, spkg := s.pkgid, sdie := p.ddie, stream := p.stream, fabid := p.fabid,
           scount := p.scount, addr := 0, ext := BitVec.ofNat 64 reason, ctx := p.ctx }

/-- An acknowledgement queued. -/
def State.ackPacket (s : State) (p : Packet) : State :=
  { s with acks := s.acks ++ [{ die := p.ddie, fabid := p.fabid, ctx := p.ctx, pkg := p.spkg, sdie := p.sdie, stream := p.stream, scount := p.scount }] }

/-- The answer to a packet whose outcome is known. -/
def State.answerPacket (s : State) (p : Packet) (ok : Bool) (reason : Nat) : State :=
  if ok then s.ackPacket p else s.denyPacket p reason

/-- The window belongs to a packet's source, at some home slice of its die. -/
def HomeWindow.isFor (w : HomeWindow) (ctx : Nat) (p : Packet) : Bool :=
  w.die == p.ddie && w.ctx == ctx && w.spkg == p.spkg && w.sdie == p.sdie && w.stream == p.stream

/-- The home slice that a packet meets: that of the stack on which its target lies, and the die's first where it has no frame there
(log 45). -/
def State.sliceOf (s : State) (p : Packet) (c : Ctx) : Nat :=
  let va := if p.virt || p.kind == 6 then p.addr.toNat % 2 ^ 57 else c.shbase + p.addr.toNat
  match s.translate p.ddie c.num va with
  | .leaf t => if t.hm || frameDie t.pa != p.ddie then 2 * p.ddie else frameStack t.pa
  | _ => 2 * p.ddie

/-- The window of a packet's source at a home slice, in its reset state where none is kept yet. -/
def State.windowOf (s : State) (ctx slice : Nat) (p : Packet) : HomeWindow :=
  (s.windows.find? fun w => w.isFor ctx p && w.slice == slice).getD
    { die := p.ddie, slice := slice, ctx := ctx, spkg := p.spkg, sdie := p.sdie, stream := p.stream }

def State.setWindow (s : State) (ctx : Nat) (p : Packet) (w : HomeWindow) : State :=
  { s with windows := w :: s.windows.filter fun v => !(v.isFor ctx p && v.slice == w.slice) }

/-- What became of an earlier copy of a packet, at whichever home slice of the die it was: its page may have moved since (log 45). -/
def State.seenAt (s : State) (ctx : Nat) (p : Packet) : Option (Option Bool) :=
  (s.windows.filter fun w => w.isFor ctx p).findSome? fun w => (w.seen.find? fun e => e.1 == p.scount).map (·.2)

/-- The window with a count's arrival: high raised, and counts too old forgotten. -/
def HomeWindow.raise (w : HomeWindow) (q : Nat) : HomeWindow :=
  let d := (q + 2 ^ 64 - w.high) % 2 ^ 64
  if d ≠ 0 && d < 2 ^ 63 then { w with high := q, seen := w.seen.filter fun e => (q + 2 ^ 64 - e.1) % 2 ^ 64 < 1024 } else w

/-- A count marked seen with an outcome. -/
def HomeWindow.mark (w : HomeWindow) (q : Nat) (o : Option Bool) : HomeWindow :=
  { w with seen := (q, o) :: w.seen.filter fun e => e.1 != q }

def isRread (p : Packet) : Bool := p.kind == 1 && p.op == 0xE6

/-- A packet's outcome marked in the window that its slice keeps (R221). -/
def State.markSeen (s : State) (p : Packet) (c : Ctx) (slice : Nat) (o : Option Bool) : State :=
  s.setWindow c.num p ((s.windowOf c.num slice p).mark p.scount o)

/-- The packet's tag is that of another. -/
def sameTag (p q : Packet) : Bool :=
  p.kind == q.kind && p.spkg == q.spkg && p.sdie == q.sdie && p.stream == q.stream && p.fabid == q.fabid && p.ctx == q.ctx && p.ddie == q.ddie &&
    p.scount == q.scount

/-- A packet put into the deferral buffer of its bank: one that finds 64 there is forgotten, and so is a copy of one that waits there
(R353). -/
def State.defer (s : State) (p : Packet) (stack bank : Nat) : State :=
  if s.deferred.any (fun d => sameTag d.2.2 p) || 64 ≤ (s.deferred.filter fun d => d.1 == stack && d.2.1 == bank).length then s
  else { s with deferred := s.deferred ++ [(stack, bank, p)] }

/-- The attempt to apply a packet whose count is in its window: RREADs are never deduplicated and their reply is the answer
(R221, R228); a packet to a held row goes to its bank's deferral buffer while that has room (R353). -/
def State.attempt (s : State) (p : Packet) (c : Ctx) (slice : Nat) : Option State :=
  let mark (t : State) (o : Option Bool) : State := if isRread p then t else t.markSeen p c slice o
  match s.homeApply p c with
  | .later => none
  | .refused r => some ((mark s (some false)).denyPacket p r)
  | .poison k n => some ((mark (s.notePoison k n c.num) (some false)).denyPacket p 0x0A)
  | .held st bk =>
    let t := s.defer p st bk
    some (if t.deferred.any (fun d => sameTag d.2.2 p) then mark t none else t)
  | .done t => some (if isRread p then t else (mark t (some true)).ackPacket p)

/-- A calender change has put the fibres out (R389). -/
def State.isDark (s : State) : Bool := match s.calPhase with | .dark _ => true | _ => false

/-- The packet is one that may arrive now: among those in flight if it is the package's own, and otherwise from a package of the domain,
with no virtual address, while the fibres are lit; for a die that has not failed, but for a beacon and a marker, which are the
package's (R364, R369, R373, R389). -/
def State.arrives (s : State) (p : Packet) : Bool :=
  p.dpkg == s.pkgid && packetFormed p && (p.kind == 7 || p.kind == 8 || !s.fenced.contains (.die p.ddie)) &&
  if p.spkg = s.pkgid then s.inflight.contains p else !p.virt && !s.isDark && p.spkg < s.domain

/-- The packet taken from those in flight. -/
def State.taken (s : State) (p : Packet) : State := { s with inflight := s.inflight.erase p }

/-- A packet of another package that waits at its home stays among those in flight (R329, R183). -/
def State.keep (s : State) (p : Packet) : State := if s.inflight.contains p then s else { s with inflight := s.inflight ++ [p] }

/-- R221 for an operation, a bulk line or a flush. -/
def State.receive (s : State) (p : Packet) : State :=
  let t := s.taken p
  match s.packetCtx p with
  | none => t.denyPacket p 0x06
  | some c =>
    if c.failed.isSome || c.destroying.isSome then t.denyPacket p 0x06
    else
      let slice := s.sliceOf p c
      let w := (t.windowOf c.num slice p).raise p.scount
      let t := t.setWindow c.num p w
      if 1024 ≤ (w.high + 2 ^ 64 - p.scount) % 2 ^ 64 then t
      else if isRread p then (t.attempt p c slice).getD (t.keep p)
      else match t.seenAt c.num p with
        | some (some ok) => t.answerPacket p ok 0x00
        | some none => t
        | none => (t.attempt p c slice).getD (t.keep p)

/-- OPERATION_PACKET (R221, R225). -/
def execOperationPacket (p : Packet) (s : State) : Out :=
  .next (if p.kind = 1 && s.arrives p then s.receive p else s)

/-- RBULK_LINE (R233). -/
def execRbulkLine (p : Packet) (s : State) : Out :=
  .next (if p.kind = 2 && s.arrives p then s.receive p else s)

/-- WATERMARK_FLUSH (R212): flushes stay within their package. -/
def execWatermarkFlush (p : Packet) (s : State) : Out :=
  .next (if p.kind = 6 && p.spkg = s.pkgid && s.arrives p then s.receive p else s)

/-! ## Answers at the sender (R220, R228, R372) -/

/-- The unanswered operation that a count names. -/
def State.findRemote (s : State) (ctx die stream count : Nat) : Option Remote :=
  s.remotes.find? fun r => r.ctx == ctx && r.pkt.sdie == die && r.pkt.stream == stream && r.pkt.scount == count

/-- ACKNOWLEDGEMENT (R220, R370): every count that the map names. -/
def execAcknowledgement (p : Packet) (s : State) : Out :=
  if p.kind != 4 || !s.arrives p then .next s
  else match s.packetCtx p with
    | none => .next (s.taken p)
    | some c => .next ((List.range 64).foldl (fun (t : State) i =>
        if p.ext.getLsbD i then
          match t.findRemote c.num p.ddie p.stream ((p.scount + i) % 2 ^ 64) with
          | some r => if isRread r.pkt then t else t.answer r none
          | none => t
        else t) (s.taken p))

/-- DENIAL (R222). -/
def execDenial (p : Packet) (s : State) : Out :=
  if p.kind != 5 || !s.arrives p then .next s
  else
    let t := s.taken p
    match s.packetCtx p with
    | none => .next t
    | some c => match t.findRemote c.num p.ddie p.stream p.scount with
      | some r => .next (t.answer r (some (p.ext.toNat % 256)))
      | none => .next t

/-- The byte at an offset of a team's die window: where the window lies, or in the save area once it has been claimed (R268,
R316). -/
def State.dieWindowKey (s : State) (team off : Nat) : Option Nat :=
  (s.teams.find? fun t => t.key == team).bind fun t => match t.status with
    | .waiting _ => none
    | .resident => some (dieKey t.die (t.win[(2 : Fin 3)].base + off))
    | .saved _ =>
      if t.held.contains t.dieWindow then some (dieKey t.die (t.win[(2 : Fin 3)].base + off))
      else ((s.areaRuns t (t.padOff 2 0 + off) 1).head?).map (·.2.1)

/-- Where a reply's slot lies: an offset in the die window of the team that asked, or an address of the issuing context, whose page may
have to be zeroed or moved first (R228, R268, R316, R329). -/
def State.replyKey (s : State) (p : Packet) (ctx : Nat) : Landing :=
  let a := p.addr.toNat
  if bits a 63 60 = 3 then
    match (s.replies.find? fun r => r.ctx == ctx && r.die == p.ddie && r.stream == p.reqStream && r.scount == p.ext.toNat).bind fun r =>
        s.dieWindowKey r.team r.off with
    | some k => .at k { die := p.ddie, ctx := ctx, va := 0, size := 0, pa := 0 }
    | none => .refuse 0
  else if s.inMotion ctx a then .later
  else match s.translate p.ddie ctx a with
    | .leaf t => .at (t.key a) t
    | .zero _ => .later
    | _ => .refuse 0

/-- A reply lands (R228): the steps of its words, one addition for each transition, and the answer. -/
def State.landReply (s : State) (p : Packet) (c : Ctx) (key : Nat) : State :=
  let arr := key - p.addr.toNat % 256
  let step (q : State × Nat) (i : Nat) : State × Nat :=
    let r := q.1.onceAt p c.num (key + 8 * i) (bits p.value.toNat (32 * i + 31) (32 * i)); (r.1, if r.2 then q.2 + 1 else q.2)
  let (t, n) := (List.range (if p.width = 8 then 2 else 1)).foldl step (s, 0)
  let t := if n = 0 then t else t.addArrival arr n
  match t.findRemote c.num p.ddie p.reqStream p.ext.toNat with
  | some r => t.answer r none
  | none => t

/-- RREAD_REPLY (R228): one to a held row is deferred (R353). -/
def execRreadReply (p : Packet) (s : State) : Out :=
  if p.kind != 3 || !s.arrives p then .next s
  else match s.packetCtx p with
    | none => .next (s.taken p)
    | some c => match s.replyKey p c.num with
      | .later => .next (s.keep p)
      | .at key _ =>
        if s.heldRow key 16 || s.heldRow (key - p.addr.toNat % 256) 8 then .next ((s.taken p).defer p (frameStack key) (Config.bankOf key))
        else .next ((s.taken p).landReply p c key)
      | _ => .next (s.taken p)

/-- A packet of a deferral buffer whose row may be free: applied and answered, or left there (R353). -/
def State.applyDeferred (s : State) (d : Nat × Nat × Packet) : State :=
  let p := d.2.2; let u : State := { s with deferred := s.deferred.erase d }
  match s.packetCtx p with
  | none => if p.kind = 3 then u else u.denyPacket p 0x06
  | some c =>
    if p.kind = 3 then
      match s.replyKey p c.num with
      | .later => s
      | .at key _ => if s.heldRow key 16 || s.heldRow (key - p.addr.toNat % 256) 8 then s else u.landReply p c key
      | _ => u
    else
      let slice := s.sliceOf p c
      match u.homeApply p c with
      | .later | .held .. => s
      | .poison k n => (((u.notePoison k n c.num).markSeen p c slice (some false))).denyPacket p 0x0A
      | .refused r => (u.markSeen p c slice (some false)).denyPacket p r
      | .done v => if isRread p then v else (v.markSeen p c slice (some true)).ackPacket p

/-- DEFERRED_APPLY (R353): the packets of a bank's buffer whose rows are free are applied and answered. -/
def execDeferredApply (stack bank : Nat) (s : State) : Out :=
  .next ((s.deferred.filter fun d => d.1 == stack && d.2.1 == bank).foldl State.applyDeferred s)

/-- ACK_SEND (R372, R389): the queued acknowledgements of one source stream leave as one map of up to 64 counts. -/
def execAckSend (die : Nat) (s : State) : Out :=
  match s.acks.find? fun a => a.die == die && (a.pkg == s.pkgid || !s.holding) with
  | none => .next s
  | some a =>
    let same := s.acks.filter fun b => b.die == die && b.ctx == a.ctx && b.fabid == a.fabid && b.pkg == a.pkg && b.sdie == a.sdie && b.stream == a.stream
    let lo := same.foldl (fun m b => min m b.scount) a.scount
    let sent := same.filter fun b => b.scount < lo + 64
    let map := sent.foldl (fun (m : Word) b => m ||| BitVec.twoPow 64 (b.scount - lo)) 0
    .next (({ s with acks := s.acks.filter fun b => !sent.contains b } : State).emit
      { kind := 4, op := 0, dpkg := a.pkg, ddie := a.sdie, relayed := false, spkg := s.pkgid, sdie := die, stream := a.stream, fabid := a.fabid,
        scount := lo, addr := 0, ext := map, ctx := a.ctx })

/-- RETRANSMIT (R220, R233): an operation unanswered for 120 us is sent again with its tag, after a calender change
that is under way; a bulk line reads its source again, once its rows are free (R352), and a line that holds poison by then is
refused by the sender itself (R222, R378). -/
def execRetransmit (id : Nat) (s : State) : Out :=
  match s.remotes.find? fun r => r.id == id with
  | none => .next s
  | some r =>
    if s.ns < r.sent + 120000 || (s.holding && r.pkt.dpkg != s.pkgid) then .next s
    else
      let again (p : Packet) : State :=
        ({ s with remotes := s.remotes.map fun (q : Remote) => if q.id == id then { q with sent := s.ns, pkt := p } else q } : State).emit p
      match r.src with
      | none => .next (again r.pkt)
      | some src =>
        if s.lineHeld src then .next (s.noteHeld src)
        else if s.linePoison src then .next ((s.noteLine src r.ctx).answer r (some 0x0A))
        else .next (again (s.linePacket src r.pkt))

end Sys2Proof.Machine
end

