-- ==== Sys2Proof/Machine/Control.lean ====
section
/-! DEFINITION. Fetching, branches and jumps, and lane control: majors 0x3, 0x4 and 0x6 (R92, R97, R98, R104-R109). -/

namespace Sys2Proof.Machine

/-! ## Fetching (R71, R92, R323) -/

/-- The bytes of a word fetched from a virtual address; a page without X is PROT with access 3, poison is CHECK (R378). -/
def State.fetch (s : State) (va n : Nat) : Except Halt (State × Nat) :=
  match s.runs .fetch 0xFF (granuleRuns 3 0 va n) with
  | .error h => .error h
  | .ok (t, rs) =>
    match rs.find? fun r => t.poisonedAt r.2.1 r.2.2 with
    | some r => .error (.poison r.2.1 r.2.2 (poisonFault 0xFF (levelCode r.2.1)))
    | none => .ok (t, ofLeBytes (t.runBytes rs))

/-- The lane word of an index (R71). -/
def State.laneWordAt (s : State) (g : Group) (idx : Nat) : Nat := (s.launchOf g).lbase + 12 * idx

/-- n lane words from an index lie inside .lcode (R68). -/
def State.inLcode (s : State) (g : Group) (idx n : Nat) : Bool := 12 * (idx + n) ≤ (s.launchOf g).lsize

/-- A lane word read without any effect, for the interlocks; none where it cannot be read. -/
def State.peekLane (s : State) (g : Group) (idx : Nat) : Option Nat :=
  let s' := s.setCur g
  if s.inLcode g idx 1 then
    match s'.fetch (s.laneWordAt g idx) 12 with
    | .ok (_, w) => some w
    | .error _ => none
  else none

/-- The header that an entry has, or would have if fetched now. -/
def State.headerOf (s : State) (g : Group) (e : LqEntry) : Option ClauseHeader :=
  match e.hdr with
  | some h => some h
  | none => (s.peekLane g e.idx).bind decodeHeader

/-! ## Branches and jumps -/

/-- A conditional branch (R97): the target is checked only when it is taken (R92). -/
def branch (srcs : Srcs) (holds : State → Bool) (off : Word) (s : State) (regs : List (Nat × Nat) := []) : Out :=
  scalarTo srcs (fun s =>
    if holds s then (s.target (s.cur.spc + off * 4)).map fun t => (s, t) else .ok (s, s.cur.spc + 4)) s (regs := regs)

/-- BEQ (R97). -/
def execBeq (a b : Fin 64) (off : BitVec 13) (s : State) : Out :=
  branch [(10, a), (11, b)] (fun s => s.rs a == s.rs b) (sext64 off) s

/-- BNE (R97). -/
def execBne (a b : Fin 64) (off : BitVec 13) (s : State) : Out :=
  branch [(10, a), (11, b)] (fun s => s.rs a != s.rs b) (sext64 off) s

/-- BLT (R97). -/
def execBlt (a b : Fin 64) (off : BitVec 13) (s : State) : Out :=
  branch [(10, a), (11, b)] (fun s => (s.rs a).toInt < (s.rs b).toInt) (sext64 off) s

/-- BGE (R97). -/
def execBge (a b : Fin 64) (off : BitVec 13) (s : State) : Out :=
  branch [(10, a), (11, b)] (fun s => (s.rs b).toInt ≤ (s.rs a).toInt) (sext64 off) s

/-- BLTN (R97). -/
def execBltn (a b : Fin 64) (off : BitVec 13) (s : State) : Out :=
  branch [(10, a), (11, b)] (fun s => (s.rs a).toNat < (s.rs b).toNat) (sext64 off) s

/-- BGEN (R97). -/
def execBgen (a b : Fin 64) (off : BitVec 13) (s : State) : Out :=
  branch [(10, a), (11, b)] (fun s => (s.rs b).toNat ≤ (s.rs a).toNat) (sext64 off) s

/-- JMP (R98). -/
def execJmp (off : BitVec 26) (s : State) : Out :=
  scalarTo [] (fun s => (s.target (s.cur.spc + sext64 off * 4)).map fun t => (s, t)) s

/-- CALL (R98): s63 is written only when the target may be fetched. -/
def execCall (off : BitVec 26) (s : State) : Out :=
  scalarTo [] (fun s => (s.target (s.cur.spc + sext64 off * 4)).map fun t => (s.ws 63 (s.cur.spc + 4), t)) s

/-- A jump to a register (R59, R92, R98). -/
def jumpReg (a : Fin 64) (slot : Nat) : State → Out :=
  scalarTo [(slot, a)] fun s =>
    if (s.rs a).toNat % 4 ≠ 0 then failAt causeAlign slot else (s.target (s.rs a) slot).map fun t => (s, t)

/-- JR (R98). -/
def execJr (a : Fin 64) (s : State) : Out := jumpReg a 10 s

/-- RET (R98): the same effect as JR s63; the word has no operand field, so a fault names none (log 26). -/
def execRet (s : State) : Out := jumpReg 63 0xFF s

/-! ## Lane control -/

/-- The extent check of LQ and LQR (R68, R105): a header that is malformed or cannot be decoded does not fail it. Where
the read of the header misses, lacks X or meets poison, the LQ itself takes that fetch's fault (log 63, DESIGN CHOICE: the manual does
not say what the check does then). -/
def State.clauseInside (s : State) (idx : Nat) : Except Halt State :=
  if !s.inLcode s.cur idx 1 then failAt causeClause 10
  else match s.fetch (s.laneWordAt s.cur idx) 12 with
    | .error h => .error h
    | .ok (t, w) =>
      match decodeHeader w with
      | none => .ok t
      | some h => if s.inLcode s.cur idx (h.count.val + 2) then .ok t else failAt causeClause 10

/-- One clause appended to the lane queue, once there is room (R16, R105). -/
def enqueue (idx : Nat) (s : State) : Res :=
  match s.clauseInside idx with
  | .error h => .error h
  | .ok t =>
    if 8 ≤ s.cur.lq.length then stall s .lane
    else .ok (t.setCur { t.cur with lq := t.cur.lq ++ [{ idx := idx, spc := t.cur.spc }] })

/-- LQ (R105). -/
def execLq (off : BitVec 24) (s : State) : Out := scalar [] (enqueue off.toNat) s

/-- LQR (R105). -/
def execLqr (a : Fin 64) (s : State) : Out := scalar [(10, a)] (fun s => enqueue (s.rs a).toNat s) s

/-- LWAIT (R106). -/
def execLwait (s : State) : Out := scalar [] (fun s => if s.cur.lq.isEmpty then .ok s else stall s .lane) s

/-- BANY (R107). -/
def execBany (p : Fin 8) (off : BitVec 21) (s : State) : Out := branch [] (fun s => s.cur.rp p != 0) (sext64 off) s (regs := [(8, predReg p.val)])

/-- BALL (R107). -/
def execBall (p : Fin 8) (off : BitVec 21) (s : State) : Out :=
  branch [] (fun s => s.cur.rp p == 0xFFFFFFFF) (sext64 off) s (regs := [(8, predReg p.val)])

/-- BNONE (R107). -/
def execBnone (p : Fin 8) (off : BitVec 21) (s : State) : Out := branch [] (fun s => s.cur.rp p == 0) (sext64 off) s (regs := [(8, predReg p.val)])

/-- MVP (R108). -/
def execMvp (d : Fin 64) (p : Fin 8) (s : State) : Out :=
  scalar [] (fun s => .ok (s.ws d ((s.cur.rp p).setWidth 64))) s (regs := [(8, predReg p.val)])

/-- MVPS (R108). -/
def execMvps (p : Fin 8) (a : Fin 64) (s : State) : Out :=
  scalar [(10, a)] (fun s => .ok (s.setCur (s.cur.wp p ((s.rs a).setWidth 32)))) s

/-- A queued clause names a flag of the mask as flag A or B (R109). -/
def headerSets (h : ClauseHeader) (mask : BitVec 12) : Bool :=
  (match h.flagA with | some f => mask.getLsbD f.val | none => false) ||
  (match h.flagB with | some f => mask.getLsbD f.val | none => false)

/-- FWAIT's condition (R109): no queued clause names a flag of the mask and no count of the mask is non-zero. A clause whose
header cannot be read now may name any flag. -/
def State.flagsClear (s : State) (g : Group) (mask : BitVec 12) : Bool :=
  mask == 0 ||
  ((List.finRange 12).all (fun i => !mask.getLsbD i.val || g.f[i] == 0) &&
   g.lq.all fun e => match s.headerOf g e with | some h => !headerSets h mask | none => false)

/-- FWAIT (R109). -/
def execFwait (mask : BitVec 12) (s : State) : Out :=
  scalar [] (fun s => if s.flagsClear s.cur mask then .ok s else stall s .lane) s

end Sys2Proof.Machine
end

