-- ==== Sys2Proof/Machine/Resident.lean ====
section
/-! DEFINITION. Whether a group may go on: what pre-emption asks of it, its save points, and whether it is resident and not stopped
(R240, R248, R249, R314, R315). -/

namespace Sys2Proof.Machine

/-- A wait of R240, or the stall of EXIT: a save point (R315). -/
def Wait.savePoint : Wait → Bool
  | .exit | .bar _ _ | .barFence | .arrwait _ | .waita _ _ _ _ _ | .qtake | .qemit | .rquiet | .fence => true
  | _ => false

/-- The wait leaves the stream at a scalar instruction boundary: the instruction has no effect yet (R116, R315). -/
def Wait.boundary : Wait → Bool
  | .engine _ | .matrix => false
  | _ => true

/-- SPC stands at an instruction marked by .safepoint, with its entry (R308, R315). -/
def State.safePoint (s : State) (g : Group) : Option SafePoint :=
  let l := s.launchOf g
  if g.stop == .running && g.wait.boundary && !g.wait.savePoint && !g.roomWait then
    l.safePoints.find? fun p => l.scode + p.off == g.spc.toNat
  else none

/-- The group of a team asked to save has reached its save point (R240, R315, R332). -/
def State.atSavePoint (s : State) (g : Group) (timedOut : Bool) : Bool :=
  g.stop != .running || g.wait.savePoint || g.roomWait || (s.safePoint g).isSome || (timedOut && g.wait.boundary)

/-- What pre-emption asks of the group's team lets the group go on (R314, R315). -/
def State.victimRuns (s : State) (g : Group) : Bool :=
  match (s.teamOf g).victim with
  | .flush => false
  | .save _ timedOut => !s.atSavePoint g timedOut
  | _ => true

/-- The launch has been stopped by a fault's answer or a loss (R261, R384). -/
def Launch.stopped (l : Launch) : Bool := l.faulted.isSome || l.lost.isSome

/-- The group is resident, and neither pre-emption nor a stop of its launch holds it (R248, R249). -/
def State.resident (s : State) (g : Group) : Bool :=
  g.live && (s.teamOf g).status == .resident && s.victimRuns g && (!(s.launchOf g).stopped || (s.teamOf g).nmrun)

/-- The group is resident and not stopped (R248, R249). -/
def State.residentRuns (s : State) (g : Group) : Bool := g.stop == .running && s.resident g

/-- The current instruction of a stopped group's scalar stream that goes on up to its completion or acceptance (R255). -/
def Wait.goesOn : Wait → Bool
  | .batch | .sx | .matrix => true
  | _ => false

/-- The scalar stream may act: its group runs, or finishes its current instruction while the lane stream has stopped it (R253, R255). -/
def State.scalarRuns (s : State) (g : Group) : Bool :=
  s.residentRuns g || (g.wait.goesOn && (match g.stop with | .faulted _ _ | .parked _ _ _ | .parkedFull _ _ _ | .returned => true | _ => false) &&
    (g.live && (s.teamOf g).status == .resident && !(s.launchOf g).stopped))

/-- A user trap may be taken now (R114-R116, R240). -/
def State.trapTakeable (s : State) (g : Group) : Bool := s.residentRuns g && s.trapReady g

/-- The first scalar instruction of a group that has not issued (R253): an engine instruction that has been accepted has. -/
def Group.nextScalar (g : Group) : Word := match g.wait with | .engine _ => g.spc + 4 | _ => g.spc

end Sys2Proof.Machine
end

