-- ==== Sys2Proof/Machine/System.lean ====
section
/-! DEFINITION. Control registers and system words: major 0xD (R18-R30, R110-R116). -/

namespace Sys2Proof.Machine

/-! ## Control registers (R18-R30) -/

def Traps.addTimer (t : Traps) : Traps := { t with timer := true }

/-- GROUPID (R20); on a stack core only DIE is not zero (R347). -/
def Group.groupId (g : Group) : Word :=
  let p := g.place
  BitVec.ofNat 64 (p.die * 2 ^ 12 + if p.onStack then 0 else p.cluster * 2 ^ 10 + p.core * 2 ^ 8 + p.lane * 4 + p.slot)

/-- GRIDDIM (R21). -/
def Launch.gridDim (l : Launch) : Word := BitVec.ofNat 64 (l.stages.length * 2 ^ 40 + l.groups * 2 ^ 32 + l.teams % 2 ^ 32)

/-- FLAGS (R24). -/
def Group.flags (g : Group) : Word :=
  BitVec.ofNat 64 ((List.finRange 12).foldl (fun a i => if g.f[i] ≠ 0 then a + 2 ^ i.val else a) (if g.ih then 2 ^ 12 else 0))

/-- Numbers of the batches with copies outstanding, and DONE: the newest batch with none outstanding in it or before (R181). -/
def State.openBatches (s : State) (g : Group) : List (BitVec 16) :=
  s.work.filterMap fun w => if w.group == g.key then
    (match w.kind with | .copy _ _ b _ => some b | .bulk _ _ b => some b | _ => none) else none

/-- k of R181: the distance from DONE to OPEN; 0 when every copy so far has landed. -/
def State.batchGap (s : State) (g : Group) : Nat :=
  (s.openBatches g).foldl (fun m b => max m ((g.batchOpen - b).toNat + 1)) 0

/-- BATCH (R28). -/
def State.batchReg (s : State) (g : Group) : Word :=
  BitVec.ofNat 64 ((g.batchOpen - BitVec.ofNat 16 (s.batchGap g)).toNat * 2 ^ 16 + g.batchOpen.toNat)

/-- REMSTAT (R28). -/
def RemStat.word (r : RemStat) : Word :=
  BitVec.ofNat 64 (r.seq.toNat * 2 ^ 32 + r.count.toNat * 2 ^ 16 + r.reason.toNat * 2 ^ 8 + if r.d then 1 else 0)

/-- DECKLEn (R30). -/
def Window.word (w : Window) : Word := BitVec.ofNat 64 (w.size * 2 ^ 32 + w.base)

/-- What CRD reads (R19); none for a number outside the map. -/
def State.readCr (s : State) (cr : Nat) : Option Word :=
  let g := s.cur; let t := s.teamOf g; let l := s.launchOf g; let c := s.ctxOf g
  match cr with
  | 0x000 => some g.spc
  | 0x001 => some (s.lpc g)
  | 0x002 => some g.groupId
  | 0x003 => some (t.teamId.setWidth 64)
  | 0x004 => some l.gridDim
  | 0x005 => some (BitVec.ofNat 64 t.stage)
  | 0x006 => some (BitVec.ofNat 64 g.git)
  | 0x007 => some (BitVec.ofNat 64 s.pkgid)
  | 0x008 => some (BitVec.ofNat 64 (s.cycle g))
  | 0x009 => some g.cyccmp
  | 0x00A => some g.utvec
  | 0x00B => some g.uepc
  | 0x00C => some g.ucause
  | 0x00D => some g.utdata
  | 0x00E => some (g.tmask.setWidth 64)
  | 0x00F => some g.flags
  | 0x010 => some (BitVec.ofNat 64 l.lbase)
  | 0x011 => some (BitVec.ofNat 64 c.shbase)
  | 0x012 => some g.lscale
  | 0x013 => some (g.nfflag.setWidth 64)
  | 0x014 => some g.rsthr
  | 0x015 => some (g.fpctl.setWidth 64)
  | 0x016 => some (g.fpstat.setWidth 64)
  | 0x017 => some (s.batchReg g)
  | 0x018 => some g.remstat.word
  | 0x019 => some c.wmtab
  | 0x01A => some t.win[0].word
  | 0x01B => some t.win[1].word
  | 0x01C => some t.win[2].word
  | _ => none

/-- A code address as UTVEC and UEPC store it (R23). -/
def codeAddr (x : Word) : Word := x &&& 0x01FFFFFFFFFFFFFC

/-- What CWR stores, field by field (R7, R18, R22-R28); none where the register has no writable field or no number. A
CYCCMP value that is not above CYCLE makes TIMER pending at once. A TIMER that is pending already, or held under IH, stays pending
whatever is written, since the manual does not say that a write withdraws it (log 35, DESIGN CHOICE). -/
def State.writeCr (s : State) (cr : Nat) (x : Word) : Option Group :=
  let g := s.cur
  match cr with
  | 0x009 => some { g with cyccmp := x, traps := if s.timerDue g || (x ≠ 0 && x.toNat ≤ s.cycle g) then g.traps.addTimer else g.traps }
  | 0x00A => some { g with utvec := codeAddr x }
  | 0x00B => some { g with uepc := codeAddr x }
  | 0x00C => some { g with ucause := x &&& 0xFF }
  | 0x00D => some { g with utdata := x }
  | 0x012 => some { g with lscale := x &&& 0xFFFFFFFF }
  | 0x013 => some { g with nfflag := g.nfflag &&& ~~~(x.setWidth 4) }
  | 0x014 => some { g with rsthr := x &&& 0x80000000FFFFFFFF }
  | 0x015 => some { g with fpctl := if 5 ≤ x.toNat % 8 then (x.setWidth 5) &&& 0x18 else x.setWidth 5 }
  | 0x016 => some { g with fpstat := g.fpstat &&& ~~~(x.setWidth 5) }
  | 0x018 => some (if x.getLsbD 0 then { g with remstat := {} } else g)
  | _ => none

/-- CRD (R18, R110). -/
def execCrd (d : Fin 64) (cr : BitVec 12) (s : State) : Out :=
  scalar [] (fun s => match s.readCr cr.toNat with | some x => .ok (s.ws d x) | none => failAt causePriv 7) s

/-- CWR (R18, R110). -/
def execCwr (a : Fin 64) (cr : BitVec 12) (s : State) : Out :=
  scalar [(10, a)] (fun s => match s.writeCr cr.toNat (s.rs a) with | some g => .ok (s.setCur g) | none => failAt causePriv 7) s

/-! ## System words -/

/-- TRAP (R111, R23): SWTRAP becomes pending; while UTVEC is zero it completes as a no-operation. A TRAP before an earlier SWTRAP is
taken merges with it (R114); the datum is then the newer immediate, which the manual leaves open (log 36, DESIGN CHOICE). -/
def execTrap (imm : BitVec 16) (s : State) : Out :=
  scalar [] (fun s => .ok (if s.cur.utvec = 0 then s else s.setCur { s.cur with traps := { s.cur.traps with sw := some imm } })) s

/-- ERET (R115). -/
def execEret (s : State) : Out := scalarTo [] (fun s => s.returnTrap) s

/-- YIELD (R111): no architectural effect. -/
def execYield (s : State) : Out := scalar [] (fun s => .ok s) s

/-- SLEEP (R111): the first issue fixes the end, start + s[sa]; a sleep of 0 completes at once. -/
def execSleep (a : Fin 64) (s : State) : Out :=
  scalar [(10, a)] (fun s =>
    let till := match s.cur.wait with | .sleep t => t | _ => s.cycle s.cur + (s.rs a).toNat
    if s.cycle s.cur < till then stall s (.sleep till) else .ok s) s

/-- EXIT (R112): the group waits; GROUP_END ends it. -/
def execExit (s : State) : Out := scalar [] (fun s => stall s .exit) s

/-- NOP (R111). -/
def execNop (s : State) : Out := scalar [] (fun s => .ok s) s

/-- BRK (R113): a debug stop where the context was created with DEBUG, once earlier clauses have retired; otherwise NOP. -/
def execBrk (imm : BitVec 16) (s : State) : Out :=
  scalar [] (fun s =>
    if (s.ctxOf s.cur).debug then
      .error (.hold (s.scalarStop
        ({ s with
            cur := { s.cur with stop := .brk imm, wait := .none }
            hostOut := s.hostOut ++ [HostMsg.debug (s.unitOf s.cur.place) s.cur.spc imm] }.msix 258)))
    else .ok s) s

/-! ## Events of the scalar stream -/

/-- A group's event, when the group is there. -/
def onGroup (key : Nat) (f : State → State) (s : State) : Out :=
  match s.group key with
  | some _ => .next (f (s.focus key))
  | none => .next s

/-- TIMER (R22): CYCLE reaches a non-zero CYCCMP. -/
def execTimer (key : Nat) (s : State) : Out :=
  onGroup key (fun s =>
    let g := s.cur
    if s.residentRuns g && s.timerDue g then s.setCur { g with traps := g.traps.addTimer } else s) s

/-- USER_TRAP_ENTRY (R115). -/
def execUserTrapEntry (key : Nat) (s : State) : Out :=
  onGroup key (fun s => if s.trapTakeable s.cur then s.enterTrap else s) s

/-- SLEEP_END (R111). -/
def execSleepEnd (key : Nat) (s : State) : Out :=
  onGroup key (fun s => match s.cur.wait with
    | .sleep till => if till ≤ s.cycle s.cur && s.residentRuns s.cur then s.retire (s.cur.spc + 4) else s
    | _ => s) s

end Sys2Proof.Machine
end

