-- ==== Sys2Proof/Machine/Pages.lean ====
section
/-! DEFINITION. Page attributes and homes: SEAL, UNSEAL and HOME of major 0x8, layout records, and what the front end writes
into leaf entries (R182, R183, R325, R335-R338). -/

namespace Sys2Proof.Machine

/-! ## A range of pages -/

/-- The range operands of SEAL, UNSEAL and HOME (R182): none where the length is 0. A range that leaves the 57-bit address space is PROT
naming a, after the length's test (log 65, DESIGN CHOICE: R182 names no fault for it). -/
def pageRange (va len : Word) : Except Halt (Option (Nat × Nat)) := do
  ensure (va.toNat % 2 ^ 16 == 0) (namedAt causeAlign 10 va)
  ensure (len.toNat % 2 ^ 16 == 0) (named causeAlign 11)
  if len = 0 then .ok none
  else do
    ensure (len.toNat ≤ 2 ^ 40) (named causeBounds 11)
    ensure (va.toNat + len.toNat ≤ 2 ^ 57) (.fault { cause := causeProt, slot := 10, addr := va, detail := 1 })
    .ok (some (va.toNat, len.toNat))

/-- The granules of a range. -/
def granules (va len : Nat) : List Nat := (List.range (len / 2 ^ 16)).map fun i => va + i * 2 ^ 16

/-- The leaf that each walk gives, or what the instruction halts with: a page that waits for its zeroing, PROT for a malformed
leaf or, where W is needed, one without it, a miss (R161, R182, R183). -/
def leavesOf (needW : Bool) (ws : List (Nat × Walk)) : Except Halt (List (Nat × Tlb)) :=
  let prot : Option Nat := ws.findSome? fun q => match q.2 with
    | .malformed | .poisoned _ => some q.1
    | .leaf t => if needW && !t.w then some q.1 else none
    | _ => none
  let zero : Option Nat := ws.findSome? fun q => match q.2 with | .zero e => some e | _ => none
  let gone := ws.filterMap fun q => match q.2 with | .absent => some q.1 | _ => none
  match zero, prot with
  | some e, _ => .error (.zeroing e)
  | none, some a => failAddr causeProt 10 (BitVec.ofNat 64 a) 1
  | none, none =>
    if gone.isEmpty then .ok (ws.filterMap fun q => match q.2 with | .leaf t => some (q.1, t) | _ => none)
    else .error (.miss (gone.map fun a => (a, true)) (pageFault 10 (BitVec.ofNat 64 (gone.headD 0)) 1))

/-- Every page of a range translated, whatever its home and seal; a walk that has met poison notes it (R378). -/
def State.pageLeaves (s : State) (needW : Bool) (va len : Nat) : Except Halt (State × List (Nat × Tlb)) :=
  let ctx := (s.launchOf s.cur).ctx
  match leavesOf needW ((granules va len).map fun a => (a, s.translate s.cur.place.die ctx a)) with
  | .ok ls => .ok (ls.foldl (fun t q => t.cache q.2) s, ls)
  | .error (.fault f) => .error (s.protHalt f)
  | .error h => .error h

/-- A translation of a context that covers some byte of a range. -/
def Tlb.inRange (t : Tlb) (ctx va len : Nat) : Bool := t.ctx == ctx && t.va < va + len && va < t.va + 2 ^ t.size

/-! ## SEAL and UNSEAL (R182) -/

/-- Acceptance of SEAL and UNSEAL: a release of the group's earlier effects, so the stream first waits for them. -/
def sealRange (on : Bool) (a b : Fin 64) (fl : Fin 13) (s : State) : Res := do
  match ← pageRange (s.rs a) (s.rs b) with
  | none => .ok s
  | some (va, len) =>
    let (t, _) ← s.pageLeaves true va len
    if !t.cur.lq.isEmpty || !t.settled t.cur.key then stall t .clauses
    else (t.releaseRows t.cur.place).acceptStall fl (.sealing (t.launchOf t.cur).ctx va len on)

/-- SEAL (R182). -/
def execSeal (a b : Fin 64) (fl : Fin 13) (s : State) : Out := scalar [(10, a), (11, b)] (sealRange true a b fl) s

/-- UNSEAL (R182). -/
def execUnseal (a b : Fin 64) (fl : Fin 13) (s : State) : Out := scalar [(10, a), (11, b)] (sealRange false a b fl) s

/-- The SEAL bit of the leaf entry of one page: its address, the log2 of its size, the entry's address (R325). -/
def State.writeSeal (s : State) (ctx : Nat) (on : Bool) (p : Nat × Nat × Nat) : State :=
  let e := s.read p.2.2 16
  s.writeLeaf ctx p.1 (2 ^ p.2.1) p.2.2 (e - bits e 6 6 * 2 ^ 6 + if on then 2 ^ 6 else 0)

/-- The replica is of a page that has some byte in a range (R182, R328). -/
def Replica.inRange (r : Replica) (ctx va len : Nat) : Bool := r.ctx == ctx && r.page < va + len && va < r.page + 2 ^ r.size

/-- The leaf of a page by its translation, or by a walk, whether or not it is in motion. -/
def State.leafAt (s : State) (die ctx va : Nat) : Option Tlb :=
  match s.tlb.find? fun t => t.covers die ctx va with
  | some t => some t
  | none => match walkFrom s die ctx va walkLevels (s.ctx ctx).ptroot with | .leaf t => some t | _ => none

/-- SEAL_COMPLETE (R182, R325): once every access of the context that was accepted or committed is performed, the pages are
sealed, or unsealed, in every die's translation and in their leaf entries; UNSEAL discards the replicas of those pages. -/
def execSealComplete (id : Nat) (s : State) : Out :=
  match s.findWork id with
  | none => .next s
  | some x =>
    match x.kind with
    | .sealing ctx va len on =>
      if s.work.any fun y => y.id != id && y.ctx == ctx && y.kind.committed then .next s
      else
        let pages := ((granules va len).filterMap fun a => (s.leafAt x.die ctx a).map fun l => (l.va, l.size, l.entry)).dedup
        let t := pages.foldl (fun (t : State) p => t.writeSeal ctx on p) s
        let t : State := { t with
          tlb := t.tlb.map fun l => if l.inRange ctx va len then { l with sealed := on } else l
          replicas := if on then t.replicas else t.replicas.filter fun r => !r.inRange ctx va len }
        .next (t.finishWork x)
    | _ => .next s

/-! ## Layout records (R335, R336) -/

/-- A layout record. -/
structure Layout where
  base : Nat
  block : Nat
  nblk : Nat
  dies : List Nat
  mode : Nat
  map : List Nat
  deriving DecidableEq, Repr

/-- The dies of a mask, ascending. -/
def diesOf (m : Nat) : List Nat := (List.range 8).filter fun d => bit m d

/-- What a record's 64 bytes say for themselves is invalid (R336). -/
def layoutBad (r : Nat) : Bool :=
  let nblk := bits r 127 96; let mode := bits r 137 136
  bits r 15 0 != 0 || bits r 63 57 != 0 || bits r 95 64 == 0 || nblk == 0 || bits r 135 128 == 0 || mode == 3 || bits r 143 138 != 0 ||
  bits r 191 144 != 0 || bits r 511 256 != 0 || (mode != 2 && bits r 255 192 != 0) ||
  2 ^ 57 < bits r 56 16 * 2 ^ 16 + nblk * bits r 95 64 * 2 ^ 16

/-- The layout that a record gives with its MAP array (R335). -/
def layoutOf (r : Nat) (map : List Nat) : Layout :=
  { base := bits r 56 16 * 2 ^ 16, block := bits r 95 64 * 2 ^ 16, nblk := bits r 127 96, dies := diesOf (bits r 135 128), mode := bits r 137 136
    map := map }

/-- Record n of the context's layout table (R335, R336), read with its MAP array through the context's translation (log 41); none where
it is invalid, cannot be read or names no record. -/
def State.layout (s : State) (ctx n : Nat) : State × Option Layout :=
  let dir := (s.ctx ctx).ptroot + 0x2000
  if s.poisonedAt dir 10 then (s.notePoison dir 10 ctx, none)
  else if n = 0 || s.read (dir + 8) 2 < n then (s, none)
  else match s.takeVa ctx (bits (s.read dir 8) 56 6 * 64 + 64 * n) 64 with
    | (t, none) => (t, none)
    | (t, some r) =>
      if layoutBad r then (t, none)
      else if bits r 137 136 != 2 then (t, some (layoutOf r []))
      else match t.takeVa ctx (bits r 255 192) (bits r 127 96) with
        | (u, none) => (u, none)
        | (u, some m) =>
          let map := (List.range (bits r 127 96)).map fun b => bits m (8 * b + 7) (8 * b)
          (u, if map.any fun d => !(diesOf (bits r 135 128)).contains d then none else some (layoutOf r map))

/-- The die of block b (R336). -/
def Layout.dieOf (l : Layout) (b : Nat) : Nat :=
  let n := l.dies.length
  match l.mode with
  | 0 => l.dies[b % n]?.getD 0
  | 1 => l.dies[b * n / l.nblk]?.getD 0
  | _ => l.map[b]?.getD 0

/-- The die of the block that holds an address; none outside the tensor. -/
def Layout.dieAt (l : Layout) (va : Nat) : Option Nat :=
  if l.base ≤ va && va < l.base + l.nblk * l.block then some (l.dieOf ((va - l.base) / l.block)) else none

/-! ## HOME (R183, R338) -/

/-- A frame of 2^size bytes from a die's migration pool: a returned frame of that size, else the next bytes of the pool's
region (log 31); none where the pool cannot hold it. -/
def State.takeFrame (s : State) (die size : Nat) : Option (Nat × State) :=
  match s.pool.find? fun f => f.1 == die && f.2.2 == size with
  | some f => some (f.2.1, { s with pool := s.pool.filter (· != f) })
  | none =>
    if h : die < 8 then
      let total := s.params.migrationGiB * 2 ^ 30; let base := (die + 1) * 2 ^ 37 - total
      let at_ := (s.poolTaken[die] + 2 ^ size - 1) / 2 ^ size * 2 ^ size
      if at_ + 2 ^ size ≤ total then some (base + at_, { s with poolTaken := s.poolTaken.set die (at_ + 2 ^ size) }) else none
    else none

/-- Frames for the pages to be moved: page, destination die, layout id; none where a pool cannot hold them. -/
def State.takeFrames (s : State) : List (Tlb × Nat × Nat) → Option (List (Nat × Nat × Nat) × State)
  | [] => some ([], s)
  | (t, die, lay) :: r =>
    match s.takeFrame die t.size with
    | none => none
    | some (f, u) => (State.takeFrames u r).map fun q => ((t.va, f, lay) :: q.1, q.2)

/-- The home descriptor's own faults (R183). -/
def homeBad (d : Nat) (dieMask : BitVec 8) : Bool :=
  bits d 63 32 != 0 || bits d 15 12 != 0 || 2 < bits d 11 8 || bits d 7 0 == 0 || bits d 7 0 &&& (255 - dieMask.toNat) != 0

/-- The layout record that a page of a HOME goes by; 0 for none (R183, R338). -/
def homeRecord (d : Nat) (t : Tlb) : Nat := if bits d 11 8 = 2 then (if bits d 31 16 = 0 then t.layout else bits d 31 16) else 0

/-- Where page i of a HOME goes, and the layout id it gets (R183, R338); none where its record does not place it. -/
def homeOf (layouts : List (Nat × Option Layout)) (d : Nat) (i : Nat) (t : Tlb) : Option (Nat × Nat) :=
  let dies := diesOf (bits d 7 0)
  match bits d 11 8 with
  | 0 => some (dies.headD 0, 0)
  | 1 => some (dies[i % dies.length]?.getD 0, 0)
  | _ =>
    let n := homeRecord d t
    ((layouts.find? fun q => q.1 == n).bind (·.2)).bind fun l => (l.dieAt t.va).bind fun die => if dies.contains die then some (die, n) else none

/-- Each of some layout records read once (R335). -/
def State.layouts (s : State) (ctx : Nat) (ns : List Nat) : State × List (Nat × Option Layout) :=
  ns.foldl (fun q n => let r := q.1.layout ctx n; (r.1, q.2 ++ [(n, r.2)])) (s, [])

/-- The whole pages of a range that is not empty, as one range. -/
def wholePages (pages : List Tlb) (va len : Nat) : Nat × Nat :=
  let lo := pages.foldl (fun a p => min a p.va) va
  (lo, pages.foldl (fun a p => max a (p.va + 2 ^ p.size)) (va + len) - lo)

/-- HOME (R183, R338): every page leaves translation; those that lie on the device have each its new frame. A page in host memory, which is
homed on every die (R324), stays where it is and its layout is not written (log 66, DESIGN CHOICE: R183 does not say what moves
there). -/
def homeRange (a b c : Fin 64) (fl : Fin 13) (s : State) : Res := do
  let d := (s.rs c).toNat
  match ← pageRange (s.rs a) (s.rs b) with
  | none => .ok s
  | some (va, len) =>
    ensure (!homeBad d (s.launchOf s.cur).dieMask) (namedAt causeProt 12 (s.rs c))
    let ctx := (s.launchOf s.cur).ctx
    let (t, ls) ← s.pageLeaves false va len
    let pages := (ls.map (·.2)).dedup
    let (t, recs) := t.layouts ctx ((pages.map (homeRecord d)).dedup.filter (· != 0))
    let goals := pages.zipIdx.map fun (p, i) => (p, homeOf recs d i p)
    ensure (goals.all fun q => q.2.isSome) (.hold (t.scalarFault { cause := causeProt, slot := 12, addr := s.rs c }))
    let moves := goals.filterMap fun q => if q.1.hm then none else q.2.map fun g => (q.1, g.1, g.2)
    let _ ← t.raiseFlag (flagOf fl)
    match t.takeFrames moves with
    | none => .error (.hold (t.scalarFault { cause := causeBounds, slot := 12 }))
    | some (fs, u) => let m := wholePages pages va len; u.acceptStall fl (.home ctx m.1 m.2 fs)

/-- HOME (R183). -/
def execHome (a b c : Fin 64) (fl : Fin 13) (s : State) : Out := scalar [(10, a), (11, b), (12, c)] (homeRange a b c fl) s

/-- One page moved: its bytes and their poison, its leaf entry, and what was to be added to or sent from it; its old frame goes to its own
die's pool (R183, R338). -/
def State.movePage (ctx die : Nat) (s : State) (p : Nat × Nat × Nat) : State :=
  match s.leafAt die ctx p.1 with
  | none => s
  | some t =>
    let n := 2 ^ t.size
    let u := s.moveSeg ctx { src := t.pa, dst := p.2.1, len := n }
    let e := u.read t.entry 16
    let u := u.writeLeaf ctx t.va n t.entry (e % 2 ^ 9 + p.2.1 + bits e 111 64 * 2 ^ 64 + p.2.2 * 2 ^ 112)
    ({ u with
      pool := u.pool ++ [(frameDie t.pa, t.pa, t.size)]
      tlb := u.tlb.filter fun l => !(l.ctx == ctx && l.va == t.va) } : State).moveRefs t.pa n p.2.1

/-- What waits for some merge-table entries goes on: a group parked on granules when the last of them is served, and every group parked
on a full table tries again (R330). -/
def State.wakeMerge (s : State) (p : Merge → Bool) : State :=
  let gone := s.merges.filter p
  if gone.isEmpty then s
  else
    let wake (g : Group) : Group :=
      if !g.live then g
      else match g.stop with
        | .parkedFull _ f _ => g.goOn f
        | .parked gs f pos =>
          let ctx := (s.launchOf g).ctx
          let left := gs.filter fun x => !gone.any fun m => m.granule == x && m.ctx == ctx && m.die == g.place.die
          if left.isEmpty then g.goOn f else { g with stop := .parked left f pos }
        | _ => g
    { s with cur := wake s.cur, others := s.others.map wake }

/-- Merge-table entries freed, and what waits for them goes on (R330). -/
def State.freeMerge (s : State) (p : Merge → Bool) : State :=
  let t := s.wakeMerge p
  { t with merges := t.merges.filter fun m => !p m }

/-- HOME_COMPLETE (R183, R325): once the context's earlier accesses are performed, every page is moved and mapped again, and
what parked on it goes on. -/
def execHomeComplete (id : Nat) (s : State) : Out :=
  match s.findWork id with
  | none => .next s
  | some x =>
    match x.kind with
    | .home ctx va len pages =>
      if s.work.any fun y => y.id < id && y.ctx == ctx && y.kind.committed then .next s
      else
        let t := pages.foldl (State.movePage ctx x.die) s
        .next ((t.finishWork x).freeMerge fun m => m.ctx == ctx && va ≤ m.granule && m.granule < va + len)
    | _ => .next s

end Sys2Proof.Machine
end

