-- ==== Sys2Proof/Machine/Copies.lean ====
section
/-! DEFINITION. Tile copies and copy batches: TMOV, TMOVA, BSEAL and BWAIT of major 0x8, and the landing of a copy
(R178-R181). -/

namespace Sys2Proof.Machine

/-- The tile descriptor (R179). -/
def descRows (d : Word) : Nat := bits d.toNat 15 0
def descBytes (d : Word) : Nat := bits d.toNat 31 16
def descSrcStride (d : Word) : Nat := bits d.toNat 47 32 * 16
def descDstStride (d : Word) : Nat := bits d.toNat 63 48 * 16

/-- TMOV, and TMOVA with its arrival word (R179, R180): nothing at all for an empty tile, else the checks in their order and
acceptance into the open batch. -/
def tileCopy (fl : Fin 13) (dst src desc : Word) (arr : Option Word) (s : State) : Res :=
  let n := descRows desc; let w := descBytes desc
  if n = 0 || w = 0 then .ok s
  else do
    let ta ← taggedOf .write dst 10
    let tb ← taggedOf .read src 11
    let tc ← match arr with | none => .ok none | some x => (taggedOf .write x 12).map some
    ensure (ta.addr % 16 == 0) (namedAt causeAlign 10 dst)
    ensure (tb.addr % 16 == 0) (namedAt causeAlign 11 src)
    ensure (w % 16 == 0) (named causeAlign 12)
    ensure (match tc with | some t => t.addr % 8 == 0 | none => true) (namedAt causeAlign 12 (arr.getD 0))
    let arrSide : List Side := match tc with | some t => [{ acc := .write, slot := 12, tag := t, pieces := [(0, 8)] }] | none => []
    let (t, runs) ← s.sides ([{ acc := .write, slot := 10, tag := ta, pieces := tileRows n w (descDstStride desc) },
      { acc := .read, slot := 11, tag := tb, pieces := tileRows n w (descSrcStride desc) }] ++ arrSide)
    let moved := (List.zip (runs[1]?.getD []) (runs[0]?.getD [])).map fun q => matchRuns q.1 q.2
    let key := (runs[2]?.bind fun r => r.head?.bind fun p => p.head?).map fun r => r.2.1
    t.acceptWork fl (.copy moved key t.cur.batchOpen (n * w))

/-- TMOV (R179). -/
def execTmov (a b c : Fin 64) (fl : Fin 13) (s : State) : Out :=
  lacking (fun s => stackLacksTag s.cur (s.rs a) || stackLacksTag s.cur (s.rs b))
    (scalar [(10, a), (11, b), (12, c)] fun s => tileCopy fl (s.rs a) (s.rs b) (s.rs c) none s) s

/-- The two registers of an even c (R69). -/
def pairLo (c : Fin 32) : Fin 64 := ⟨2 * c.val, by omega⟩
def pairHi (c : Fin 32) : Fin 64 := ⟨2 * c.val + 1, by omega⟩

/-- TMOVA (R180). -/
def execTmova (a b : Fin 64) (c : Fin 32) (fl : Fin 13) (s : State) : Out :=
  lacking (fun s => stackLacksTag s.cur (s.rs a) || stackLacksTag s.cur (s.rs b) || stackLacksTag s.cur (s.rs (pairHi c)))
    (scalar [(10, a), (11, b), (12, pairLo c), (12, pairHi c)] fun s =>
      tileCopy fl (s.rs a) (s.rs b) (s.rs (pairLo c)) (some (s.rs (pairHi c))) s) s

/-- BSEAL (R181): with 255 incomplete batches it waits. -/
def execBseal (a : Fin 64) (s : State) : Out :=
  scalar [] (fun s =>
    if 255 ≤ s.batchGap s.cur then stall s .sx
    else
      let open_ := s.cur.batchOpen
      .ok ((s.setCur { s.cur with batchOpen := open_ + 1 }).ws a (open_.setWidth 64))) s

/-- The beater disagreements that the group issued commands into, reported at its next BWAIT, FENCE or BAR (R376); while clauses are
enqueued the CHECK waits for them (R254), and is still to be raised should one of them stop the group. -/
def State.beaterCheck (s : State) : Except Halt State :=
  match s.beaterChecks.find? fun c => c.1 == s.cur.key with
  | none => .ok s
  | some (_, bank, lvl) =>
    if !s.cur.lq.isEmpty then stall s (.drain none)
    else .error (.hold ({ s with beaterChecks := s.beaterChecks.filter fun c => c.1 != s.cur.key }.scalarFault
      { cause := causeCheck, hw := true, detail := BitVec.ofNat 64 (2 * 2 ^ 56 + lvl * 2 ^ 16 + bank % 2 ^ 16) }))

/-- BWAIT (R181): waits while its batch is one of the incomplete ones; a denial seen by then is made pending. -/
def execBwait (b : Fin 64) (s : State) : Out :=
  scalar [(11, b)] (fun s => do
    let s ← s.beaterCheck
    let n : BitVec 16 := (s.rs b).setWidth 16
    if (s.cur.batchOpen - n).toNat < s.batchGap s.cur then stall s .batch
    else if s.cur.remstat.d then .ok (s.setCur { s.cur with traps := { s.cur.traps with remote := true } })
    else .ok s) s

/-- COPY_LANDED (R179, R180): the rows are moved, then the arrival word is added to, and the batch and flag are done. It
waits for rows that a stack core holds, and on a stack core for refreshes (R350, R352), where the addition is a memory-side release
(R275, R284). -/
def execCopyLanded (id : Nat) (s : State) : Out :=
  match s.findWork id with
  | none => .next s
  | some x =>
    match x.kind with
    | .copy rows arrival _ total =>
      let p := ((s.group x.group).getD {}).place; let core := p.coreIx
      let runs := rows.flatten.flatMap (fun g => [(g.src, g.len), (g.dst, g.len)]) ++ (arrival.toList.map fun k => (k, 8))
      if runs.any fun r => s.runRefreshing p r.1 r.2 then .next s
      else if runs.any fun r => s.runHeld core r.1 r.2 then .next (runs.foldl (fun (t : State) r => t.noteRun core r.1 r.2) s)
      else
        let t := runs.foldl (fun (t : State) r => t.allBank p r.1) s
        let t := rows.foldl (fun (t : State) gs => (gs.foldl (fun (t : State) g => t.holdRun p g.dst g.len) t).moveSegs x.ctx gs) t
        let t := match arrival with
          | none => t
          | some k => ((t.holdRun p k 8).engineArrival k total (total / 128) 0).releaseRows p
        .next (t.finishWork x)
    | _ => .next s

end Sys2Proof.Machine
end

