-- ==== Sys2Proof/Machine/Remote.lean ====
section
/-! DEFINITION. The lane remote class, opcodes 0xE0 to 0xE7, and RBULK and RQUIET of major 0x9 (R217, R218, R223-R234). -/

namespace Sys2Proof.Machine

/-! ## Peers (R217, R224) -/

def peerSelf : Nat := 0xFFFF
def peerPkg (p : Nat) : Nat := bits p 10 3
def peerDie (p : Nat) : Nat := bits p 2 0

/-- A malformed peer, one beyond the domain, or another package for a context off the fabric (R224, R363). -/
def State.peerBad (s : State) (p : Nat) : Bool :=
  bits p 31 16 != 0 ||
  (p != peerSelf && (bits p 15 11 != 0 ||
    (peerPkg p != s.pkgid && ((s.ctxOf s.cur).fabid == 0 || s.domain ≤ peerPkg p))))

/-- The peer can be sent to. -/
def State.peerReached (s : State) (p : Nat) : Bool := p == peerSelf || s.reachable (peerPkg p) (peerDie p)

/-! ## The lines of a PEER_SELF target (R224) -/

/-- A target of the issuing context on any die: PAGE, PROT, SEALED or good; whether it is written, and whether it is the code of a running
launch, which no device writes (R83). -/
def remoteLine (write code : Bool) : Walk → Line
  | .absent => .page
  | .malformed | .poisoned _ => .prot
  | .zero e => .zero e
  | .leaf t =>
    if t.sa || (if write then !(t.w && t.rwr) || code else !t.r) then .prot
    else if write && t.sealed then .sealed
    else .good t

/-- One thread's operation. -/
structure RemoteReq where
  thread : Fin 32
  peer : Nat
  addr : Nat
  value : Nat
  deriving DecidableEq, Repr

/-- The value operand of a thread: 8 bytes for the .b64 members and for a reply address, else 4 (R223). -/
def remoteValue (g : Group) (op : Nat) (w : LaneFields) (t : Fin 32) : Nat :=
  if op = 0xE4 || op = 0xE5 || op = 0xE6 then (if w.i then w.imm.toNat else dataOf g w.b 8 t) else (srcB g w t).toNat

/-- A reply slot's alignment (R228). -/
def replyAligned (slot width : Nat) : Bool :=
  slot % 8 == 0 && 8 ≤ slot % 256 && slot % 256 ≤ (if width = 8 then 240 else 248)

/-- The line of the reply block of an RREAD, where it has one (R228). -/
def State.replyLine (s : State) (op : Nat) (q : RemoteReq) : Option Line :=
  if op = 0xE6 && bits q.value 63 60 = 0 then some (s.lineAt s.cur.place (s.launchOf s.cur).ctx .write (q.value % 2 ^ 57)) else none

/-- The line of an address of the issuing context's own (R218, R224). -/
def State.selfLine (s : State) (write : Bool) (va : Nat) : Line :=
  let ctx := (s.launchOf s.cur).ctx
  if bits va 63 57 != 0 then .prot else remoteLine write (s.codePage ctx va) (s.translate s.cur.place.die ctx va)

/-- The line of a PEER_SELF target (R224). -/
def State.targetLine (s : State) (op : Nat) (q : RemoteReq) : Option Line :=
  if q.peer = peerSelf then some (s.selfLine (op != 0xE6) q.addr) else none

/-- A line lets its thread's operation go. -/
def lineGood : Option Line → Bool
  | none | some (.good _) => true
  | _ => false

/-- The first cause among lines, in R161's order. -/
def linesCause (ls : List Line) : Option Nat :=
  if ls.contains .prot then some causeProt
  else if ls.contains .sealed then some causeSealed
  else if ls.contains .remote then some causeRemoteLocal
  else if ls.contains .page then some causePage
  else none

/-- The die that a PEER_SELF address is homed on; an HM page goes to the issuing die, which refuses it (R324). -/
def State.selfDie (s : State) (va : Nat) : Nat :=
  let die := s.cur.place.die
  match s.translate die (s.launchOf s.cur).ctx va with
  | .leaf t => if t.hm then die else frameDie t.pa
  | _ => die

/-- The reply slot of an RREAD in a die window, noted with the count that the request is about to take (R228, R268). -/
def State.noteReply (s : State) (op : Nat) (q : RemoteReq) : State :=
  let p := s.cur.place; let ctx := (s.launchOf s.cur).ctx
  if op = 0xE6 && bits q.value 63 60 = 3 then
    { s with replies := { ctx := ctx, die := p.die, stream := streamOf p, scount := s.nextCount ctx p.die (streamOf p), team := s.cur.team, off := bits q.value 31 0 } :: s.replies }
  else s

/-- The packet of one thread's operation (R370). -/
def State.remotePacket (s : State) (op : Nat) (w : LaneFields) (q : RemoteReq) : Packet :=
  let self := q.peer == peerSelf; let p := s.cur.place
  { kind := 1, op := op, dpkg := if self then s.pkgid else peerPkg q.peer, ddie := if self then s.selfDie q.addr else peerDie q.peer,
    relayed := false, spkg := s.pkgid, sdie := p.die, stream := streamOf p, fabid := 0, scount := 0, addr := BitVec.ofNat 64 q.addr,
    ext := if op = 0xE6 then BitVec.ofNat 64 q.value else 0, value := if op = 0xE6 then 0 else BitVec.ofNat 64 q.value, ty := w.ty.val,
    anchor := if op = 0xE7 then BitVec.ofNat 8 w.x.val else 0, ctx := (s.launchOf s.cur).ctx, virt := self }

/-- Operations sent as work on the instruction's flag; without room in the stream or the flag's count, or while a calender
change holds the sends, the lane waits (R14, R219, R389); a wait for room is marked (R240). -/
def State.sendAll (s : State) (op : Nat) (w : LaneFields) (qs : List RemoteReq) : Res :=
  let g := s.cur; let ctx := (s.launchOf g).ctx
  if qs.isEmpty then .ok s
  else if !s.room ctx g.place.die (streamOf g.place) qs.length || (s.holding && qs.any fun q => q.peer != peerSelf && peerPkg q.peer != s.pkgid) then
    .error (.hold (s.setCur { g with roomWait := true }))
  else do
    let id := s.nextId
    let t ← s.commitLane (g.flagSel w) (.remote qs.length)
    .ok (qs.foldl (fun (u : State) q => (u.noteReply op q).sendOp g.key id (s.remotePacket op w q)) t)

/-- Step 6 of R224 on the reply blocks' pages (R228, R161): none of the instruction takes effect, so a PAGE replays all of it; every missing
page is asked for, whatever the cause. -/
def State.replyHalt (s : State) (op : Nat) (qs : List RemoteReq) (act : Word32) (uni : Bool) : Option Halt :=
  let ls := qs.filterMap fun q => (s.replyLine op q).map fun l => (q, l)
  match ls.findSome? fun l => match l.2 with | .zero e => some e | _ => none with
  | some e => some (.zeroing e)
  | none =>
    (linesCause (ls.map (·.2))).map fun cause =>
      let bad := ls.filter fun l => !lineGood (some l.2)
      let mask := if uni then act else maskOf fun u => bad.any fun l => l.1.thread == u
      let first := bad.find? fun l => l.1.thread == lowest mask
      let addr := BitVec.ofNat 64 (((if uni then bad.head? else first).map fun l => l.1.value).getD 0)
      let asks := (bad.filter fun l => l.2 == .page).map fun l => (granuleOf (l.1.value % 2 ^ 57), true)
      if cause = causePage then .miss asks (pageFault 11 addr Acc.write.code mask)
      else
        let h := s.protHalt { cause := cause, slot := 11, tmask := mask, addr := addr, detail := Acc.write.code }
        if asks.isEmpty then h else .hold ((s.askPages asks).1.laneHalt h)

/-- Acceptance of a lane remote instruction (R224): peer, alignment, payload, reachability, reply block, then the targets' lines, of
which the good ones commit, once the group's earlier lane accesses to the same bytes are performed (R273). A fault's ADDR is the target's address, or the reply slot's where it names b (R256). -/
def acceptRemote (op : Nat) (w : LaneFields) (s : State) (act : Word32) : Res :=
  let g := s.cur
  let ts := if w.u then [lowest act] else threads act
  let width := remoteBytes op w.ty.val
  let req (t : Fin 32) : RemoteReq :=
    { thread := t, peer := (g.rv w.c t).toNat, addr := dataOf g w.a 8 t, value := remoteValue g op w t }
  let qs := ts.map req
  let failing (p : RemoteReq → Bool) : Word32 :=
    let m := maskOf fun t => qs.any fun q => q.thread == t && p q
    if m != 0 && w.u then act else m
  let peerOf (m : Word32) : Nat := (req (if w.u then lowest act else lowest m)).peer
  let addrOf (f : RemoteReq → Nat) (t : Fin 32) : Nat := f (req t)
  let deny := failing fun q => s.peerBad q.peer
  let misA := failing fun q => q.addr % width != 0
  let misB := failing fun q => op == 0xE6 && !replyAligned q.value width
  let once := failing fun q => op == 0xE4 && q.value % 2 ^ 63 == 2 ^ 63 - 1
  let away := failing fun q => !s.peerReached q.peer
  let space := failing fun q => op == 0xE6 && !((bits q.value 63 60 == 0 && bits q.value 59 57 == 0) || (bits q.value 63 60 == 3 && bits q.value 59 32 == 0))
  let block := failing fun q => op == 0xE6 && bits q.value 63 60 == 3 && s.windowSize g 2 < bits q.value 31 0 / 256 * 256 + 256
  let fault (cause slot : Nat) (m : Word32) (f : RemoteReq → Nat) (d : Nat) : Res := .error (.fault (memFault cause slot m (addrOf f) d none))
  if op = 0xE5 && s.lanePending g.key then .error (.hold s)
  else if deny != 0 then fault causeRemoteDeny 12 deny (·.addr) (peerOf deny)
  else if misA ||| misB != 0 then
    (if misA != 0 then fault causeAlign 10 (misA ||| misB) (·.addr) 0 else fault causeAlign 11 misB (·.value) 0)
  else if once != 0 then fault causeOnceIllegal 11 once (·.addr) 0
  else if away != 0 then fault causeRemoteUnreach 12 away (·.addr) (peerOf away)
  else if space != 0 then fault causeProt 11 space (·.value) 1
  else if block != 0 then fault causeDeckle 11 block (·.value) 2
  else match s.replyHalt op qs act w.u with
  | some h => .error h
  | none =>
    let lines := qs.map fun q => (q, s.targetLine op q)
    match lines.findSome? fun l => match l.2 with | some (.zero e) => some e | _ => none with
    | some e => .error (.zeroing e)
    | none =>
      let meets := lines.any fun l => match l.2 with | some (.good r) => s.threadMeets g.key l.1.thread.val (r.key l.1.addr, width) | _ => false
      if meets then .error (.hold s) else
      let ctx := (s.launchOf g).ctx
      let s := qs.foldl (fun (t : State) q => [t.replyLine op q, t.targetLine op q].foldl (fun (t : State) l => match l with
        | some (.good r) => t.cache r
        | some .prot => t.noteWalk g.place.die ctx q.addr
        | _ => t) t) s
      let bad := lines.filter fun l => !lineGood l.2
      let good := (lines.filter fun l => lineGood l.2).map (·.1)
      match linesCause (bad.filterMap (·.2)) with
      | none => s.sendAll op w good
      | some cause =>
        match s.sendAll op w good with
        | .error h => .error h
        | .ok t =>
          let mask := if w.u then act else maskOf fun u => bad.any fun l => l.1.thread == u
          let asks := (bad.filter fun l => l.2 == some .page).map fun l => (granuleOf l.1.addr, op != 0xE6)
          let f : FaultInfo := {
            cause := cause, slot := 10, lane := true, tmask := mask, part := !good.isEmpty, addr := BitVec.ofNat 64 (req (lowest mask)).addr
            detail := if op = 0xE6 then Acc.read.code else Acc.atomic.code }
          if cause = causePage then .error (.hold (t.park asks f t.cur.clpos))
          else
            let u := if asks.isEmpty then t else (t.askPages asks).1
            .error (.hold (u.laneHalt (.fault f)))

/-- RADD (R225). -/
def execRadd (w : LaneFields) (s : State) : Out := lane 0xE0 w (acceptRemote 0xE0 w) s

/-- RMIN (R225). -/
def execRmin (w : LaneFields) (s : State) : Out := lane 0xE1 w (acceptRemote 0xE1 w) s

/-- RMAX (R225). -/
def execRmax (w : LaneFields) (s : State) : Out := lane 0xE2 w (acceptRemote 0xE2 w) s

/-- ROR (R225). -/
def execRor (w : LaneFields) (s : State) : Out := lane 0xE3 w (acceptRemote 0xE3 w) s

/-- RONCE (R227). -/
def execRonce (w : LaneFields) (s : State) : Out := lane 0xE4 w (acceptRemote 0xE4 w) s

/-- RARRIVE (R225): a release at system scope, held until the group's lane memory instructions have completed (R275). -/
def execRarrive (w : LaneFields) (s : State) : Out := lane 0xE5 w (acceptRemote 0xE5 w) s

/-- RREAD (R228). -/
def execRread (w : LaneFields) (s : State) : Out := lane 0xE6 w (acceptRemote 0xE6 w) s

/-- RADDF (R225). -/
def execRaddf (w : LaneFields) (s : State) : Out := lane 0xE7 w (acceptRemote 0xE7 w) s

/-! ## RBULK and RQUIET (R232-R234) -/

/-- The bulk descriptor (R232). -/
structure BulkDesc where
  mcount : Nat
  mode : Nat
  len : Nat
  peer : Nat
  deriving DecidableEq, Repr

def parseBulk (d : Nat) : BulkDesc := { mcount := bits d 63 56, mode := bits d 55 52, len := bits d 51 24, peer := bits d 15 0 }

/-- Step 1 of R232. -/
def bulkBad (d : Nat) (x : BulkDesc) : Bool :=
  bits d 23 16 != 0 || 6 < x.mode || x.len % 128 != 0 || (x.peer == peerSelf && x.mcount != 0)

/-- The destinations: the peer, and the packages that follow it on the same die (R232). -/
def bulkPeers (x : BulkDesc) : List Nat :=
  (List.range (x.mcount + 1)).map fun i => if x.peer = peerSelf then peerSelf else (peerPkg x.peer + i) % 256 * 8 + peerDie x.peer

/-- A PEER_SELF range of an RBULK checked page by page; PROT for an address above the address space (R218, R232). -/
def State.bulkLines (s : State) (slot a n : Nat) : List (Side × Found) :=
  let side : Side := { acc := .atomic, slot := slot, tag := .va a, pieces := [(0, n)] }
  (granuleRuns (n / 2 ^ 16 + 2) 0 a n).map fun r =>
    (side, { piece := 0, off := r.1, len := r.2.2, va := r.2.1, key := 0
             line := some (s.selfLine true r.2.1) })

/-- RBULK (R232): the checks in their order, then the lines wait to be sent in the open batch (R181, R233). -/
def bulkBody (a b : Fin 64) (c : Fin 32) (fl : Fin 13) (s : State) : Res := do
  let d := (s.rs (pairLo c)).toNat; let x := parseBulk d; let arr := (s.rs (pairHi c)).toNat; let dst := (s.rs a).toNat
  let hasArr := arr != 2 ^ 64 - 1; let peers := bulkPeers x; let g := s.cur
  ensure (!bulkBad d x) (named causeBounds 12)
  if x.len = 0 then .ok s
  else do
    ensure (!s.peerBad x.peer && peers.all fun p => !s.peerBad p) (.fault { cause := causeRemoteDeny, slot := 12, addr := s.rs a, detail := BitVec.ofNat 64 x.peer })
    ensure (dst % 128 == 0) (namedAt causeAlign 10 (s.rs a))
    ensure (!hasArr || arr % 8 == 0) (namedAt causeAlign 12 (s.rs (pairHi c)))
    match peers.find? fun p => !s.peerReached p with
    | some p => .error (.fault { cause := causeRemoteUnreach, slot := 12, addr := s.rs a, detail := BitVec.ofNat 64 p })
    | none => do
      let tb ← taggedOf .read (s.rs b) 11
      ensure (match tb with | .pad 0 _ => false | _ => true) (namedAt causeProt 11 (s.rs b) Acc.read.code)
      let (s, runs) ← s.sides [{ acc := .read, slot := 11, tag := tb, pieces := tileRows (x.len / 128) 128 128 }]
      let own := if x.peer = peerSelf then s.bulkLines 10 dst x.len ++ (if hasArr then s.bulkLines 12 arr 8 else []) else []
      match sidesHalt own with
      | some (.fault f) => .error (s.asking (sidesAsks own) (s.protHalt f))
      | some h => .error h
      | none => do
        let sources := (runs.headD []).map fun r => r.map (·.2)
        let pkt (p i : Nat) : Packet :=
          let self := p == peerSelf; let va := dst + 128 * i
          { kind := 2, op := x.mode, dpkg := if self then s.pkgid else peerPkg p, ddie := if self then s.selfDie va else peerDie p, relayed := false,
            spkg := s.pkgid, sdie := g.place.die, stream := streamOf g.place, fabid := 0, scount := 0, addr := BitVec.ofNat 64 va,
            ext := if hasArr then BitVec.ofNat 64 arr else BitVec.allOnes 64, ctx := (s.launchOf g).ctx, virt := self }
        let lines := peers.flatMap fun p => sources.zipIdx.map fun (k, i) => (k, pkt p i)
        let id := s.nextId
        let t ← s.acceptWork fl (.bulk lines lines.length g.batchOpen)
        .ok (t.pump lines.length id)

/-- RBULK (R232); a stack core lacks it (R348). -/
def execRbulk (a b : Fin 64) (c : Fin 32) (fl : Fin 13) (s : State) : Out :=
  lacking (fun s => s.cur.place.onStack) (scalar [(10, a), (11, b), (12, pairLo c), (12, pairHi c)] (bulkBody a b c fl)) s

/-- The group has remote operations or RBULK packets without an answer. -/
def State.remotePending (s : State) (g : Nat) : Bool :=
  s.work.any fun w => w.group == g && match w.kind with | .remote _ | .bulk .. => true | _ => false

/-- A denial recorded makes REMOTE_ASYNC pending (R222). -/
def Group.noteDenial (g : Group) : Group := if g.remstat.d then { g with traps := { g.traps with remote := true } } else g

/-- RQUIET (R234); a stack core lacks it (R348). -/
def execRquiet (s : State) : Out :=
  lacking (fun s => s.cur.place.onStack)
    (scalar [] fun s => if s.remotePending s.cur.key then stall s .rquiet else .ok (s.setCur s.cur.noteDenial)) s

end Sys2Proof.Machine
end

