-- ==== Sys2Proof/Machine/Sync.lean ====
section
/-! DEFINITION. Fences, barriers, arrival words, waits on an address and stage queues: majors 0xA and 0xC (R229-R231,
R235-R240). -/

namespace Sys2Proof.Machine

/-! ## Fences and barriers (R235, R236) -/

/-- Work that a FENCE waits for (R235). -/
def WorkKind.fenced : WorkKind → Bool
  | .laneMem .. | .burst .. | .hostAtomic .. | .copy .. | .drain .. | .qtile .. => true
  | _ => false

/-- The wait of FENCE at a scope: earlier clauses, lane memory, copies, drains and QTILEs; from die scope on, remote
answers. -/
def State.fenceDone (s : State) (scope : Nat) : Bool :=
  s.cur.lq.isEmpty && !(s.work.any fun w => w.group == s.cur.key && w.kind.fenced) && (scope < 2 || !s.remotePending s.cur.key)

/-- FENCE (R235). -/
def execFence (c : Fin 64) (s : State) : Out :=
  scalar [(12, c)] (fun s => do
    let scope := (s.rs c).toNat
    ensure (scope < 6) (named causeBounds 12)
    if !s.fenceDone scope then stall s .fence
    else
      let t ← (s.releaseRows s.cur.place).beaterCheck
      .ok (t.setCur t.cur.noteDenial)) s

/-- A group that takes part in barriers of its own alone: one on a stack core, or that came from one (R347, R349). -/
def State.alone (s : State) (g : Group) : Bool := (s.teamOf g).nmrun

/-- The groups that take part in a barrier of a group at a scope (R236). -/
def State.participants (s : State) (g : Group) (scope : Nat) : List Group :=
  let t := s.teamOf g
  if scope = 0 then s.groups.filter fun h => h.live && h.team == g.team
  else s.groups.filter fun h =>
    let u := s.teamOf h
    h.live && !u.nmrun && u.launch == t.launch && (scope == 2 || u.die == t.die)

/-- The group has arrived at a barrier of a scope that is not yet released. -/
def Group.arrived (g : Group) (scope : Nat) : Bool := g.wait == .bar scope false

/-- BAR (R236): the wait of FENCE, then arrival; released, it completes. -/
def execBar (c : Fin 64) (s : State) : Out :=
  scalar [(12, c)] (fun s => do
    match s.cur.wait with
    | .bar _ true => .ok s
    | .bar scope false => stall s (.bar scope false)
    | _ =>
      let scope := (s.rs c).toNat
      ensure (scope < 3) (named causeBounds 12)
      let l := s.launchOf s.cur
      ensure (scope == 0 || (l.coop && l.stages.length == 1 && !s.alone s.cur))
        (.fault { cause := causeBarrier, slot := 12, detail := BitVec.ofNat 64 scope })
      if !s.fenceDone (scope + 1) then stall s .barFence
      else do
        let t ← (s.releaseRows s.cur.place).beaterCheck
        if s.alone s.cur then .ok t else stall t (.bar scope false)) s

/-- BARRIER_RELEASE (R236): when every participant of the group's barrier has arrived, each completes; one that is saved or
stopped completes when it goes on. -/
def execBarrierRelease (key : Nat) (s : State) : Out :=
  match s.group key with
  | none => .next s
  | some g =>
    match g.wait with
    | .bar scope false =>
      let ps := s.participants g scope
      if !ps.all (fun h => h.arrived scope) then .next s
      else
        let free (h : Group) : Group :=
          if (s.teamOf h).status == .resident && h.stop == .running then
            { h with spc := h.spc + 4, wait := .none, retired := h.retired + 1 }
          else { h with wait := .bar scope true }
        .next (ps.foldl (fun t h => t.updGroup h.key free) s)
    | _ => .next s

/-! ## Arrival words (R230, R231) -/

/-- The 8-byte arrival word at a tagged operand, aligned, in its window or on a page that is homed on the issuing die and not sealed, to
write or to wait on (R230, R231). -/
def State.tagWord (s : State) (k : Acc) (x : Word) (slot : Nat) : Except Halt (State × Nat) := do
  let t ← taggedAt k x slot 8 causeAlign
  let (u, runs) ← s.sides [{ acc := k, slot := slot, tag := t, pieces := [(0, 8)] }]
  let sealed : Bool := match t with
    | .va a => (match u.translate u.cur.place.die (u.launchOf u.cur).ctx (a % 2 ^ 57) with | .leaf l => l.sealed | _ => false)
    | .pad _ _ => false
  ensure (!sealed) (namedAt causeSealed slot x k.code)
  .ok (u, (runs.flatten.flatten.headD (0, 0, 0)).2.1)

/-- The clauses enqueued before have retired and their memory instructions are performed: what a release of the scalar stream
covers (R275). -/
def State.laneQuiet (s : State) : Bool := s.cur.lq.isEmpty && !s.lanePending s.cur.key

/-- ARRSET (R230): a release, so what it covers is performed first; then the word is written, and with it any flag cleared, once the
flag's count has had room (R14). -/
def execArrset (a b : Fin 64) (fl : Fin 13) (s : State) : Out :=
  lacking (fun s => stackLacksTag s.cur (s.rs a))
    (scalar [(10, a), (11, b)] fun s => do
      let (t, key) ← s.tagWord .write (s.rs a) 10
      let v := (s.rs b).toNat
      ensure (arrUnit v != 3 && arrCount v < arrTarget v) (named causeBounds 11)
      let _ ← t.raiseFlag (flagOf fl)
      if !t.laneQuiet then stall t .clauses
      else (t.heldCheck key).map fun u => (u.write key 8 v).releaseRows u.cur.place) s

/-- ARRWAIT (R231): waits until the generation is ahead of the one seen by 1 to 32,767. -/
def execArrwait (a b c : Fin 64) (s : State) : Out :=
  lacking (fun s => stackLacksTag s.cur (s.rs b))
    (scalar [(11, b), (12, c)] fun s => do
      let (t, key) ← s.tagWord .read (s.rs b) 11
      let d := (s.rs c).toNat
      ensure (bits d 62 16 == 0) (named causeBounds 12)
      let t ← t.reachKey (.arrwait (bit d 63)) key
      let w := t.read key 8; let ahead := (arrGen w + 2 ^ 16 - bits d 15 0) % 2 ^ 16
      if ahead = 0 || 32767 < ahead then stall t (.arrwait (bit d 63)) else .ok (t.ws a (BitVec.ofNat 64 w))) s

/-! ## WAITA (R237) -/

/-- The value that a wait observes. -/
def WaitEntry.value (w : WaitEntry) (s : State) : Nat := if w.w64 then s.read w.key 8 else s.read w.key 4 &&& w.mask

/-- The comparison holds. -/
def WaitEntry.holds (w : WaitEntry) (s : State) : Bool :=
  let v := w.value s; let n := if w.w64 then 64 else 32; let x : Int := signed n v; let y : Int := signed n w.e
  match w.cmp with
  | 0 => v == w.e
  | 1 => v != w.e
  | 2 => decide (x < y)
  | 3 => decide (y ≤ x)
  | 4 => decide (v < w.e)
  | _ => decide (w.e ≤ v)

/-- Entries in use in the wait table of a stack's home slice. -/
def State.waitEntries (s : State) (stack : Nat) : Nat :=
  (s.groups.filter fun g => g.live && match g.wait with | .waita _ (some x) _ _ _ => frameStack x.key == stack | _ => false).length

/-- The condition descriptor (R237): a value that the manual does not list is BOUNDS. -/
def waitaBad (d : Nat) : Bool := bits d 62 48 != 0 || bits d 15 5 != 0 || bit d 3 || 5 < bits d 2 0 || (bit d 4 && bits d 47 16 != 0)

/-- How WAITA waits for a row that a stack core holds: as it waited before its read (R352). -/
def Wait.again : Wait → Wait
  | .waita ext x p gap due => .waita ext x p gap due
  | _ => .sx

/-- WAITA (R237): reads the word; waits by a table entry, or by polling where the table is full or the page is the host's. -/
def execWaita (a b : Fin 64) (c : Fin 32) (s : State) : Out :=
  scalar [(11, b), (12, pairLo c), (12, pairHi c)] (fun s => do
    let va := (s.rs b).toNat; let d := (s.rs (pairLo c)).toNat; let w64 := bit d 4; let n := if w64 then 8 else 4
    ensure (bits va 63 57 == 0) (namedAt causeProt 11 (s.rs b))
    ensure (va % n == 0) (namedAt causeAlign 11 (s.rs b))
    let (t, l) ← s.line .read va 11
    ensure (l.hm || frameDie l.pa == t.cur.place.die) (.fault { cause := causeRemoteLocal, slot := 11, addr := s.rs b })
    ensure (!waitaBad d) (named causeBounds 12)
    let t ← t.reachKey t.cur.wait.again (l.key va)
    let mask := if bits d 47 16 = 0 then 2 ^ 32 - 1 else bits d 47 16
    let x : WaitEntry := { key := l.key va, w64 := w64, mask := mask, cmp := bits d 2 0, e := if w64 then (s.rs (pairHi c)).toNat else (s.rs (pairHi c)).toNat % 2 ^ 32 }
    if x.holds t then .ok (t.ws a (BitVec.ofNat 64 (x.value t)))
    else match t.cur.wait with
      | .waita ext (some _) p g _ => stall t (.waita ext (some x) p g false)
      | .waita ext none _ gap _ => stall t (.waita ext none (t.now + gap) (min (2 * gap) 65536) false)
      | _ =>
        if !l.hm && t.waitEntries (frameStack (l.key va)) < 256 then stall t (.waita (bit d 63) (some x) 0 0 false)
        else stall t (.waita (bit d 63) none (t.now + 512) 1024 false)) s

/-- WAITA_WAKE (R237): a write made the entry's condition hold; the group reads the word again. -/
def execWaitaWake (key : Nat) (s : State) : Out :=
  .next (s.updGroup key fun g => match g.wait with
    | .waita ext (some x) p gap false => if x.holds s then { g with wait := .waita ext (some x) p gap true } else g
    | _ => g)

/-- WAITA_POLL (R237): the interval is over; the group reads the word again. -/
def execWaitaPoll (key : Nat) (s : State) : Out :=
  .next (s.updGroup key fun g => match g.wait with
    | .waita ext none p gap false => if p ≤ s.now then { g with wait := .waita ext none p gap true } else g
    | _ => g)

/-! ## Stage queues (R238, R239) -/

/-- One die's instance of a queue; empty where nothing has used it. -/
def Launch.queueAt (l : Launch) (die q : Nat) : StageQueue := (l.queues.find? fun x => x.die == die && x.q == q).getD { die := die, q := q }

def Launch.setQueue (l : Launch) (x : StageQueue) : Launch :=
  { l with queues := x :: l.queues.filter fun y => !(y.die == x.die && y.q == x.q) }

def Launch.depth (l : Launch) (q : Nat) : Nat := ((l.stages[q]?).map (·.depth)).getD 0

/-- Every team of a stage placed on the die is done with its queue, and none waits to be placed. -/
def State.stageDone (s : State) (l : Launch) (die q : Nat) : Bool :=
  (s.teams.filter fun t => t.launch == l.key && t.stage == q && t.die == die && !t.nmrun).all fun t => match t.status with
    | .waiting _ => false
    | _ => s.groups.all fun g => !g.live || g.team != t.key || g.done.contains q

/-- An instance is closed (R239), or has been and so stays closed (R318). -/
def State.queueClosed (s : State) (l : Launch) (die : Nat) : Nat → Bool
  | 0 => (l.queueAt die 0).closed || ((if h : die < 8 then l.created[die] == l.assigned[die] else true) && s.stageDone l die 0)
  | q + 1 => (l.queueAt die (q + 1)).closed || (s.queueClosed l die q && (l.queueAt die q).tokens.isEmpty && s.stageDone l die (q + 1))

/-- The instances of a launch that are closed are marked so on every die that its teams are on, before a flush, a save or a fence takes
teams from one (R318). -/
def State.markClosed (s : State) (launch : Nat) : State :=
  s.updLaunch launch fun l =>
    let dies := (List.range 8).filter fun d => s.teams.any fun t => t.launch == launch && t.die == d
    let all := dies.flatMap fun d => (List.range (l.stages.length - 1)).map fun q => (d, q)
    (all.filter fun x => s.queueClosed l x.1 x.2).foldl (fun k x => k.setQueue { k.queueAt x.1 x.2 with closed := true }) l

/-- A stage-queue instruction (R238): BOUNDS naming b for a queue that does not exist or another stage's group; a stack core
lacks it (R348). -/
def onQueue (srcs : Srcs) (b : Fin 64) (offset : Nat) (body : Launch → Nat → State → Res) : State → Out :=
  lacking (fun s => s.cur.place.onStack) (scalar srcs fun s => do
    let q := (s.rs b).toNat; let l := s.launchOf s.cur; let t := s.teamOf s.cur
    ensure (q < 8 && q + 1 < l.stages.length && !t.nmrun && t.stage == q + offset) (named causeBounds 11)
    body l q s)

/-- QTAKE (R238): of the queue's tokens it takes the one that has waited longest (log 60, DESIGN CHOICE: R238 promises no order). -/
def execQtake (a b : Fin 64) (s : State) : Out :=
  onQueue [(11, b)] b 1 (fun l q s =>
    let x := l.queueAt s.cur.place.die q
    match x.tokens with
    | t :: r => .ok ((s.updLaunch l.key fun k => k.setQueue { x with tokens := r }).ws a t)
    | [] => if s.queueClosed l s.cur.place.die q then .ok (s.ws a (BitVec.twoPow 64 63)) else stall s .qtake) s

/-- QEMIT (R238): a release at die scope. -/
def execQemit (b c : Fin 64) (s : State) : Out :=
  onQueue [(11, b), (12, c)] b 0 (fun l q s => do
    ensure (!(s.rs c).getLsbD 63) (named causeBounds 12)
    ensure (!s.cur.done.contains q) (named causeBounds 11)
    let x := l.queueAt s.cur.place.die q
    if !s.laneQuiet || l.depth q ≤ x.tokens.length then stall s .qemit
    else .ok (s.updLaunch l.key fun k => k.setQueue { x with tokens := x.tokens ++ [s.rs c] })) s

/-- QDONE (R238). -/
def execQdone (b : Fin 64) (s : State) : Out :=
  onQueue [(11, b)] b 0 (fun _ q s => .ok (s.setCur { s.cur with done := if s.cur.done.contains q then s.cur.done else q :: s.cur.done })) s

end Sys2Proof.Machine
end

