-- ==== Sys2Proof/Machine/Placement.lean ====
section
/-! DEFINITION. Placement, priority, stage arbitration and pre-emption: the places and windows of teams, victims, saves and
restores (R15, R30, R31, R192, R241-R247, R252, R267, R309-R318, R344). -/

namespace Sys2Proof.Machine

/-! ## What is free (R245, R246, R267) -/

/-- The core takes no new team (R379, R381, R382). -/
def State.coreFenced (s : State) (c : Nat) : Bool :=
  s.fenced.contains (.core c) || s.fenced.contains (.clusterScratch (c / 4)) || s.fenced.contains (.die (c / 12))

/-- Resident teams with groups on a core, but for those in a list. -/
def State.teamsOn (s : State) (skip : List Nat) (c : Nat) : List Team :=
  s.teams.filter fun t => t.status == .resident && !skip.contains t.key && t.unitCores.contains c

/-- The physical lane that serves a logical lane (R247, R380). -/
def Core.plane (c : Core) (lane : Nat) : Nat := ((c.spares.find? fun p => p.1 == lane).map (·.2)).getD lane

/-- The free group slots of a core, one lane after the other for each slot number (log 13). -/
def State.freeSlots (s : State) (skip : List Nat) (c : Nat) : List Place :=
  let here := (s.teamsOn skip c).map (·.key)
  let used := s.groups.filterMap fun g =>
    if g.live && here.contains g.team && g.place.coreIx == c then some (g.place.lane, g.place.slot) else none
  (List.range 256).filterMap fun i =>
    if used.contains (i % 64, i / 64) then none
    else some { die := c / 12, cluster := c % 12 / 4, core := c % 4, plane := (s.core c).plane (i % 64), lane := i % 64, slot := i / 64 }

/-- The windows at a level that teams hold in the places of a new window, in place of a saved team too (R267, R316). -/
def State.padsTaken (s : State) (skip : List Nat) (lvl : Fin 3) (die cluster : Nat) (cores : List Nat) : List Window :=
  (s.teams.filter fun t => !skip.contains t.key && t.die == die && t.pads.any fun p => p.lvl == lvl && t.inPlace p &&
    match lvl with
    | 0 => t.unitCores[p.ix]?.any cores.contains
    | 1 => t.cluster == cluster
    | 2 => true).map (·.win[lvl])

def Window.meets (v w : Window) : Bool := v.base < w.base + w.size && w.base < v.base + v.size

/-- Bytes of a level's array (R266, R347). -/
def levelSize (lvl : Fin 3) : Nat := match lvl with | 0 => 2 ^ 20 | 1 => 2 ^ 23 | 2 => 48 * 2 ^ 20

/-- The lowest place of a window that meets none of those taken (log 13); a window of size 0 needs no place. -/
def firstFit (limit size : Nat) (taken : List Window) : Option Window :=
  if size = 0 then some {}
  else ((0 :: taken.map fun w => w.base + w.size).insertionSort (· ≤ ·)).findSome? fun b =>
    let w : Window := { base := b, size := size }
    if b + size ≤ limit && !taken.any w.meets then some w else none

/-- Matrix work that still runs on a core's array, but for that of teams in a list. -/
def State.arrayBusy (s : State) (skip : List Nat) (c : Nat) : Bool :=
  s.work.any fun w => !skip.contains w.team && w.kind.inStream c

/-- The launch's teams of a stage own arrays: 1 none, 2 one core's, 3 a pair's (R246). -/
def Launch.mxuse (l : Launch) (stage : Nat) : Nat := ((l.stages[stage]?).map (·.mxuse)).getD 1

/-- A team's groups bind watermark slots: its launch declares them, or the cores saved with it had them (R15, R192). -/
def State.binds (s : State) (t : Team) : Bool :=
  (s.launch t.launch).wmslots != 0 || t.arraysSaved.any fun c => c.slotCtx == some (s.launch t.launch).ctx

/-- No resident team of another context binds slots on the core (R15). -/
def State.slotsFree (s : State) (skip : List Nat) (ctx c : Nat) : Bool :=
  (s.teamsOn skip c).all fun u => !s.binds u || (s.launch u.launch).ctx == ctx

/-- The cores may take a team: unfenced, with their watermark slots and arrays free for it (R15, R246). -/
def State.coresOpen (s : State) (skip : List Nat) (t : Team) (cores : List Nat) : Bool :=
  let l := s.launch t.launch
  cores.all fun c => !s.coreFenced c && (!s.binds t || s.slotsFree skip l.ctx c) &&
    (l.mxuse t.stage < 2 || (!s.arrayBusy skip c && (s.teamsOn skip c).all fun u => !u.arrays.contains c))

/-! ## A place for a team (R245) -/

/-- Everything a team is given when it is placed. -/
structure Fit where
  die : Nat
  cluster : Nat
  cores : List Nat
  places : List Place
  win : Vector Window 3
  deriving DecidableEq, Repr

/-- Sublists of a list with a given length, those with the earliest elements first. -/
def choose {α : Type} : Nat → List α → List (List α)
  | 0, _ => [[]]
  | _ + 1, [] => []
  | k + 1, x :: r => (choose k r).map (x :: ·) ++ choose (k + 1) r

/-- The core sets that a matrix use allows in a cluster (R246), smaller ones first. -/
def coreSets (die cluster mxuse : Nat) : List (List Nat) :=
  let c := die * 12 + cluster * 4
  match mxuse with
  | 3 => [[c, c + 1], [c + 2, c + 3]]
  | 2 => [[c], [c + 1], [c + 2], [c + 3]]
  | _ => (List.range 4).flatMap fun k => choose (k + 1) [c, c + 1, c + 2, c + 3]

/-- Counts of slots over cores that add up to n, each core filled before the next. -/
def fillCounts : List Nat → Nat → List Nat
  | [], _ => []
  | f :: r, n => min f n :: fillCounts r (n - min f n)

/-- A window at each level, or none: where the team still holds one, if nothing else has come into its way there, and else at the lowest
place that fits. -/
def State.windowsFor (s : State) (skip : List Nat) (t : Team) (cluster : Nat) (cores : List Nat) (kept : Fin 3 → Option Window) :
    Option (Vector Window 3) :=
  let d := (s.launch t.launch).deckle
  let at_ (lvl : Fin 3) : Option Window :=
    let new := firstFit (levelSize lvl) d[lvl] (s.padsTaken skip lvl t.die cluster cores)
    match kept lvl with
    | some w => if (s.padsTaken (t.key :: skip) lvl t.die cluster cores).any w.meets then new else some w
    | none => new
  match at_ 0, at_ 1, at_ 2 with
  | some a, some b, some c => some ((((Vector.replicate 3 ({} : Window)).set 0 a).set 1 b).set 2 c)
  | _, _, _ => none

/-- A place on given cores with given numbers of groups. -/
def State.fitOn (s : State) (skip : List Nat) (t : Team) (cluster : Nat) (cores counts : List Nat) (kept : Fin 3 → Option Window) :
    Option Fit :=
  if !s.coresOpen skip t cores then none
  else
    let free := cores.map (s.freeSlots skip)
    if !(free.zip counts).all fun q => q.2 ≤ q.1.length then none
    else (s.windowsFor skip t cluster cores kept).map fun w =>
      { die := t.die, cluster := cluster, cores := cores, places := (free.zip counts).flatMap fun q => q.1.take q.2, win := w }

/-- A place for a new team in a cluster (R245, R246). -/
def State.fitIn (s : State) (skip : List Nat) (t : Team) (cluster : Nat) : Option Fit :=
  let l := s.launch t.launch
  (coreSets t.die cluster (l.mxuse t.stage)).findSome? fun cores =>
    let counts := fillCounts (cores.map fun c => (s.freeSlots skip c).length) l.groups
    if counts.foldl (· + ·) 0 == l.groups && counts.all (· != 0 || l.mxuse t.stage == 3) then s.fitOn skip t cluster cores counts (fun _ => none) else none

/-- A place for a new team on its die. -/
def State.fit (s : State) (skip : List Nat) (t : Team) : Option Fit := (List.range 3).findSome? (s.fitIn skip t)

/-! ## Windows given and left (R267, R268, R316) -/

/-- What is left of a range once another is taken out of it. -/
def cutRange (k n : Nat) (r : Nat × Nat × Nat) : List (Nat × Nat × Nat) :=
  ([(r.1, min (r.1 + r.2.1) k - r.1, r.2.2), (max r.1 (k + n), r.1 + r.2.1 - max r.1 (k + n), r.2.2)] : List (Nat × Nat × Nat)).filter
    fun q => q.2.1 != 0

/-- A range passes to a context: bytes that another context left are zeroed (R267). -/
def State.claimRange (ctx : Nat) (s : State) (k n : Nat) : State :=
  let met := s.padLeft.filter fun r => r.1 < k + n && k < r.1 + r.2.1
  let clear (t : State) (r : Nat × Nat × Nat) : State :=
    if r.2.2 = ctx then t
    else
      let lo := max r.1 k; let hi := min (r.1 + r.2.1) (k + n)
      t.clearFrame lo (hi - lo)
  let t := met.foldl clear s
  { t with padLeft := t.padLeft.flatMap (cutRange k n) }

/-- Windows become free; what a context left in them is noted. -/
def State.leavePads (s : State) (ctx : Nat) (ps : List Pad) : State :=
  { s with padLeft := s.padLeft ++ ps.map fun p => (p.key, p.len, ctx) }

/-- Bytes of a window copied, with what will be added to them or sent from them later. -/
def State.movePad (ctx : Nat) (s : State) (src dst n : Nat) : State :=
  (s.moveSeg ctx { src := src, dst := dst, len := n }).moveRefs src n dst

/-- A window copied to the save area, as a claim does, and back from it to a place (R316). -/
def State.padOut (t : Team) (s : State) (p : Pad) : State :=
  let u := s.zeroArea t p.off p.len
  (u.areaRuns t p.off p.len).foldl (fun (v : State) r => v.movePad (s.launch t.launch).ctx (p.key + r.1) r.2.1 r.2.2) u
def State.padBack (t : Team) (s : State) (p : Pad) (live : Nat) : State :=
  (s.areaRuns t p.off p.len).foldl (fun (v : State) r => v.movePad (s.launch t.launch).ctx r.2.1 (live + r.1) r.2.2) s

/-! ## Placing (R9, R242, R245, R309) -/

/-- The entry point of a stage (R244). -/
def Launch.entryOf (l : Launch) (stage : Nat) : Nat := ((l.stages[stage]?).map (·.entry)).getD 0

/-- The registers of a new group (R9). -/
def Group.start (l : Launch) (stage key team git base : Nat) (p : Place) : Group :=
  { key := key, live := true, team := team, git := git, place := p, spc := BitVec.ofNat 64 (l.scode + l.entryOf stage), base := base
    s := (Vector.replicate 64 0).set 1 l.args }

/-- The index of a die among the dies of a launch's mask, and how many stage-0 teams lie below it (R309). -/
def Launch.dieIndex (l : Launch) (die : Nat) : Nat := ((diesOf l.dieMask.toNat).takeWhile (· < die)).length

/-- TEAMID of the i-th stage-0 team of a die (R309). -/
def Launch.teamAt (l : Launch) (die i : Nat) : Nat :=
  match l.placed with
  | some ds => (((ds.zipIdx.filter fun q => q.1 == die)[i]?).map (·.2)).getD 0
  | none => l.dieIndex die * l.teams / (diesOf l.dieMask.toNat).length + i

/-- The die's next stage-0 team joins the placement queue (R309). -/
def State.offerNext (s : State) (launch : Nat) (die : Fin 8) (since : Nat) : State :=
  let l := s.launch launch
  if l.assigned[die] ≤ l.created[die] then s
  else
    ({ s with
      teams := s.teams ++ [{ key := s.nextId, launch := launch, teamId := BitVec.ofNat 32 (l.teamAt die l.created[die]), die := die, status := .waiting since }]
      nextId := s.nextId + 1 } : State).updLaunch launch fun l => { l with created := l.created.set die (l.created[die] + 1) }

/-- The launch's queue instances on a die go to the save area, or are written back (R318). -/
def Launch.queuesBack (l : Launch) (die : Nat) (saved : Bool) : Launch :=
  { l with queues := l.queues.map fun q => if q.die == die then { q with saved := saved } else q }

/-- What a team takes when it is placed: its windows' bytes, its cores' watermark slots (R267, R344). -/
def State.occupy (s : State) (t : Team) : State :=
  let l := s.launch t.launch
  let s := t.pads.foldl (fun (u : State) p => u.claimRange l.ctx p.key p.len) s
  let s := if l.wmslots = 0 then s else t.unitCores.foldl (fun (u : State) c => u.passSlots c l.ctx) s
  (s.updLaunch l.key fun l => l.queuesBack t.die false).updTeam t.key fun _ => t

/-- The team as its place makes it. -/
def Team.placedAs (t : Team) (f : Fit) (mxuse now : Nat) : Team :=
  { t with status := .resident, die := f.die, cluster := f.cluster, win := f.win, unitCores := f.cores, arrays := if mxuse < 2 then [] else f.cores
           victim := .none, placedAt := now, stuckSince := none, urgent := false, held := [], claiming := [], area := [] }

/-- A new team is placed and its groups start; its arrays are idle (R9, R187). -/
def State.placeTeam (s : State) (t : Team) (f : Fit) : State :=
  let l := s.launch t.launch
  let u := s.occupy (t.placedAs f (l.mxuse t.stage) s.now)
  let u := (if l.mxuse t.stage < 2 then [] else f.cores).foldl (fun (v : State) c =>
    v.setCore { v.core c with a := Vector.replicate 2 {}, w := Vector.replicate 2 {}, act := 0 }) u
  { u with
    others := u.others ++ f.places.zipIdx.map fun q => Group.start l t.stage (u.nextId + q.2) t.key q.2 u.now q.1
    nextId := u.nextId + f.places.length }

/-! ## A place for a saved team (R31, R192, R240, R252, R267, R316) -/

def Team.isWaiting (t : Team) : Bool := match t.status with | .waiting _ => true | _ => false
def Team.isSaved (t : Team) : Bool := match t.status with | .saved _ => true | _ => false
def Team.since (t : Team) : Nat := match t.status with | .waiting n => n | _ => 0

/-- Resident teams of a stage of a launch on a die. -/
def State.residents (s : State) (launch stage die : Nat) : List Team :=
  s.teams.filter fun t => t.launch == launch && t.stage == stage && t.die == die && t.status == .resident && !t.nmrun

/-- Fewer than MAX(0) stage-0 teams of the launch are resident on a die (R311). -/
def State.stageRoom (s : State) (launch stage die : Nat) : Bool :=
  stage != 0 || decide ((s.residents launch 0 die).length < (((s.launch launch).stages[0]?).map (·.max)).getD 0)

/-- Ordered choices of k of a list's elements. -/
def arrange {α : Type} [DecidableEq α] : Nat → List α → List (List α)
  | 0, _ => [[]]
  | k + 1, l => l.flatMap fun x => (arrange k (l.filter (· != x))).map (x :: ·)

/-- Numbers of a team's groups on each of its cores. -/
def State.countsOf (s : State) (t : Team) : List Nat :=
  t.unitCores.map fun c => (s.groups.filter fun g => g.live && g.team == t.key && g.place.coreIx == c).length

/-- The dies on which a saved team may be placed (R31, R382): its own, and any other of its launch's mask where the launch has no stage
queues, whose instances stay on their die (R318), or its own die is fenced. -/
def State.diesOfSaved (s : State) (t : Team) : List Nat :=
  let l := s.launch t.launch
  t.die :: if l.stages.length = 1 || s.fenced.contains (.die t.die) then (diesOf l.dieMask.toNat).filter (· != t.die) else []

/-- The window of a level that a saved team still holds in place. -/
def Team.keptAt (t : Team) (lvl : Fin 3) : Option Window :=
  if t.pads.any fun p => p.lvl == lvl && t.held.contains p.ix && !t.claiming.contains p.ix then some t.win[lvl] else none

/-- A place for a saved team: the cores that it left, with what is still held there for it, or others. -/
def State.fitSaved (s : State) (skip : List Nat) (t : Team) : Option Fit :=
  let counts := s.countsOf t
  let back := if s.stageRoom t.launch t.stage t.die then s.fitOn skip t t.cluster t.unitCores counts t.keptAt else none
  match back with
  | some f => some f
  | none =>
    (s.diesOfSaved t).findSome? fun die =>
      if !s.stageRoom t.launch t.stage die then none
      else (List.range 3).findSome? fun cl =>
        let c := die * 12 + cl * 4
        let sets := if (s.launch t.launch).mxuse t.stage = 3 then [[c, c + 1], [c + 2, c + 3]]
          else arrange t.unitCores.length [c, c + 1, c + 2, c + 3]
        sets.findSome? fun cores => s.fitOn skip { t with die := die } cl cores counts fun _ => none

/-- The position of a core among a team's. -/
def posOf (cores : List Nat) (c : Nat) : Nat := (cores.findIdx? (· == c)).getD 0

/-- A saved group on its new place, CYCLE going on. -/
def Group.restored (g : Group) (p : Place) (now : Nat) : Group := { g with place := p, base := now - g.base }

/-- The groups of a team put on places, each core's groups on the core that takes its part. -/
def reseat (team : Nat) (old new : List Nat) (now : Nat) : List Group → List Place → List Group
  | [], _ => []
  | g :: r, ps =>
    if g.live && g.team == team then
      let c := new.getD (posOf old g.place.coreIx) 0
      match ps.find? fun p => p.coreIx == c with
      | some p => g.restored p now :: reseat team old new now r (ps.erase p)
      | none => g :: reseat team old new now r ps
    else g :: reseat team old new now r ps

/-- Slots, by core, that a saved team's bindings are to take over while another team's contributions of the same context under another
binding are in them, or on their way (R192, R211). -/
def State.clashes (s : State) (t : Team) (cores : List Nat) : List (Nat × Fin 8) :=
  let ctx := (s.launch t.launch).ctx
  t.arraysSaved.flatMap fun c =>
    let n := cores.getD (posOf t.unitCores c.ix) c.ix
    if c.slotCtx != some ctx then []
    else (List.finRange 8).filterMap fun i =>
      let id := s.boundId n ctx i
      if id != 0 && id != c.slots[i].id && ((s.core n).slots[i].stats != {} || s.slotFlushing n i) then some (n, i) else none

/-- Slots of the cores that a saved team leaves for others, which still hold contributions of its context under a binding, or a flush of
them: they go to their records first, for the team's own WMFLUSH finds the slots of its new cores only (R192, R212, R344; log 56). -/
def State.leftBehind (s : State) (t : Team) (cores : List Nat) : List (Nat × Fin 8) :=
  let ctx := (s.launch t.launch).ctx
  if !t.isSaved || !s.binds t then []
  else (t.unitCores.zip cores).flatMap fun q =>
    if q.1 = q.2 || (s.core q.1).slotCtx != some ctx then []
    else ((List.finRange 8).filter fun i =>
      s.boundId q.1 ctx i != 0 && ((s.core q.1).slots[i].stats != {} || s.slotFlushing q.1 i)).map fun i => (q.1, i)

/-- A saved array on its new core; the leader of an open chain is known by its new number, and the slot bindings of R192 come
with it. -/
def State.putArray (old new : List Nat) (ctx : Nat) (s : State) (c : Core) : State :=
  let at_ (k : Nat) : Nat := new.getD (posOf old k) k
  let n := at_ c.ix
  let lead (b : Bank) : Bank := { b with lead := at_ b.lead }
  let u := s.setCore { s.core n with a := Vector.ofFn fun i => lead c.a[i], w := c.w, act := c.act }
  if c.slotCtx != some ctx then u
  else
    let u := u.passSlots n ctx; let d := u.core n
    u.setCore { d with slots := Vector.ofFn fun i =>
      if d.slots[i].id = c.slots[i].id then d.slots[i] else { id := c.slots[i].id, epoch := c.slots[i].epoch } }

/-- A window of a team placed again, from its old place to its new one (R316): one that is held stays, or moves and leaves its place free;
one that has been claimed comes back from the save area. -/
def State.padTo (t : Team) (s : State) (q : Pad × Pad) : State :=
  let ctx := (s.launch t.launch).ctx
  if !t.held.contains q.1.ix then s.padBack t q.1 q.2.key
  else if q.1.key = q.2.key then s
  else (s.movePad ctx q.1.key q.2.key q.2.len).leavePads ctx [q.1]

/-- A saved team placed again: its windows' bytes, its arrays, its groups. -/
def State.restoreTeam (s : State) (t : Team) (f : Fit) : State :=
  let l := s.launch t.launch
  let n : Team := { t.placedAs f (l.mxuse t.stage) s.now with arraysSaved := [] }
  let u := (t.pads.zip n.pads).foldl (State.padTo t) (s.occupy n)
  let u := t.arraysSaved.foldl (State.putArray t.unitCores f.cores l.ctx) u
  let gs := reseat t.key t.unitCores f.cores s.now (u.cur :: u.others) f.places
  { u with cur := gs.headD {}, others := gs.tail }

/-- Every remote operation that a group of the team had outstanding is answered (R240, R286). -/
def State.answeredAll (s : State) (t : Team) : Bool := s.groups.all fun g => !g.live || g.team != t.key || !s.remotePending g.key

/-- A saved team may come back: once its remote operations are answered (R286); a parked one once its stage wants it, or its instance
has closed (R311). -/
def State.mayRestore (s : State) (t : Team) : Bool :=
  match t.status with
  | .saved false => s.answeredAll t
  | .saved true =>
    let l := s.launch t.launch
    s.answeredAll t &&
      (s.queueClosed l t.die (t.stage - 1) || decide ((s.residents t.launch t.stage t.die).length < (l.queueAt t.die (t.stage - 1)).target))
  | _ => false

/-! ## Who waits (R252, R309-R311) -/

/-- Higher priority first, then the launch that started first, then the lower TEAMID (R309, R310). -/
def State.before (s : State) (t u : Team) : Bool :=
  let l := s.launch t.launch; let m := s.launch u.launch
  m.prio < l.prio || (l.prio == m.prio && (l.order < m.order || (l.order == m.order &&
    (t.stage < u.stage || (t.stage == u.stage && t.teamId.toNat ≤ u.teamId.toNat)))))

/-- The teams of a team's launch. -/
def State.grid (s : State) (t : Team) : List Team := s.teams.filter fun u => u.launch == t.launch && !u.nmrun

/-- Teams that go together when one is taken, placed or restored: itself, or its cooperative grid (R252). -/
def State.together (s : State) (t : Team) : List Team := if (s.launch t.launch).coop then s.grid t else [t]

/-- The team waits for a place: a new one, outside while MAX(0) stage-0 teams are resident, or a saved one that may come back; a
cooperative grid waits as a whole (R252, R310, R311). -/
def State.waitsForPlace (s : State) (t : Team) : Bool :=
  (t.isWaiting && s.stageRoom t.launch t.stage t.die && (s.together t).all Team.isWaiting) ||
  (t.isSaved && (s.together t).all s.mayRestore)

/-- Teams that wait for a place on a die, in the order in which they are served (R309, R310). -/
def State.offers (s : State) (die : Nat) : List Team :=
  (s.teams.filter fun t => t.die == die && !(s.launch t.launch).stopped && s.waitsForPlace t).insertionSort fun t u => s.before t u

/-- A team that has waited too long keeps teams of lower priority out (R310). -/
def State.lockedOut (s : State) (die : Nat) (t : Team) : Bool :=
  (s.offers die).any fun u => u.urgent && (s.launch t.launch).prio < (s.launch u.launch).prio

/-- A place for a team, new or saved. -/
def State.fitAny (s : State) (skip : List Nat) (t : Team) : Option Fit := if t.isSaved then s.fitSaved skip t else s.fit skip t

/-- Teams placed or restored in turn, with the place of each, or none of them (R252). -/
def placeAll : List Team → State → Option (State × List (Team × Fit))
  | [], s => some (s, [])
  | t :: r, s => (s.fitAny [] t).bind fun f =>
    (placeAll r (if t.isSaved then s.restoreTeam t f else s.placeTeam t f)).map fun q => (q.1, (t, f) :: q.2)

/-- The watermark slots of a place are ready for a team (R192, R344). -/
def State.fitReady (s : State) (t : Team) (f : Fit) : Bool :=
  (!s.binds t || f.cores.all fun c => s.slotsReady c (s.launch t.launch).ctx) && (s.clashes t f.cores).isEmpty && (s.leftBehind t f.cores).isEmpty

/-- What is in the way of that leaves the slots (R344). -/
def State.makeReady (s : State) (t : Team) (f : Fit) : State :=
  let ctx := (s.launch t.launch).ctx
  let u := if s.binds t then f.cores.foldl (fun (v : State) c => v.drainSlots c ctx) s else s
  ((s.clashes t f.cores ++ s.leftBehind t f.cores).filter fun q => (s.core q.1).slots[q.2].stats != {}).foldl (fun (v : State) q => v.flushSlots q.1 ctx [q.2]) u

/-- The team placed with all that it needs, with its whole grid where that is cooperative; none where it does not fit, or its slots are
not ready. -/
def State.tryPlace (s : State) (t : Team) : Option State :=
  (placeAll (s.together t) s).bind fun q =>
    if !q.2.all fun p => s.fitReady p.1 p.2 then none
    else some (if h : t.die < 8 then
      (if t.isWaiting && t.stage = 0 && !(s.launch t.launch).coop then q.1.offerNext t.launch ⟨t.die, h⟩ t.since else q.1) else q.1)

/-- The slots of the place that a team would get are made ready for it. -/
def State.drainFor (s : State) (t : Team) : State :=
  match placeAll (s.together t) s with
  | some q => q.2.foldl (fun (u : State) p => u.makeReady p.1 p.2) s
  | none => s

/-- A place on a core of the die, with a unit window of the same size, for an NMRUN group that has met the return trap (R349). -/
def State.returnFit (s : State) (t : Team) : Option (Place × Window) :=
  let ctx := (s.launch t.launch).ctx
  (List.range 12).findSome? fun i =>
    let c := t.die * 12 + i
    if s.coreFenced c || !(!s.binds t || s.slotsFree [] ctx c) then none
    else match s.freeSlots [] c, firstFit (levelSize 0) t.win[(0 : Fin 3)].size (s.padsTaken [] 0 t.die (i / 4) [c]) with
      | p :: _, some w => some (p, w)
      | _, _ => none

/-- The groups that have met the return trap and are ready to move, with their teams (R349). -/
def State.returning (s : State) (die : Nat) : List Team :=
  (s.groups.filter fun g => g.live && g.stop == .returned && g.place.die == die && s.settled g.key).map s.teamOf

/-- No team or returned group of the die that is served before a team could be placed now (R309, R310, R349). -/
def State.firstServed (s : State) (die : Nat) (t : Team) : Bool :=
  !s.lockedOut die t &&
  !((s.offers die).any fun u => u.key != t.key && !(s.together t).any (fun v => v.key == u.key) && s.before u t && !s.lockedOut die u && (s.tryPlace u).isSome) &&
  !((s.returning die).any fun u => u.key != t.key && s.before u t && !s.before t u && (s.returnFit u).isSome)

/-! ## Victims (R310, R313, R314, R317) -/

/-- Instructions a team has retired (R313). -/
def State.retiredOf (s : State) (t : Team) : Nat :=
  (s.groups.filter fun g => g.live && g.team == t.key).foldl (fun n g => n + g.retired) t.retired

/-- The estimate E of a stage (R313). -/
def Launch.estimate (l : Launch) (stage : Nat) : Nat :=
  let i := Fin.ofNat 8 stage
  if l.endedTeams[i] = 0 then ((l.stages[stage]?).map (·.expect)).getD 0 else l.endedRetired[i] / l.endedTeams[i]

/-- Bytes of save area that a team's registers, arrays and the rest take, beside its windows (R317). -/
def State.saveRest (s : State) (t : Team) : Nat :=
  (s.groups.filter fun g => g.live && g.team == t.key).length * 10240 + t.arrays.length * (1476 * 1024) + 4096

/-- Bytes of save area that a team to be saved may need (R317). -/
def State.saveNeed (s : State) (t : Team) : Nat := t.padBytes + s.saveRest t

def Victim.saves : Victim → Bool
  | .save _ _ => true
  | _ => false

/-- The parts of a context's save area that are set aside (R317). -/
def State.areasTaken (s : State) (ctx : Nat) : List Window :=
  (s.teams.filter fun u => (s.launch u.launch).ctx == ctx).flatMap (·.area)

/-- What is free of a save area, lowest first. -/
def freeParts (limit : Nat) (taken : List Window) : List Window :=
  let (next, gaps) := (taken.insertionSort fun v w => v.base ≤ w.base).foldl (fun (q : Nat × List Window) w =>
    let top := min limit w.base
    (max q.1 (w.base + w.size), if q.1 < top then q.2 ++ [{ base := q.1, size := top - q.1 }] else q.2)) (0, [])
  if next < limit then gaps ++ [{ base := next, size := limit - next }] else gaps

/-- The first of some free parts that hold n bytes together; none where they do not. -/
def takeParts : List Window → Nat → Option (List Window)
  | [], n => if n = 0 then some [] else none
  | w :: r, n => if n = 0 then some [] else (takeParts r (n - w.size)).map fun ws => { base := w.base, size := min n w.size } :: ws

/-- A part of a context's save area can be written: its pages are mapped, or are to be zeroed (log 49). -/
def State.areaUsable (s : State) (ctx : Nat) (w : Window) : Bool :=
  (granuleRuns (w.size / 2 ^ 16 + 2) 0 ((s.ctx ctx).savebase + w.base) w.size).all fun r => match s.translate 0 ctx r.2.1 with
    | .leaf _ | .zero _ => true
    | _ => false

/-- Free parts of the save area for some teams of one context, by their keys; none where they do not fit (R317). -/
def State.reserve (s : State) (ctx : Nat) : List Team → List Window → Option (List (Nat × List Window))
  | [], _ => some []
  | t :: r, taken => (takeParts (freeParts (s.ctx ctx).savesize taken) (s.saveNeed t)).bind fun ws =>
    if ws.all (s.areaUsable ctx) then (State.reserve s ctx r (ws ++ taken)).map fun q => (t.key, ws) :: q else none

/-- The parts that teams of one context would be saved to. -/
def State.areasFor (s : State) (ts : List Team) : Option (List (Nat × List Window)) :=
  let ctx := (s.launch (ts.headD {}).launch).ctx; s.reserve ctx ts (s.areasTaken ctx)

/-- The save area has room for teams of one context (R317). -/
def State.saveRoom (s : State) (ts : List Team) : Bool := (s.areasFor ts).isSome

/-- The drain budget D(P) (R313, R394). -/
def State.drainBudget (s : State) (prio : Nat) : Nat := s.params.drain * (prio + 1)

/-- PREEMPT_CHOICE (R313, R317): one decision for a team, or for a whole cooperative grid. -/
def State.choice (s : State) (l : Launch) (ts : List Team) : Team → Victim :=
  let r := ts.foldl (fun n t => n + s.retiredOf t) 0
  let e := ts.foldl (fun n t => n + l.estimate t.stage) 0
  let d := s.drainBudget l.prio
  if l.idem && 0 < e && 4 * r < e then fun _ => .flush
  else if 0 < e && e ≤ d * ts.length + r then fun t => .drain (s.retiredOf t + 2 * d)
  else if s.saveRoom ts then fun _ => .save s.now false
  else fun _ => .drainFree

/-- Some teams made victims; one that is to be saved has its part of the save area set aside. -/
def State.setVictims (s : State) (ts : List Team) (f : Team → Victim) : State :=
  let areas := (s.areasFor ts).getD []
  { s with teams := s.teams.map fun u =>
      if !ts.any (fun v => v.key == u.key) then u
      else { u with victim := f u, area := if (f u).saves then ((areas.find? fun q => q.1 == u.key).map (·.2)).getD [] else u.area } }

/-- A team, or its grid, made a victim. -/
def State.takeVictim (s : State) (t : Team) : State :=
  let ts := (s.together t).filter fun u => u.victim == .none
  s.setVictims ts (s.choice (s.launch t.launch) ts)

/-- Resident teams on dies that a team of a priority may take, in the order in which they are taken (R310). -/
def State.candidates (s : State) (dies : List Nat) (prio : Nat) : List Team :=
  (s.teams.filter fun t => t.status == .resident && dies.contains t.die && !t.nmrun && t.victim == .none && (s.launch t.launch).prio < prio).insertionSort
    fun t u => (s.launch t.launch).prio < (s.launch u.launch).prio ||
      ((s.launch t.launch).prio == (s.launch u.launch).prio && (u.placedAt < t.placedAt || (u.placedAt == t.placedAt && u.key ≤ t.key)))

/-- The keys of teams and of those that go with them. -/
def State.withThem (s : State) (ts : List Team) : List Nat := ts.flatMap fun t => (s.together t).map (·.key)

/-- The machine without some teams, as a placement would find it once they have gone. -/
def State.without (s : State) (keys : List Nat) : State :=
  { s with teams := s.teams.filter fun t => !keys.contains t.key, work := s.work.filter fun w => !keys.contains w.team }

/-- The first of some prefixes of a list that will do. -/
def shortest {α : Type} (ok : List α → Bool) (l : List α) : Option (List α) :=
  ((List.range (l.length + 1)).map l.take).find? ok

/-- The dies that a team's placement concerns. -/
def State.diesFor (s : State) (t : Team) : List Nat :=
  if (s.launch t.launch).coop then diesOf (s.launch t.launch).dieMask.toNat else [t.die]

/-- The places of a team, or of its whole cooperative grid, with some teams out of the way. -/
def State.fitsOf (s : State) (gone : List Nat) (t : Team) : Option (List Fit) :=
  if (s.launch t.launch).coop then (placeAll (s.grid t) (s.without gone)).map fun q => q.2.map (·.2) else (s.fitAny gone t).map fun f => [f]

/-- Placement with some teams out of the way. -/
def State.fitsWithout (s : State) (gone : List Nat) (t : Team) : Bool := (s.fitsOf gone t).isSome

/-- Victims for a waiting team (R310): as few as will do. -/
def State.victimsFor (s : State) (gone : List Nat) (t : Team) : Option (List Team) :=
  let cs := s.candidates (s.diesFor t) (s.launch t.launch).prio
  (List.range (cs.length + 1)).findSome? fun k => (choose k cs).find? fun vs => s.fitsWithout (gone ++ s.withThem vs) t

/-- The windows that saved teams hold on some dies and that are not being claimed, by team and number, those of the most recently saved team
first (R316). -/
def State.heldPads (s : State) (dies : List Nat) : List (Nat × Nat) :=
  ((s.teams.filter fun t => t.isSaved && dies.contains t.die).insertionSort fun t u => u.savedAt ≤ t.savedAt).flatMap fun t =>
    (t.pads.filter fun p => t.held.contains p.ix && !t.claiming.contains p.ix).map fun p => (t.key, p.ix)

/-- The machine as it would be without some held windows. -/
def State.unhold (s : State) (ws : List (Nat × Nat)) : State :=
  { s with teams := s.teams.map fun t => { t with held := t.held.filter fun i => !ws.contains (t.key, i) } }

/-- The machine as the claims under way will leave it. -/
def State.claimed (s : State) : State :=
  { s with teams := s.teams.map fun t => { t with held := t.held.filter fun i => !t.claiming.contains i, claiming := [] } }

/-- A held window of a team stands where teams would be placed. -/
def inTheWay (fs : List Fit) (t : Team) (p : Pad) : Bool :=
  fs.any fun f => f.die == t.die && t.win[p.lvl].meets f.win[p.lvl] &&
    match p.lvl with
    | 0 => t.unitCores[p.ix]?.any f.cores.contains
    | 1 => t.cluster == f.cluster
    | 2 => true

/-- Resident teams that are leaving. -/
def State.going (s : State) : List Nat := (s.teams.filter fun u => u.status == .resident && u.victim != .none).map (·.key)

/-- The windows of a list that stand in the way are to be claimed (R316). -/
def State.claimPads (s : State) (ws : List (Nat × Nat)) (fs : List Fit) : State :=
  { s with teams := s.teams.map fun u =>
      { u with claiming := u.claiming ++ (u.pads.filter fun p => ws.contains (u.key, p.ix) && inTheWay fs u p).map (·.ix) } }

/-- What is set in motion for a team that cannot be placed: nothing while what is going will do, else claims of held windows, else victims
(R310, R316); none where neither helps. -/
def State.makeRoom (s : State) (t : Team) : Option State :=
  let c := s.claimed; let going := s.going; let held := s.heldPads (s.diesFor t)
  if c.fitsWithout going t then some s
  else match shortest (fun ws => (c.unhold ws).fitsWithout going t) held with
    | some ws => some (s.claimPads ws (((c.unhold ws).fitsOf going t).getD []))
    | none => ((c.unhold held).victimsFor going t).map fun vs => vs.foldl State.takeVictim s

/-! ## Flushing and ending -/

/-- No committed work of a team is left, that of groups which have ended included (R163, R192). -/
def State.teamSettled (s : State) (t : Team) : Bool := !s.work.any fun w => w.team == t.key && w.kind.committed

/-- The groups of a team discarded. -/
def State.dropGroups (s : State) (team : Nat) : State :=
  { s with
    cur := if s.cur.team == team then {} else s.cur
    others := s.others.filter fun g => g.live && g.team != team }

/-- The arrays of a team become idle. -/
def State.idleArrays (s : State) (cores : List Nat) : State :=
  cores.foldl (fun (u : State) c => u.setCore { u.core c with a := Vector.replicate 2 {}, w := Vector.replicate 2 {}, act := 0 }) s

/-- What a team holds is given up: groups, windows and what would land in them, arrays. -/
def State.release (s : State) (t : Team) : State :=
  let here := t.pads.filter t.inPlace; let there := if t.isSaved then t.pads.filter fun p => !t.inPlace p else []
  let u := here.foldl (fun (v : State) p => v.loseRefs p.key p.len) (s.leavePads (s.launch t.launch).ctx here)
  let u := there.foldl (fun (v : State) p => (v.areaRuns t p.off p.len).foldl (fun (w : State) r => w.loseRefs r.2.1 r.2.2) v) u
  { (u.idleArrays t.arrays).dropGroups t.key with replies := u.replies.filter fun r => r.team != t.key }

/-- A flush (R314): the team starts again from its entry with the same TEAMID, and its launch's later teams wait behind it; a queue instance
that is closed stays so (R318). -/
def State.flushTeam (s : State) (t : Team) : State :=
  ((s.markClosed t.launch).release t).updTeam t.key fun u =>
    { key := u.key, launch := u.launch, teamId := u.teamId, stage := u.stage, die := u.die, status := .waiting s.now }

/-- The flushes of a die whose teams have come to rest. -/
def State.finishFlushes (s : State) (die : Nat) : State :=
  (s.teams.filter fun t => t.die == die && t.status == .resident && t.victim == .flush).foldl
    (fun (u : State) t => if u.teamSettled t then u.flushTeam t else u) s

/-- The last resident team of a launch leaves a die by a save or a parking: its queue instances go to the save area, closed ones as such
(R318). -/
def State.leaveDie (s : State) (launch die : Nat) : State :=
  if s.teams.any fun t => t.launch == launch && t.die == die && t.status == .resident && !t.nmrun then s
  else (s.markClosed launch).updLaunch launch fun l => l.queuesBack die true

/-! ## The events of placement -/

/-- TEAM_PLACE (R245, R309, R310, R344): finished flushes rejoin the queue, and watermark slots are made ready for the teams that would be
placed; then the first team that is served on the die is placed, if it is a new one; where none can be, room is made for the first that
may have it. -/
def execTeamPlace (die : Nat) (s : State) : Out :=
  let t := s.finishFlushes die
  let offers := (t.offers die).filter fun u => !t.lockedOut die u
  let t := offers.foldl State.drainFor t
  match offers.find? fun u => (t.tryPlace u).isSome with
  | some u => .next (if u.isWaiting && t.firstServed die u then (t.tryPlace u).getD t else t)
  | none => .next ((offers.findSome? t.makeRoom).getD t)

/-- PLACEMENT_WAIT_EXPIRY (R310): a saved team waits since its save, and a parked one since its stage has wanted it again. -/
def execPlacementWaitExpiry (team : Nat) (s : State) : Out :=
  .next (s.updTeam team fun t => match t.status with
    | .waiting n => if n + 2 ^ 20 ≤ s.now then { t with urgent := true } else t
    | .saved _ => if t.leftAt + 2 ^ 20 ≤ s.now then { t with urgent := true } else t
    | _ => t)

/-- A parked team that its stage does not want does not wait to be restored (R310, R311). -/
def State.watchParked (s : State) : State :=
  { s with teams := s.teams.map fun t => match t.status with
      | .saved true => if s.mayRestore t then t else { t with leftAt := s.now, urgent := false }
      | _ => t }

/-! ## The stage arbiter (R311) -/

/-- The arbiter's new target of a stage. -/
def nextTarget (occ depth t lo hi : Nat) : Nat :=
  if 3 * depth < 4 * occ then min (t + 1) hi else if 4 * occ < depth then max (t - 1) lo else t

/-- A new team of a stage waits for placement. -/
def State.createStage (s : State) (launch : Nat) (stage die : Nat) : State :=
  let i := Fin.ofNat 8 stage
  ({ s with
    teams := s.teams ++ [{ key := s.nextId, launch := launch, teamId := BitVec.ofNat 32 (s.launch launch).nextId[i], stage := stage, die := die, status := .waiting s.now }]
    nextId := s.nextId + 1 } : State).updLaunch launch fun l => { l with nextId := l.nextId.set i (l.nextId[i] + 1) }

/-- One stage of one launch on a die: the target moves, and new teams are created up to it, beside those resident, parked or already
offered for placement, while the instance is open or holds tokens (log 50). -/
def State.arbitrate (launch die : Nat) (s : State) (stage : Nat) : State :=
  let l := s.launch launch; let q := l.queueAt die (stage - 1)
  match l.stages[stage]? with
  | none => s
  | some st =>
    let t := nextTarget q.tokens.length (l.depth (stage - 1)) q.target st.min st.max
    let u := s.updLaunch launch fun k => k.setQueue { q with target := t }
    let have_ := (u.teams.filter fun x => x.launch == launch && x.stage == stage && x.die == die && !x.nmrun && x.status != .saved false).length
    if q.tokens.isEmpty && u.queueClosed l die (stage - 1) then u
    else (List.range (t - have_)).foldl (fun v _ => v.createStage launch stage die) u

/-- The launches with stages that the arbiter of a die looks after. -/
def State.staged (s : State) (die : Nat) : List Launch := s.launches.filter fun l => l.dieMask.getLsbD die && 1 < l.stages.length

/-- STAGE_ARBITER (R311): once for each period of 1,024 cycles that is over, where the die has stages. -/
def execStageArbiter (die : Nat) (s : State) : Out :=
  .next (if h : die < 8 then
    if (s.staged die).isEmpty || s.now / 1024 ≤ s.arbiters[die] then s
    else ((s.staged die).filter fun l => !l.stopped).foldl (fun u l =>
      (List.range (l.stages.length - 1)).foldl (fun v i => v.arbitrate l.key die (i + 1)) u)
      { s with arbiters := s.arbiters.set die (s.arbiters[die] + 1) }
  else s)

/-! ## Saving (R315, R316, R318) -/

/-- Registers that a safe point names dead are zero after the restore (R31). -/
def Group.deaden (g : Group) (p : SafePoint) : Group :=
  { g with
    s := Vector.ofFn fun i => if p.s.getLsbD i.val then g.s[i] else 0
    v := Vector.ofFn fun i => if p.v.getLsbD i.val then g.v[i] else Vector.replicate 32 0
    p := Vector.ofFn fun i => if p.p.getLsbD i.val || i.val == 0 then g.p[i] else 0
    k := Vector.ofFn fun i => if p.k.getLsbD i.val then g.k[i] else 0
    b := Vector.ofFn fun i => if p.b.getLsbD i.val then g.b[i] else 0
    poisonS := g.poisonS.filter fun q =>
      if q.1 < 64 then p.s.getLsbD q.1 else if q.1 < 80 then p.p.getLsbD (q.1 - 64) else if q.1 < 96 then p.b.getLsbD (q.1 - 80)
      else p.k.getLsbD (q.1 - 96)
    poisonV := g.poisonV.filter fun q => p.v.getLsbD q.1 }

/-- A group as it is saved: CYCLE stops, a BAR keeps its arrival and a SLEEP what it still owes, another wait is abandoned, a park
is left (R22, R31, R111, R240, R315, R332). -/
def State.saveGroup (s : State) (g : Group) : Group :=
  let g := match s.safePoint g with | some p => g.deaden p | none => g
  let g := { g with base := s.now - g.base, wait := match g.wait with | .bar a b => .bar a b | .sleep t => .sleep t | _ => .none }
  match g.stop with
  | .parked _ f _ | .parkedFull _ f _ => g.goOn f
  | .zeroing _ => { g with stop := .running }
  | _ => g

/-- A team leaves with its state (R192, R314, R316, R344): windows stay held, arrays and their cores' slot bindings go with it. What the
save area gets of that, past the windows' place, has no form that the manual gives (log 49). -/
def State.saveTeam (parked : Bool) (s : State) (t : Team) : State :=
  let one (g : Group) : Group := if g.live && g.team == t.key then s.saveGroup g else g
  let u : State := { s with cur := one s.cur, others := s.others.map one, nextId := s.nextId + 1 }
  let u := u.fillArea t t.padBytes (s.saveRest t)
  ((u.idleArrays t.arrays).updTeam t.key fun x =>
    { x with status := .saved parked, victim := .none, held := t.pads.map (·.ix), savedAt := s.nextId, leftAt := s.now, arrays := [], stuckSince := none,
             arraysSaved := t.arrays.map fun c => s.core c }).leaveDie t.launch t.die

/-- The team asked to save has every group at its save point, its work settled (R315). -/
def State.readyToSave (s : State) (t : Team) : Bool :=
  match t.victim with
  | .save _ timedOut => s.teamSettled t && s.groups.all fun g => !g.live || g.team != t.key || s.atSavePoint g timedOut
  | _ => false

/-- TEAM_SAVE (R315): a team of a cooperative grid is saved only with the whole grid (R252). -/
def execTeamSave (team : Nat) (s : State) : Out :=
  let t := s.team team; let ts := s.together t
  if ts.all fun u => u.status == .resident && s.readyToSave u then .next (ts.foldl (State.saveTeam false) s) else .next s

/-- SAVE_POINT_TIMEOUT (R315). -/
def execSavePointTimeout (team : Nat) (s : State) : Out :=
  .next (s.updTeam team fun t => match t.victim with
    | .save asked false => if asked + 65536 ≤ s.now then { t with victim := .save asked true } else t
    | _ => t)

/-- DRAIN_BUDGET_EXPIRY (R314, R317): a team that drains too long is saved, with its grid where that is cooperative. -/
def execDrainBudgetExpiry (team : Nat) (s : State) : Out :=
  let t := s.team team; let ts := s.together t
  match t.victim with
  | .drain upTo =>
    if s.retiredOf t < upTo then .next s
    else
      let v : Victim := if s.saveRoom ts then .save s.now false else .drainFree
      .next (s.setVictims ts fun _ => v)
  | _ => .next s

/-- TEAM_PARK (R311, R318): a surplus team whose groups all wait in QTAKE on an empty, unclosed instance. -/
def execTeamPark (team : Nat) (s : State) : Out :=
  let t := s.team team; let l := s.launch t.launch; let q := l.queueAt t.die (t.stage - 1)
  if t.status == .resident && !t.nmrun && 1 ≤ t.stage && q.target < (s.residents t.launch t.stage t.die).length && q.tokens.isEmpty &&
      !s.queueClosed l t.die (t.stage - 1) && s.teamSettled t && s.saveRoom [t] &&
      s.groups.all (fun g => !g.live || g.team != t.key || (g.stop == .running && g.wait == .qtake)) then
    let u := s.setVictims [t] fun _ => .save s.now false
    .next (u.saveTeam true (u.team team))
  else .next s

/-- WINDOW_CLAIM (R316): the copy of the windows that are being claimed is complete, and their storage is free. -/
def execWindowClaim (team : Nat) (s : State) : Out :=
  let t := s.team team; let ps := t.pads.filter fun p => t.held.contains p.ix && t.claiming.contains p.ix
  if ps.isEmpty then .next s
  else
    let u := ps.foldl (State.padOut t) s
    .next ((u.leavePads (s.launch t.launch).ctx ps).updTeam team fun x =>
      { x with held := x.held.filter fun i => !t.claiming.contains i, claiming := [] })

/-- TEAM_RESTORE (R31, R310, R316): the team that is served first on its die comes back, if it is a saved one; a cooperative grid comes back
as a whole (R252). -/
def execTeamRestore (team : Nat) (s : State) : Out :=
  let t := s.team team
  if t.isSaved && s.waitsForPlace t && !(s.launch t.launch).stopped then
    let u := s.drainFor t
    .next (if u.firstServed t.die t then (u.tryPlace t).getD u else u)
  else .next s

/-! ## The end of a group (R112, R184, R319) -/

/-- Every operation of R112 that a group in EXIT waits for has come in. -/
def State.mayEnd (s : State) (g : Group) : Bool :=
  g.wait == .exit && s.residentRuns g && g.lq.isEmpty && (List.finRange 12).all (fun i => g.f[i] == 0) && !s.remotePending g.key

/-- The arrival word that an NMRUN group adds to on EXIT. -/
def State.exitWord (s : State) (g : Group) : Option Nat :=
  (g.nmrun.bind fun q => s.findWork q.1).bind fun w => match w.kind with | .nmrun n => n.arrival | _ => none

/-- The addition waits: for a refresh of the word's channel, and for another stack core's row (R350, R352). -/
def State.exitWaits (s : State) (g : Group) : Bool :=
  (s.exitWord g).any fun k => s.runRefreshing g.place k 8 || s.runHeld g.place.coreIx k 8

/-- One NMRUN group fewer: on EXIT its rows are added to the arrival word, as a memory-side release; by a stack core, with an all-bank command
(R184, R185, R350). -/
def State.endNmrun (s : State) (p : Place) (id bytes : Nat) : State :=
  match s.findWork id with
  | none => s
  | some w => match w.kind with
    | .nmrun n =>
      let t := match n.arrival with | some k => ((s.allBank p k).addArrival k bytes).releaseRows p | none => s
      if n.left ≤ 1 then t.finishWork w
      else { t with work := t.work.map fun x => if x.id == id then { x with kind := .nmrun { n with left := n.left - 1 } } else x }
    | _ => s

/-- The last group of a team has ended: its resources are free and its retired count joins the stage's (R112, R313). -/
def State.endTeam (s : State) (t : Team) : State :=
  let i := Fin.ofNat 8 t.stage
  let u := s.release t
  let u : State := { u with teams := u.teams.filter fun x => x.key != t.key }
  if t.nmrun then u
  else (u.updLaunch t.launch fun l =>
    { l with endedTeams := l.endedTeams.set i (l.endedTeams[i] + 1), endedRetired := l.endedRetired.set i (l.endedRetired[i] + t.retired) })

/-- GROUP_END (R112, R302). -/
def execGroupEnd (key : Nat) (s : State) : Out :=
  match s.group key with
  | none => .next s
  | some g =>
    if !s.mayEnd g then .next s
    else if s.exitWaits g then .next (((s.exitWord g).map fun k => s.noteRun g.place.coreIx k 8).getD s)
    else
      let t := s.teamOf g
      let u := s.releaseRows g.place
      let u := match g.nmrun with | some (id, n) => u.endNmrun g.place id n | none => u
      let u := if g.remstat.d then u.updLaunch t.launch fun l =>
        { l with denials := l.denials ++ [(t.die, t.teamId.toNat, g.git, g.remstat.word)] } else u
      let u : State := { u with cur := if u.cur.key == key && u.cur.live then {} else u.cur, others := u.others.filter fun h => h.live && h.key != key }
      let u := u.updTeam t.key fun x => { x with retired := x.retired + g.retired + 1 }
      .next (if u.groups.any fun h => h.live && h.team == t.key then u else u.endTeam (u.team t.key))

end Sys2Proof.Machine
end

