-- ==== Sys2Proof/Machine/Nmrun.lean ====
section
/-! DEFINITION. Stack cores: NMRUN of major 0x8, the start of its groups, and the return trap's move to a core (R184, R185,
R347-R349). -/

namespace Sys2Proof.Machine

/-! ## NMRUN (R184) -/

/-- The NMRUN block. -/
structure NmBlock where
  base : Nat
  rowBytes : Nat
  rows : Nat
  planes : Nat
  groups : Nat
  rowStride : Nat
  planeStride : Nat
  arg : Nat
  deriving DecidableEq, Repr

def parseNm (b : Nat) : NmBlock :=
  { base := bits b 63 0, rowBytes := bits b 79 64, rows := bits b 95 80, planes := bits b 111 96, groups := bits b 127 112,
    rowStride := bits b 159 128, planeStride := bits b 191 160, arg := bits b 255 192 }

/-- A limit of the block is broken. -/
def nmBad (n : NmBlock) : Bool :=
  n.base % 64 != 0 || n.rowBytes % 64 != 0 || n.rowBytes < 64 || 65472 < n.rowBytes || n.rows == 0 || n.planes == 0 ||
  n.groups == 0 || 8 < n.groups || n.rowStride % 64 != 0 || n.planeStride % 64 != 0

/-- The granules that the tile's rows touch. -/
def nmPages (n : NmBlock) : List Nat :=
  ((List.range n.planes).flatMap fun p => (List.range n.rows).flatMap fun r =>
    (granuleRuns (n.rowBytes / 2 ^ 16 + 2) 0 ((n.base + p * n.planeStride + r * n.rowStride) % 2 ^ 57) n.rowBytes).map fun q => granuleOf q.2.1).dedup

/-- Every page of the tile translated, and the one stack of the issuing die that holds them all. -/
def State.nmTile (s : State) (n : NmBlock) : Except Halt (State × Nat) :=
  let die := s.cur.place.die; let ctx := (s.launchOf s.cur).ctx
  let ws := (nmPages n).map fun a => (a, s.translate die ctx a)
  let at_ (f : Walk → Bool) : Option Word := (ws.find? fun q => f q.2).map fun q => BitVec.ofNat 64 q.1
  let leaves := ws.filterMap fun q => match q.2 with | .leaf t => some (q.1, t) | _ => none
  let gone := ws.filterMap fun q => match q.2 with | .absent => some q.1 | _ => none
  match ws.findSome? fun q => match q.2 with | .zero e => some e | _ => none with
  | some e => .error (.zeroing e)
  | none =>
    match at_ (fun w => match w with | .malformed | .poisoned _ => true | _ => false) with
    | some a => .error (s.protHalt { cause := causeProt, slot := 11, addr := a })
    | none =>
      match leaves.find? fun q => q.2.hm || frameDie q.2.pa != die || frameStack (q.2.key q.1) != frameStack ((leaves.headD q).2.key (leaves.headD q).1) with
      | some q => failAddr causeRemoteLocal 11 (BitVec.ofNat 64 q.1)
      | none =>
        if !gone.isEmpty then .error (.miss (gone.map fun a => (a, false)) (pageFault 11 (BitVec.ofNat 64 (gone.headD 0)) 0))
        else .ok (leaves.foldl (fun (t : State) q => t.cache q.2) s, ((leaves.head?).map fun q => frameStack (q.2.key q.1)).getD 0)

/-- The first row and the row count of each group. -/
def nmPieces (rows groups : Nat) : List (Nat × Nat × Nat) :=
  (List.range groups).map fun i => (i, i * rows / groups, (i + 1) * rows / groups - i * rows / groups)

/-- NMRUN (R184): the checks in operand order, the block, the tile, the arrival word; then the groups wait to start. A block address, or a
tile's address in the block, with a bit of [63:57] set is PROT naming b (log 67, DESIGN CHOICE: R184 names no fault for it). -/
def execNmrun (a b c : Fin 64) (fl : Fin 13) (s : State) : Out :=
  scalar [(10, a), (11, b), (12, c)] (fun s => do
    let l := s.launchOf s.cur; let entry := (s.rs a).toNat; let blk := s.rs b
    ensure (entry < 2 ^ 32 && entry % 4 == 0 && entry + 4 ≤ l.ssize) (named causeBounds 10)
    ensure (bits blk.toNat 63 57 == 0) (namedAt causeProt 11 blk)
    ensure (blk.toNat % 32 == 0) (named causeBounds 11)
    let (t, line) ← s.line .read blk.toNat 11
    let key := line.key blk.toNat
    let t ← t.heldCheck key
    ensure (!t.poisonedAt key 32) (.poison key 32 { poisonFault 11 (levelCode key) with addr := blk })
    let n := parseNm (t.read key 32)
    ensure (!nmBad n) (named causeBounds 11)
    ensure (bits n.base 63 57 == 0) (namedAt causeProt 11 (BitVec.ofNat 64 n.base))
    let (u, stack) ← t.nmTile n
    let (v, arr) ← u.tagWord .write (s.rs c) 12
    let v ← v.heldCheck arr
    ensure (arrUnit (v.read arr 8) == 0) (namedAt causeProt 12 (s.rs c) 1)
    v.acceptWork fl (.nmrun {
      die := s.cur.place.die, stack := stack % 2, launch := l.key, teamId := (s.teamOf s.cur).teamId, stage := (s.teamOf s.cur).stage
      entry := entry, arg := BitVec.ofNat 64 n.arg, blk := blk, arrival := some arr, rowBytes := n.rowBytes
      pieces := nmPieces (n.rows * n.planes) n.groups, left := n.groups })) s

/-! ## The groups of NMRUN (R9, R347) -/

/-- The free group slots of a stack core: 16 lanes of four. -/
def State.freeStackSlots (s : State) (die stack core : Nat) : List Place :=
  let ix := 96 + die * 16 + stack * 8 + core
  let used := s.groups.filterMap fun g => if g.live && g.place.coreIx == ix then some (g.place.lane, g.place.slot) else none
  (List.range 64).filterMap fun i =>
    if used.contains (i % 16, i / 16) then none
    else some { die := die, plane := i % 16, lane := i % 16, slot := i / 16, stack := some (stack, core) }

/-- NMRUN_GROUP_START (R15, R184, R344, R347): the first group that its stack core can give a slot, a window and, where its launch binds
them, the watermark slots starts; until then the partials of another context leave those. The bytes that its EXIT adds are fixed here
from the row count that s4 holds at the start, whatever the program writes to s4 later (log 68, DESIGN CHOICE: R184 says only
"s4"). -/
def execNmrunGroupStart (id : Nat) (s : State) : Out :=
  match s.findWork id with
  | none => .next s
  | some w =>
    match w.kind with
    | .nmrun n =>
      let l := s.launch n.launch
      let size := if 2 ^ 18 < l.deckle[(0 : Fin 3)] then 0 else l.deckle[(0 : Fin 3)]
      let start (p : Nat × Nat × Nat) : Option State :=
        let ix := 96 + n.die * 16 + n.stack * 8 + p.1
        let need := l.wmslots != 0
        if s.fenced.contains (.core ix) || (need && !s.slotsFree [] l.ctx ix) then none
        else if need && !s.slotsReady ix l.ctx then (let u := s.drainSlots ix l.ctx; if u = s then none else some u)
        else match s.freeStackSlots n.die n.stack p.1, firstFit (2 ^ 18) size (s.padsTaken [] 0 n.die 0 [ix]) with
          | pl :: _, some win =>
            let team : Team := { key := s.nextId, launch := n.launch, teamId := n.teamId, stage := n.stage, die := n.die, status := .resident,
                                 win := (Vector.replicate 3 ({} : Window)).set 0 win, unitCores := [ix], placedAt := s.now, nmrun := true }
            let g : Group := {
              key := s.nextId + 1, live := true, team := s.nextId, place := pl, spc := BitVec.ofNat 64 (l.scode + n.entry), base := s.now
              s := (((((Vector.replicate 64 (0 : Word)).set 1 n.arg).set 2 n.blk).set 3 (BitVec.ofNat 64 p.2.1)).set 4 (BitVec.ofNat 64 p.2.2)).set 5
                (BitVec.ofNat 64 p.1)
              nmrun := some (id, p.2.2 * n.rowBytes) }
            let u : State := { s with
              teams := s.teams ++ [team], others := s.others ++ [g], nextId := s.nextId + 2
              work := s.work.map fun x => if x.id == id then { x with kind := .nmrun { n with pieces := n.pieces.filter (· != p) } } else x }
            some (u.occupy team)
          | _, _ => none
      .next ((n.pieces.findSome? start).getD s)
    | _ => .next s

/-! ## The return trap (R349) -/

/-- RETURN_TRAP_MIGRATE (R349): once its work is done and its die has a slot and a window for it, no team or group of its die being served
first, the group goes on there with its registers, its clauses and its window's bytes. -/
def execReturnTrapMigrate (key : Nat) (s : State) : Out :=
  match s.group key with
  | none => .next s
  | some g =>
    let t := s.teamOf g
    if g.stop != .returned || !s.settled key || g.wait.goesOn || !s.firstServed t.die t then .next s
    else match s.returnFit t with
      | none => .next s
      | some (p, w) =>
        let ctx := (s.launchOf g).ctx
        if s.binds t && !s.slotsReady p.coreIx ctx then .next (s.drainSlots p.coreIx ctx)
        else
        let n : Team := { t with cluster := p.cluster, unitCores := [p.coreIx], win := t.win.set 0 w, placedAt := s.now }
        let u := s.releaseRows g.place
        let u := u.occupy n
        let u := (t.pads.zip n.pads).foldl (fun (v : State) q => v.movePad ctx q.1.key q.2.key q.2.len) u
        .next ((u.leavePads ctx t.pads).updGroup key fun h => { h with place := p, stop := .running })

end Sys2Proof.Machine
end

