-- ==== Sys2Proof/Machine/Faults.lean ====
section
/-! DEFINITION. Fault records and the fault queue, the watchdog, page requests and replicas (R256-R265,
R330-R334, R360, R404). -/

namespace Sys2Proof.Machine

/-! ## Fault records (R256-R259) -/

/-- FL (R256). -/
def FaultInfo.fl (f : FaultInfo) (stack : Bool) : Nat :=
  (if f.lane then 1 else 0) + (if f.part then 4 else 0) + (if stack then 8 else 0) + (if f.hw then 16 else 0)

/-- The 64 bytes of a record. -/
def State.recordBytes (s : State) (g : Group) (f : FaultInfo) (clpos seq : Nat) : List Byte :=
  let t := s.teamOf g; let p := { g.place with plane := f.plane.getD g.place.plane }
  leBytes 1 f.cause ++ leBytes 1 (f.fl p.onStack) ++ leBytes 1 f.slot ++ leBytes 1 clpos ++ leBytes 4 f.tmask.toNat ++
    leBytes 8 g.nextScalar.toNat ++ leBytes 8 (s.lpc g).toNat ++ leBytes 8 f.addr.toNat ++
    leBytes 2 (match f.brec with | some b => 16 + b | none => 0) ++ leBytes 1 (s.launchOf g).ctx ++ leBytes 1 0 ++
    leBytes 4 (s.unitOf p).toNat ++ leBytes 4 t.teamId.toNat ++ leBytes 1 g.git ++ leBytes 1 t.stage ++ leBytes 2 0 ++
    leBytes 8 f.detail.toNat ++ leBytes 8 seq

/-! ## The fault queue (R260, R404) -/

/-- Virtual address of a slot. -/
def Ctx.slotVa (c : Ctx) (i : Nat) : Nat := c.fqbase + 64 * i

/-- The lowest-numbered free slot. -/
def Ctx.freeSlot (c : Ctx) : Option Nat := (List.range c.fqlen).find? fun i => !c.slots.any fun e => e.1 == i

/-- A launch whose records are answered as they are written: it has been terminated, is lost or has ended (R404; log 48). -/
def State.answered (s : State) (launch : Nat) : Bool := !s.launches.any fun l => l.key == launch && !l.stopped

/-- Held records written while slots are free and can be translated, in SEQ order, a frame that must be zeroed first (R333); the slot of
one that is answered already is freed with that. The first that cannot be translated is told of once, and tried again within 100 us. n
bounds their number. -/
def State.writeHeld (ctx : Nat) : Nat → State → State
  | 0, s => s
  | n + 1, s =>
    let c := s.ctx ctx
    match c.held, c.freeSlot with
    | (seq, launch, bytes, told) :: r, some i =>
      let s := (s.zeroFrame ctx (c.slotVa i)).noteWalk 0 ctx (c.slotVa i)
      (match s.translate 0 ctx (c.slotVa i) with
      | .leaf t =>
        let done := s.answered launch
        State.writeHeld ctx n ((((s.cache t).writeBytes (t.key (c.slotVa i)) (if done then 0 :: bytes.drop 1 else bytes)).updCtx ctx fun x =>
          { x with held := r, slots := if done then x.slots else x.slots ++ [(i, seq, launch)], fqhold := none }).msix 256)
      | _ =>
        let u := s.updCtx ctx fun x => { x with held := (seq, launch, bytes, true) :: r, fqhold := some (s.ns + 100000) }
        if told then u else u.logEvent { kind := 0x24, ctx := ctx, data := leBytes 8 (c.slotVa i) ++ leBytes 8 seq })
    | _, _ => s.updCtx ctx fun x => { x with fqhold := none }

def State.flushHeld (s : State) (ctx : Nat) : State := s.writeHeld ctx (s.ctx ctx).held.length

/-- Slots freed: the first byte of each is written as zero, and held records may follow. -/
def State.freeRecords (s : State) (ctx : Nat) (p : Nat × Nat × Nat → Bool) : State :=
  let c := s.ctx ctx
  let clear (t : State) (e : Nat × Nat × Nat) : State :=
    let t := (t.zeroFrame ctx (c.slotVa e.1)).noteWalk 0 ctx (c.slotVa e.1)
    match t.translate 0 ctx (c.slotVa e.1) with
    | .leaf l => t.write (l.key (c.slotVa e.1)) 1 0
    | _ => t
  (((c.slots.filter p).foldl clear s).updCtx ctx fun x => { x with slots := x.slots.filter fun e => !p e }).flushHeld ctx

/-- A stopped group's record falls due: it takes the next SEQ, and is written or held; a hardware error is logged (R256, R260,
R385). -/
def State.recordFault (s : State) (g : Group) (f : FaultInfo) (clpos : Nat) : State :=
  let seq := s.faultSeq + 1; let ctx := (s.launchOf g).ctx
  let t := { s with faultSeq := seq }.updGroup g.key fun h => { h with stop := .recorded seq f clpos }
  let t := t.updCtx ctx fun c => { c with held := c.held ++ [(seq, (s.launchOf g).key, s.recordBytes g f clpos seq, false)] }
  let t := if f.hw then t.logEvent
      { kind := 0x0003, ctx := ctx, unit := s.unitOf { g.place with plane := f.plane.getD g.place.plane }, data := leBytes 8 seq } else t
  t.flushHeld ctx

/-- FAULT_RECORD_WRITE (R163, R255, R256): once the group's committed work is done, and the scalar instruction that was under way has
completed or been accepted. -/
def execFaultRecordWrite (key : Nat) (s : State) : Out :=
  match s.group key with
  | none => .next s
  | some g => match g.stop with
    | .faulted f clpos => if s.settled key && !g.wait.goesOn then .next (s.recordFault g f clpos) else .next s
    | _ => .next s

/-- FAULT_QUEUE_RETRY (R404). -/
def execFaultQueueRetry (ctx : Nat) (s : State) : Out :=
  match (s.ctx ctx).fqhold with
  | some t => if t ≤ s.ns then .next (s.flushHeld ctx) else .next s
  | none => .next s

/-! ## The watchdog (R264, R265) -/

/-- The wait that the watchdog counts, as DETAIL numbers it; BAR counts before its arrival too (log 55). -/
def Wait.counted : Wait → Option Nat
  | .bar _ false | .barFence => some 0
  | .arrwait false => some 1
  | .waita false _ _ _ _ => some 2
  | .qtake => some 3
  | .qemit => some 4
  | _ => Option.none

/-- Every group of a resident team that has not ended is in a counted wait. -/
def State.stuck (s : State) (t : Team) : Bool :=
  let gs := s.groups.filter fun g => g.live && g.team == t.key
  t.status == .resident && !gs.isEmpty && gs.all fun g => g.stop == .running && (Wait.counted g.wait).isSome

/-- Every team's stuck time kept up (R264). -/
def State.watch (s : State) : State :=
  { s with teams := s.teams.map fun t => if s.stuck t then { t with stuckSince := some (t.stuckSince.getD s.now) } else { t with stuckSince := none } }

/-- One group of a stuck team faults at its wait and writes its record. -/
def State.barkAt (s : State) (key : Nat) : State :=
  match s.group key with
  | none => s
  | some g => match Wait.counted g.wait with
    | none => s
    | some n =>
      let f : FaultInfo := { cause := causeWatchdog, detail := BitVec.ofNat 64 n }
      let t := s.updGroup key fun h => { h with stop := .faulted f 0, wait := .none, tmask := 0xFFFFFFFF }
      t.recordFault { g with stop := .faulted f 0 } f 0

/-- WATCHDOG (R265): once the lanes have run what was enqueued and committed work is done (R163, R254), each group writes its
record, in ascending GRPINTEAM order. -/
def execWatchdog (team : Nat) (s : State) : Out :=
  let t := s.team team
  let gs := (s.groups.filter fun g => g.live && g.team == team).insertionSort fun g h => g.git ≤ h.git
  match t.stuckSince with
  | none => .next s
  | some since =>
    if s.stuck t && since + (s.ctx (s.launch t.launch).ctx).wdog ≤ s.now && gs.all (fun g => g.lq.isEmpty && s.settled g.key) then
      .next ((gs.foldl (fun (u : State) g => u.barkAt g.key) s).updTeam team fun x => { x with stuckSince := none })
    else .next s

/-! ## Page requests (R330-R332, R360) -/

/-- The requests that a die may hold unanswered; with fewer than 8 in all, the dies share them (R360). -/
def State.allowed (s : State) (die : Nat) : Bool :=
  let held (p : Prg → Bool) : Nat := (s.prgOut.filter p).foldl (fun n g => n + g.count) 0
  if s.allowance < 8 then held (fun _ => true) < s.allowance
  else held (fun g => g.die == die) < s.allowance / 8 + if die < s.allowance % 8 then 1 else 0

/-- The next queued group of a die; with fewer than 8 requests in all, only the first of every die's. -/
def State.nextGroup (s : State) (die : Nat) : Option Nat :=
  if s.allowance < 8 then (s.prgQueue.head?).bind fun q => if q.1 = die then some q.2 else none
  else (s.prgQueue.find? fun q => q.1 == die).map (·.2)

/-- The index of a group that has begun to leave, or the lowest free one (R360). -/
def State.prgIndex (s : State) (grp : Nat) : Option Nat :=
  match s.prgOut.find? fun g => g.group == grp with
  | some g => some g.idx
  | none => (List.range 512).find? fun i => !s.prgOut.any fun g => g.idx == i

/-- PAGE_REQUEST_SEND (R331, R360): the next request of the next group leaves, the last of them with its flag. -/
def execPageRequestSend (die : Nat) (s : State) : Out :=
  match s.nextGroup die with
  | none => .next s
  | some grp =>
    let unsent := s.merges.filter fun m => m.group == grp && !m.sent
    match unsent with
    | [] => .next { s with prgQueue := s.prgQueue.filter fun q => q.2 != grp }
    | m :: r =>
      match s.allowed die, s.prgIndex grp with
      | true, some i =>
        let pasid := if h : m.ctx < 64 then s.ctxPasid[m.ctx].toNat % 2 ^ 20 else 0
        let out := if s.prgOut.any fun g => g.group == grp then
            s.prgOut.map fun g => if g.group == grp then { g with count := g.count + 1 } else g
          else s.prgOut ++ [{ idx := i, pasid := pasid, group := grp, die := die, ctx := m.ctx, count := 1 }]
        .next { s with
          merges := s.merges.map fun x => if x == m then { x with sent := true } else x
          prgOut := out
          prgQueue := if r.isEmpty then s.prgQueue.filter (fun q => q.2 != grp) else s.prgQueue
          hostOut := s.hostOut ++ [.pageRequest pasid i m.granule m.write r.isEmpty] }
      | _, _ => .next s

/-- A group parked on a granule whose request has failed faults with PAGE (R262, R331). -/
def Group.pageFailed (g : Group) : Group :=
  match g.stop with
  | .parked _ f clpos | .parkedFull _ f clpos => { g with stop := .faulted { f with detail := f.detail ||| 4 } clpos }
  | _ => g

/-- The group is parked on one of some merge entries of its die and context. -/
def State.listedIn (s : State) (ms : List Merge) (g : Group) : Bool :=
  g.live && match g.stop with
    | .parked gs _ _ | .parkedFull gs _ _ => gs.any fun a => ms.any fun m => m.granule == a && m.die == g.place.die && m.ctx == (s.launchOf g).ctx
    | _ => false

/-- The page that a walk has found. -/
def Walk.page : Walk → Option Nat
  | .leaf t => some t.va
  | .zero p => some p
  | _ => none

/-- A merge entry of the context lies on a page that has been mapped under one of some entries (R330). -/
def State.nowMapped (s : State) (p : Prg) (ms : List Merge) (m : Merge) : Bool :=
  m.ctx == p.ctx && match (s.translate p.die p.ctx m.granule).page with
    | some v => ms.any fun a => (s.translate p.die p.ctx a.granule).page == some v
    | none => false

/-- A first response satisfies every miss on the page that it maps (R330): their groups go on, and entries are freed, but for those
unsent ones whose group's requests have begun to leave, which complete that group (R331). -/
def State.satisfy (s : State) (p : Prg) (ms : List Merge) : State :=
  let hit := s.nowMapped p ms
  let t := s.wakeMerge hit
  { t with merges := t.merges.filter fun m => !hit m || (!m.sent && t.prgOut.any fun g => g.group == m.group) }

/-- PAGE_REQUEST_RESPONSE (R331, R360): a response that matches no outstanding group is discarded. -/
def execPageRequestResponse (pasid idx : Nat) (ok : Bool) (s : State) : Out :=
  match s.prgOut.find? fun g => g.pasid == pasid && g.idx == idx with
  | none => .next s
  | some p =>
    let ms := s.merges.filter fun m => m.group == p.group
    let fail (g : Group) : Group := if s.listedIn ms g then g.pageFailed else g
    let t := if ok then s else { s with cur := fail s.cur, others := s.others.map fail }
    let t := ({ t with prgOut := t.prgOut.filter fun g => !(g.pasid == pasid && g.idx == idx) } : State).freeMerge fun m => m.group == p.group
    .next (if ok then t.satisfy p ms else t)

/-! ## Replicas (R334) -/

/-- REPLICA_FILL (R334): a copy of a sealed granule on another die is complete; it holds what the home holds, so only timing
changes. -/
def execReplicaFill (die ctx granule : Nat) (s : State) : Out :=
  match s.translate die ctx granule with
  | .leaf t =>
    let r : Replica := { die := die, ctx := ctx, granule := granule, page := t.va, size := t.size }
    if t.sealed && !t.hm && frameDie t.pa != die && granule % 2 ^ 16 == 0 && !s.replicas.contains r &&
        ((s.replicas.filter fun x => x.die == die).length + 1) * 2 ^ 16 ≤ s.params.replicaGiB * 2 ^ 30 then
      .next { s.cache t with replicas := s.replicas ++ [r] }
    else .next s
  | _ => .next s

end Sys2Proof.Machine
end

