-- ==== Sys2Proof/Machine/Queues.lean ====
section
/-! DEFINITION. Command queues: registers, blocks, the order in which entries start and are counted, and what a completed entry
writes (R296-R303). -/

namespace Sys2Proof.Machine

/-! ## Completion (R301, R302) -/

def State.queue (s : State) (q : Nat) : Queue := (s.queues.find? fun x => x.q == q).getD { q := q }
def State.setQueue (s : State) (x : Queue) : State := { s with queues := x :: s.queues.filter fun y => y.q != x.q }

/-- A status record. -/
def statusBytes (code reason denials result detail : Nat) : List Byte :=
  leBytes 1 code ++ leBytes 1 reason ++ leBytes 2 (min denials 0xFFFF) ++ leBytes 4 result ++ leBytes 8 detail

/-- A status record written, where the entry names a place for it. -/
def State.writeStatus (s : State) (e : EntryRef) (bs : List Byte) : State := if e.status = 0 then s else s.writeBytes (hostKey e.status) bs

/-- Completed entries counted in entry order: status record, completion word, MSI-X. n bounds their number. -/
def State.countDone (q : Nat) : Nat → State → State
  | 0, s => s
  | n + 1, s =>
    let x := s.queue q
    match x.open_.find? fun e => e.ref.n == x.counted + 1 with
    | none => s
    | some e => match e.done with
      | none => s
      | some bs =>
        let t := (s.writeStatus e.ref bs).setQueue
          { x with counted := x.counted + 1, open_ := x.open_.filter fun f => f.ref.n != e.ref.n }
        let t := t.write (hostKey (bits x.comp.toNat 56 3 * 8)) 8 (x.counted + 1 - x.first)
        State.countDone q n (if e.ref.notify then t.msix q else t)

/-- An entry complete: counted when every earlier one is; one that started before EN was last set only writes its record. -/
def State.complete (s : State) (e : EntryRef) (code : Nat) (reason denials result detail : Nat := 0) : State :=
  let bs := statusBytes code reason denials result detail; let x := s.queue e.queue
  if e.n ≤ x.first then
    ({ s with queues := s.queues.map fun y =>
        if y.q == e.queue then { y with open_ := y.open_.filter fun f => f.ref != e } else y } : State).writeStatus e bs
  else if x.open_.any fun f => f.ref == e then
    ({ s with queues := s.queues.map fun y =>
        if y.q == e.queue then { y with open_ := y.open_.map fun f => if f.ref == e then { f with done := some bs, waits := none } else f } else y } : State).countDone
      e.queue x.open_.length
  else s.writeStatus e bs

def codeDone : Nat := 0
def codeFaulted : Nat := 1
def codeRefused : Nat := 2
def codeDenied : Nat := 3
def codeLost : Nat := 4

/-- An entry refused (R302). -/
def State.refuse (s : State) (e : EntryRef) (reason : Nat) : State := s.complete e codeRefused reason

/-! ## Blocks (R300, R303-R305) -/

/-- A quadword of a block. -/
def quad (b at_ : Nat) : Nat := b / 2 ^ (8 * at_) % 2 ^ 64

/-- The LAUNCH payload (R304). -/
def parseLaunch (b : Nat) (e : EntryRef) : Option Instr :=
  let x := quad b 40; let y := quad b 48
  if bits (quad b 24) 63 57 != 0 || quad b 24 % 2 ^ 16 != 0 || bits (quad b 32) 63 57 != 0 || bits x 31 0 == 0 || bits x 47 46 != 0 ||
      bits x 63 51 != 0 || (!bit x 50 && bits y 15 0 != 0) || bits y 63 48 != 0 then none
  else some (.launch e {
    obj := quad b 24, args := quad b 32, teams := bits x 31 0, dieMask := BitVec.ofNat 8 (bits x 39 32), ctx := bits x 45 40, coop := bit x 48
    idem := bit x 49, place := bit x 50, layout := bits y 15 0, mxuse := BitVec.ofNat 16 (bits y 31 16), kidx := bits y 47 32 })

/-- The CTXCREATE payload (R305, R320). -/
def parseCtx (b : Nat) (e : EntryRef) : Option Instr :=
  let x := quad b 64; let w := bits x 46 41; let page (v lo : Nat) : Bool := bits v 63 57 != 0 || v % 2 ^ lo != 0
  if page (quad b 24) 13 || page (quad b 32) 21 || page (quad b 40) 0 || bits (quad b 48) 63 57 != 0 || page (quad b 56) 6 || bits x 31 0 == 0 ||
      2 ^ 20 < bits x 31 0 || bits x 39 38 != 0 || bit x 47 || (w != 0 && (w < 24 || 40 < w)) || page (quad b 72) 16 || page (quad b 80) 16 then none
  else some (.ctxcreate e {
    ptroot := quad b 24, shbase := quad b 32, shsize := quad b 40, wmtab := BitVec.ofNat 64 (quad b 48), fqbase := quad b 56, fqlen := bits x 31 0
    ctx := bits x 37 32, debug := bit x 40, wdog := w, fabid := bits x 63 48, savebase := quad b 72, savesize := quad b 80 })

/-- The command of a block: its least LEN, where its payload ends, and what the payload says; none for an unassigned operation
(R303). -/
def parseOp (op b : Nat) (e : EntryRef) : Option (Nat × Nat × Option Instr) :=
  let ctx := quad b 24; let va := quad b 24
  let onCtx (i : Instr) : Option Instr := if ctx < 64 then some i else none
  let far (v : Nat) : Bool := bits v 63 57 != 0
  match op with
  | 0x01 => some (0, 56, parseLaunch b e)
  | 0x02 => some (0, 56, if 64 ≤ quad b 48 || quad b 40 % 16 != 0 || far (quad b 24) || far (quad b 32) then none
      else some (.copy e (quad b 24) (quad b 32) (quad b 40) (quad b 48)))
  | 0x03 => some (0, 48, if va % 8 != 0 || 2 ≤ quad b 40 then none else some (.signal e va (BitVec.ofNat 64 (quad b 32)) (quad b 40 == 1)))
  | 0x04 => some (0, 40, if va % 8 != 0 then none else some (.wait e va (BitVec.ofNat 64 (quad b 32))))
  | 0x10 => some (1, 88, parseCtx b e)
  | 0x11 => some (0, 32, onCtx (.ctxdestroy e ctx))
  | 0x12 => some (0, 48, if 256 ≤ quad b 40 then none else onCtx (.wmalloc e ctx (quad b 32) (BitVec.ofNat 8 (quad b 40))))
  | 0x13 => some (0, 48, onCtx (.wmfree e ctx (quad b 32) (quad b 40)))
  | 0x14 => some (0, 48, if far (quad b 32) then none else onCtx (.tlbinv e ctx (quad b 32) (quad b 40)))
  | 0x20 => some (0, 32, some (.calload e va))
  | 0x21 => some (0, 32, some (.health e va))
  | 0x30 => some (0, 40, onCtx (.retry e ctx (quad b 32)))
  | 0x31 => some (0, 40, onCtx (.terminate e ctx (quad b 32)))
  | 0x32 => some (0, 40, if 2 ^ 32 ≤ quad b 32 then none else onCtx (.release e ctx (BitVec.ofNat 32 (quad b 32))))
  | _ => none

/-- An entry about to start: its address, its reference, its command; none for a malformed block. -/
structure Head where
  addr : Nat
  ref : EntryRef
  cmd : Option Instr
  deriving DecidableEq, Repr

/-- The block at an address as the n-th entry of a queue. A STATUS that is not aligned makes it malformed, and no record is
written for it. -/
def State.headAt (s : State) (q n addr : Nat) : Head :=
  let h := s.read (hostKey addr) 8; let st := s.read (hostKey (addr + 16)) 8; let len := bits h 11 8
  let b := s.read (hostKey addr) (64 * (len + 1))
  let e : EntryRef := { queue := q, n := n, notify := bit h 13, status := if st % 16 = 0 then st else 0 }
  { addr := addr, ref := e
    cmd := if st % 16 != 0 || bits h 63 14 != 0 then none
      else match parseOp (bits h 7 0) b e with
        | some (least, end_, i) => if len < least || b / 2 ^ (8 * end_) != 0 then none else i
        | none => none }

/-- The entry that may start next (R299, R300): its NEXT is read with bits [5:0] ignored. -/
def State.nextEntry (s : State) (q : Nat) : Option Head :=
  let x := s.queue q
  if !x.en || x.waiting.isSome || x.appended ≤ x.started then none
  else
    let addr := if x.started = x.first then bits x.base.toNat 56 6 * 64 else s.read (hostKey (x.last + 8)) 8 / 64 * 64
    if bit (s.read (hostKey addr) 8) 12 && x.counted < x.started then none else some (s.headAt q (x.started + 1) addr)

/-- An entry starts. -/
def State.startEntry (s : State) (h : Head) : State :=
  let x := s.queue h.ref.queue
  s.setQueue { x with started := x.started + 1, last := h.addr, open_ := x.open_ ++ [{ ref := h.ref, cmd := h.cmd }] }

/-- Malformed entries that may start are refused one after the other. n bounds their number. -/
def State.refuseBad (q : Nat) : Nat → State → State
  | 0, s => s
  | n + 1, s => match s.nextEntry q with
    | some h => if h.cmd.isNone then State.refuseBad q n ((s.startEntry h).refuse h.ref 0x01) else s
    | none => s

/-- What an entry that is open waits for. -/
def State.waitsOf (s : State) (e : EntryRef) (i : Instr) : Option (List Nat) :=
  ((s.queue e.queue).open_.find? fun f => f.ref == e && f.cmd == some i).bind (·.waits)

/-- The entry, once started, waits for pieces of work. -/
def State.setWaits (s : State) (e : EntryRef) (ids : List Nat) : State :=
  { s with queues := s.queues.map fun y =>
      if y.q == e.queue then { y with open_ := y.open_.map fun f => if f.ref == e then { f with waits := some ids } else f } else y }

/-- A command: it starts when it is the next entry of its queue; one that waits goes on when what it waits for is done. -/
def command (i : Instr) (e : EntryRef) (first : State → State) (again : List Nat → State → State) (s : State) : Out :=
  match s.nextEntry e.queue with
  | some h => if h.cmd == some i && h.ref == e then .next (first (s.startEntry h))
    else .next (match s.waitsOf e i with | some ids => again ids s | none => s)
  | none => .next (match s.waitsOf e i with | some ids => again ids s | none => s)

/-- A command that is done in one step. -/
def commandOnce (i : Instr) (e : EntryRef) (f : State → State) (s : State) : Out := command i e f (fun _ t => t) s

/-! ## Queue registers (R298, R299) -/

/-- PRIO as it is stored. -/
def storedPrio (p : Nat) : Nat := min (p % 64) 47

/-- EN is set: BASE becomes entry 1, the counts start again and the completion word is zero; while EN is set only PRIO
changes. Entries that have started run to their end: those that were complete and not yet counted get their status records. -/
def State.queueEnable (q prio : Nat) (s : State) : State :=
  let x := s.queue q
  if 256 ≤ q then s
  else if x.en then s.setQueue { x with prio := storedPrio prio }
  else
    let t := x.open_.foldl (fun (t : State) e => match e.done with | some bs => t.writeStatus e.ref bs | none => t) s
    let t := t.setQueue { x with
      en := true, prio := storedPrio prio, tail := 0, appended := x.started, counted := x.started, first := x.started
      open_ := x.open_.filter fun e => e.done.isNone, waiting := none }
    t.write (hostKey (bits x.comp.toNat 56 3 * 8)) 8 0

/-- EN is cleared: no further entry starts, and a WAIT that holds the queue is given up (R303). -/
def State.queueDisable (q prio : Nat) (s : State) : State :=
  if 256 ≤ q then s else s.setQueue { s.queue q with en := false, prio := storedPrio prio, waiting := none }

/-- TAIL is written (R299): a smaller TAIL is ignored; malformed entries at the head of the queue are refused. -/
def State.qtailWrite (q : Nat) (tail : BitVec 32) (s : State) : State :=
  let x := s.queue q; let d := (tail - x.tail).toNat
  if 256 ≤ q || !x.en || 2 ^ 31 ≤ d then s
  else ((s.setQueue { x with tail := tail, appended := x.appended + d }).refuseBad q (x.appended + d - x.started))

/-! ## WAIT and SIGNAL (R303) -/

/-- SIGNAL. -/
def execSignal (e : EntryRef) (va : Nat) (val : Word) (add : Bool) (s : State) : Out :=
  commandOnce (.signal e va val add) e (fun s =>
    (s.write (hostKey va) 8 (if add then s.read (hostKey va) 8 + val.toNat else val.toNat)).complete e codeDone) s

/-- WAIT: done at once, or the queue is held. -/
def execWait (e : EntryRef) (va : Nat) (val : Word) (s : State) : Out :=
  commandOnce (.wait e va val) e (fun s =>
    if val.toNat ≤ s.read (hostKey va) 8 then s.complete e codeDone
    else s.setQueue { s.queue e.queue with waiting := some (e, va, val) }) s

/-- QUEUE_WAIT_SATISFIED: the word has reached the value. -/
def execQueueWaitSatisfied (q : Nat) (s : State) : Out :=
  match (s.queue q).waiting with
  | some (e, va, val) =>
    if val.toNat ≤ s.read (hostKey va) 8 then .next ((s.setQueue { s.queue q with waiting := none }).complete e codeDone) else .next s
  | none => .next s

end Sys2Proof.Machine
end

