-- ==== Sys2Proof/Machine/Launches.lean ====
section
/-! DEFINITION. Launches: the object, the checks of LAUNCH, the start and the end of a grid, and the answers to stopped groups (R113,
R252, R261, R302-R312, R319, R337, R384, R404). -/

namespace Sys2Proof.Machine

/-! ## The object (R307, R308, R312) -/

/-- What a LAUNCH takes from the object and its kernel record. -/
structure Kernel where
  image : Nat
  ssize : Nat
  lcode : Nat
  lsize : Nat
  groups : Nat
  wmslots : Nat
  deckle : Vector Nat 3
  stages : List Stage
  safePoints : List SafePoint
  deriving DecidableEq, Repr

/-- A header that fails R307; an offset and its length lie inside the object as far as the header tells. -/
def headerBad (obj h : Nat) : Bool :=
  let q (i : Nat) := quad h i
  let inside (off len : Nat) : Bool := obj + off + len ≤ 2 ^ 57
  bits h 31 0 != 0x52504F4A || bits h 47 32 != 1 || bits h 63 48 == 0 || q 8 % 2 ^ 16 != 0 || q 24 % 4 != 0 || q 32 % 16 != 0 || q 40 % 12 != 0 ||
  h / 2 ^ (8 * 104) != 0 || q 16 < q 24 || !inside (q 8) (q 16) || !inside (q 32) (q 40) || !inside (q 48) (16 * q 56) ||
  !inside (q 64) (64 * bits h 63 48) || !inside (q 72) (q 80) || !inside (q 88) (q 96)

/-- A kernel record that fails R308. -/
def kernelBad (h k : Nat) : Bool :=
  let side := quad h 80
  bits k 31 0 % 4 != 0 || quad h 24 < bits k 31 0 + 4 || bits k 39 32 == 0 || 64 < bits k 39 32 || bits k 47 40 == 0 || 8 < bits k 47 40 ||
  bits k 63 56 != 0 || quad k 56 != 0 || bits k 95 64 % 2 ^ 12 != 0 || bits k 127 96 % 2 ^ 16 != 0 || bits k 159 128 % 2 ^ 18 != 0 ||
  levelSize 0 < bits k 95 64 || levelSize 1 < bits k 127 96 || levelSize 2 < bits k 159 128 ||
  side < quad k 24 + 24 * bits k 191 160 || side < quad k 32 + 16 * bits k 47 40 || side < quad k 40 || side < quad k 48

/-- A stage record, with the LAUNCH's choice of matrix use. -/
def parseStage (x use entry n : Nat) : Stage :=
  let u := bits use (2 * n + 1) (2 * n)
  { entry := if n = 0 then entry else bits x 31 0, min := bits x 47 32, max := bits x 63 48, depth := bits x 79 64
    mxuse := if u = 0 then bits x 87 80 else u, expect := bits x 127 96 }

/-- The zero byte and the matrix use of a stage record. -/
def stageForm (x : Nat) : Bool := bits x 95 88 == 0 && 1 ≤ bits x 87 80 && bits x 87 80 ≤ 3

/-- A stage declaration that is invalid (R312). -/
def stageBad (ssize x n : Nat) : Bool :=
  (n != 0 && bits x 47 32 == 0) || bits x 63 48 < bits x 47 32 || bits x 79 64 == 0 || 4096 < bits x 79 64 || ssize < bits x 31 0 + 4 ||
  (n != 0 && bits x 31 0 % 4 != 0)

def parsePoint (x : Nat) : SafePoint :=
  { off := bits x 31 0, p := BitVec.ofNat 8 (bits x 39 32), k := BitVec.ofNat 8 (bits x 47 40), b := BitVec.ofNat 16 (bits x 63 48)
    s := BitVec.ofNat 64 (bits x 127 64), v := BitVec.ofNat 64 (bits x 191 128) }

/-- The kernel of a header, a kernel record, the stage table and the safe-point table, or the reason of a refusal. -/
def kernelOf (p : LaunchPayload) (h k st sp : Nat) : Except Nat Kernel :=
  let recs := (List.range (bits k 47 40)).map fun i => st / 2 ^ (128 * i) % 2 ^ 128
  if !recs.all stageForm then .error 0x02
  else if recs.zipIdx.any fun q => stageBad (quad h 24) q.1 q.2 then .error 0x07
  else .ok {
    image := quad h 8, ssize := quad h 24, lcode := quad h 32, lsize := quad h 40, groups := bits k 39 32, wmslots := bits k 55 48
    deckle := (((Vector.replicate 3 0).set 0 (bits k 95 64)).set 1 (bits k 127 96)).set 2 (bits k 159 128)
    stages := recs.zipIdx.map fun q => parseStage q.1 p.mxuse.toNat (bits k 31 0) q.2
    safePoints := (List.range (bits k 191 160)).map fun i => parsePoint (sp / 2 ^ (192 * i) % 2 ^ 192) }

/-- The kernel that a LAUNCH names, or the reason of its refusal, and the machine after the front end's reads. -/
def State.loadKernel (s : State) (ctx : Nat) (p : LaunchPayload) : State × Except Nat Kernel :=
  match s.takeVa ctx p.obj 128 with
  | (s, none) => (s, .error 0x02)
  | (s, some h) =>
    if headerBad p.obj h || bits h 63 48 ≤ p.kidx then (s, .error 0x02)
    else match s.takeVa ctx (p.obj + quad h 64 + 64 * p.kidx) 64 with
      | (s, none) => (s, .error 0x02)
      | (s, some k) =>
        let side := p.obj + quad h 72
        if kernelBad h k then (s, .error 0x02)
        else match s.takeVa ctx (side + quad k 32) (16 * bits k 47 40) with
          | (s, none) => (s, .error 0x02)
          | (s, some st) => match s.takeVa ctx (side + quad k 24) (24 * bits k 191 160) with
            | (s, none) => (s, .error 0x02)
            | (s, some sp) => (s, kernelOf p h k st sp)

/-! ## LAUNCH (R252, R304, R309, R337) -/

/-- The die of each stage-0 team that a layout record gives under PLACE = 1; none where it does not place them (R337). -/
def State.placement (s : State) (p : LaunchPayload) (l : Option Layout) : Option (List Nat) :=
  l.bind fun l =>
    let ds := (List.range p.teams).map l.dieOf
    if l.nblk < p.teams || ds.any fun d => !p.dieMask.getLsbD d || s.fenced.contains (.die d) then none else some ds

/-- Teams of stage 0 for each die (R309). -/
def splitTeams (teams : Nat) (dies : List Nat) (placed : Option (List Nat)) : Vector Nat 8 :=
  Vector.ofFn fun d => match placed with
    | some ds => (ds.filter (· == d.val)).length
    | none => if dies.contains d.val then
        let i := (dies.takeWhile (· < d.val)).length
        (i + 1) * teams / dies.length - i * teams / dies.length
      else 0

/-- The launch, and its queue instances with T(n) at MIN(n) (R311). -/
def State.newLaunch (s : State) (e : EntryRef) (p : LaunchPayload) (k : Kernel) (placed : Option (List Nat)) : Launch :=
  let dies := diesOf p.dieMask.toNat
  { key := s.nextId, ctx := p.ctx, scode := p.obj + k.image, ssize := k.ssize, lbase := p.obj + k.lcode, lsize := k.lsize
    args := BitVec.ofNat 64 p.args, teams := p.teams, groups := k.groups, stages := k.stages, deckle := k.deckle
    wmslots := BitVec.ofNat 8 k.wmslots, safePoints := k.safePoints, dieMask := p.dieMask, coop := p.coop, idem := p.idem, placed := placed
    prio := (s.queue e.queue).prio, order := s.launchOrder, assigned := splitTeams p.teams dies placed
    queues := dies.flatMap fun d => ((k.stages.drop 1).zipIdx).map fun q => { die := d, q := q.2, target := q.1.min }
    entry := some e }

/-- Every stage-0 team of a die offered at once, as a cooperative grid is. -/
def State.offerAll (s : State) (launch : Nat) (die : Fin 8) (n : Nat) : State :=
  (List.range n).foldl (fun t _ => t.offerNext launch die t.now) s

/-- The launch started: the first team of each die, or every team of a cooperative grid, waits for placement; an arbiter that had no stage to
look after begins with the next period (R311). -/
def State.startLaunch (s : State) (l : Launch) : State :=
  let idle (d : Nat) : Bool := s.launches.all fun k => k.stages.length ≤ 1 || !k.dieMask.getLsbD d
  let t : State := { s with
    launches := s.launches ++ [l], nextId := s.nextId + 1, launchOrder := s.launchOrder + 1
    arbiters := Vector.ofFn fun d => if idle d.val then s.now / 1024 else s.arbiters[d] }
  (List.finRange 8).foldl (fun u d => if l.coop then u.offerAll l.key d l.assigned[d] else u.offerNext l.key d u.now) t

/-- The dies of a mask hold a cooperative grid when nothing else is resident (R252), with at most MAX(0) of its teams on each (R311). -/
def State.gridFits (s : State) (l : Launch) : Bool :=
  l.teams ≤ 8 * 12 * 256 && (List.finRange 8).all (fun d => l.assigned[d] ≤ ((l.stages[0]?).map (·.max)).getD 0) &&
  let t := ({ s with teams := [], cur := {}, others := [], work := [] } : State).startLaunch l
  (placeAll t.teams t).isSome

/-- LAUNCH (R304): refused, lost at once in a context that has failed (R384), or started; it completes when the launch ends. -/
def execLaunch (e : EntryRef) (p : LaunchPayload) (s : State) : Out :=
  commandOnce (.launch e p) e (fun s =>
    let c := s.ctx p.ctx
    if !(s.ctxs.any fun x => x.num == p.ctx) || c.destroying.isSome then s.refuse e 0x03
    else match c.failed with
    | some seq => s.complete e codeLost (detail := seq)
    | none =>
      if p.dieMask = 0 || (diesOf p.dieMask.toNat).any fun d => s.fenced.contains (.die d) then s.refuse e 0x05
      else match s.loadKernel p.ctx p with
        | (s, .error r) => s.refuse e r
        | (s, .ok k) =>
          if p.coop && k.stages.length != 1 then s.refuse e 0x07
          else
            let (s, rec_) := if p.place then s.layout p.ctx p.layout else (s, none)
            let placed := s.placement p rec_
            if p.place && placed.isNone then s.refuse e 0x06
            else
              let l := s.newLaunch e p k placed
              if p.coop && !s.gridFits l then s.refuse e 0x04 else s.startLaunch l) s

/-! ## The end of a launch (R319) -/

/-- NMRUN work of a launch, and the teams of its groups. -/
def State.nmrunsOf (s : State) (launch : Nat) : List Nmrun :=
  s.work.filterMap fun w => match w.kind with | .nmrun n => if n.launch = launch then some n else none | _ => none

/-- Everything of R319 holds: no team is left or to come, every instance is closed and empty, every NMRUN has added its last
count. -/
def State.launchDone (s : State) (l : Launch) : Bool :=
  !(s.teams.any fun t => t.launch == l.key) && l.created == l.assigned && (s.nmrunsOf l.key).isEmpty &&
  (diesOf l.dieMask.toNat).all fun d => (List.range (l.stages.length - 1)).all fun q =>
    (l.queueAt d q).tokens.isEmpty && s.queueClosed l d q

/-- A group that will not move again by itself. -/
def Stop.final : Stop → Bool
  | .faulted _ _ | .recorded _ _ _ | .brk _ => true
  | _ => false

/-- A stopped launch has come to rest: its committed work is done, and its NMRUN groups have ended or stopped (R163, R185). -/
def State.launchAtRest (s : State) (l : Launch) : Bool :=
  (s.teams.all fun t => t.launch != l.key || s.teamSettled t) &&
  (s.groups.all fun g => !g.live || (s.teamOf g).launch != l.key || !(s.teamOf g).nmrun || g.stop.final) &&
  (s.nmrunsOf l.key).all fun n => n.pieces.isEmpty

/-- The claimed windows of a saved team of a context that is being destroyed are zeroed in the save area (R306). -/
def State.clearClaim (s : State) (t : Team) : State :=
  let l := s.launch t.launch
  if !(t.isSaved && (s.ctx l.ctx).destroying.isSome) then s
  else (t.pads.filter fun p => !t.held.contains p.ix).foldl
    (fun (u : State) p => (u.areaRuns t p.off p.len).foldl (fun (v : State) r => v.clearFrame r.2.1 r.2.2) u) s

/-- A launch's teams, work and records given up. -/
def State.dropLaunch (s : State) (l : Launch) : State :=
  let ts := s.teams.filter fun t => t.launch == l.key
  let u := ts.foldl (fun (u : State) t => (u.clearClaim t).release t) s
  let u : State := { u with
    teams := u.teams.filter fun t => t.launch != l.key
    work := u.work.filter fun w => match w.kind with | .nmrun n => n.launch != l.key | _ => true }
  u.freeRecords l.ctx fun e => e.2.2 == l.key

/-- REMSTAT of the lowest-numbered group that was denied: by die, TEAMID and GRPINTEAM (R302). -/
def Launch.firstDenial (l : Launch) : Nat :=
  ((l.denials.insertionSort fun a b =>
    a.1 < b.1 || (a.1 == b.1 && (a.2.1 < b.2.1 || (a.2.1 == b.2.1 && a.2.2.1 ≤ b.2.2.1)))).head?.map fun d => d.2.2.2.toNat).getD 0

/-- The launch is gone, and its entry is complete. -/
def State.endLaunch (s : State) (l : Launch) (code detail : Nat) : State :=
  let t : State := { s with launches := s.launches.filter fun k => k.key != l.key }
  match l.entry with
  | some e => t.complete e code (denials := l.denials.length) (detail := detail)
  | none => t

/-- LAUNCH_END (R261, R302, R319, R384). -/
def execLaunchEnd (key : Nat) (s : State) : Out :=
  match s.launches.find? fun l => l.key == key with
  | none => .next s
  | some l =>
    match l.lost, l.faulted with
    | some seq, _ => if s.launchAtRest l then .next ((s.dropLaunch l).endLaunch l codeLost seq) else .next s
    | none, some seq => if s.launchAtRest l then .next ((s.dropLaunch l).endLaunch l codeFaulted seq) else .next s
    | none, none =>
      if !s.launchDone l then .next s
      else .next (if l.denials.isEmpty then s.endLaunch l codeDone 0 else s.endLaunch l codeDenied l.firstDenial)

/-! ## Answers to stopped groups (R113, R261, R404) -/

/-- The group of a context that is stopped with a record. -/
def State.stoppedBy (s : State) (ctx seq : Nat) : Option Group :=
  s.groups.find? fun g => g.live && (s.launchOf g).ctx == ctx && !(s.launchOf g).stopped &&
    match g.stop with | .recorded q _ _ => q == seq | _ => false

def State.hasCtx (s : State) (ctx : Nat) : Bool := s.ctxs.any fun c => c.num == ctx

/-- A group resumes at its stopping point; a partly committed lane instruction replays the threads of TMASK, another one all its active
threads, which in a replay are those that it has not committed (R12, R261; log 40). -/
def Group.retried (g : Group) : Group :=
  match g.stop with
  | .recorded _ f _ => g.goOn f
  | _ => g

/-- RETRY (R261). -/
def execRetry (e : EntryRef) (ctx seq : Nat) (s : State) : Out :=
  commandOnce (.retry e ctx seq) e (fun s =>
    if !s.hasCtx ctx then s.refuse e 0x03
    else match s.stoppedBy ctx seq with
    | none => s.refuse e 0x0A
    | some g => ((s.updGroup g.key Group.retried).freeRecords ctx fun r => r.2.1 == seq).complete e codeDone) s

/-- TERMINATE (R261): every group of the launch stops; the launch ends once it has come to rest. -/
def execTerminate (e : EntryRef) (ctx seq : Nat) (s : State) : Out :=
  commandOnce (.terminate e ctx seq) e (fun s =>
    if !s.hasCtx ctx then s.refuse e 0x03
    else match s.stoppedBy ctx seq with
    | none => s.refuse e 0x0A
    | some g =>
      let l := (s.launchOf g).key
      let t := s.updLaunch l fun k => { k with faulted := some seq }
      (t.freeRecords ctx fun r => r.2.2 == l).complete e codeDone) s

/-- RELEASE (R113): the group goes on at BRK + 4. -/
def execRelease (e : EntryRef) (ctx : Nat) (unit : BitVec 32) (s : State) : Out :=
  commandOnce (.release e ctx unit) e (fun s =>
    if !s.hasCtx ctx then s.refuse e 0x03
    else match s.groups.find? fun g => g.live && (s.launchOf g).ctx == ctx && s.unitOf g.place == unit &&
        (match g.stop with | .brk _ => true | _ => false) with
    | none => s.refuse e 0x0A
    | some g => (s.updGroup g.key fun h => { h with stop := .running, spc := h.spc + 4, retired := h.retired + 1 }).complete e codeDone) s

end Sys2Proof.Machine
end

