-- ==== Sys2Proof/Machine/Contexts.lean ====
section
/-! DEFINITION. Contexts: their creation and destruction, watermark allocation, TLBINV and the front-end COPY (R303, R305, R306,
R328, R339-R341, R344, R358, R363). -/

namespace Sys2Proof.Machine

/-! ## CTXCREATE (R305, R339, R358, R363) -/

/-- The context of a payload. -/
def ctxOfPayload (p : CtxPayload) : Ctx :=
  { num := p.ctx, ptroot := p.ptroot, shbase := p.shbase, shsize := p.shsize, wmtab := p.wmtab, fqbase := p.fqbase, fqlen := p.fqlen
    debug := p.debug, wdog := 2 ^ (if p.wdog = 0 then 32 else p.wdog), fabid := p.fabid, savebase := p.savebase, savesize := p.savesize }

/-- The granules of the records 1 to COUNT of a table (R29). -/
def tablePages (wmtab : Word) : List Nat :=
  let n := wmtab.toNat % 2 ^ 16; let a := bits wmtab.toNat 56 16 * 2 ^ 16 + 256
  if n = 0 then [] else (granuleRuns (n / 256 + 3) 0 a (256 * n)).map fun r => granuleOf r.2.1

/-- The page lies in device memory, mapped or to be zeroed (R339). -/
def State.tablePage (s : State) (ctx va : Nat) : Bool :=
  match s.translate 0 ctx va with
  | .leaf t => !t.hm
  | .zero _ => match zaWalk s va walkLevels (s.ctx ctx).ptroot with | some (_, e, _) => !bit e 64 | none => false
  | _ => false

/-- CTXCREATE: PASID, number and FABID, then the record table, whose records it zeroes. -/
def execCtxcreate (e : EntryRef) (p : CtxPayload) (s : State) : Out :=
  commandOnce (.ctxcreate e p) e (fun s =>
    let t : State := { s with ctxs := s.ctxs ++ [ctxOfPayload p] }; let pages := tablePages p.wmtab
    if h : p.ctx < 64 then
      if !s.ctxPasid[p.ctx].getLsbD 31 then s.refuse e 0x01
      else if s.hasCtx p.ctx || 64 ≤ s.ctxs.length || (p.fabid != 0 && s.ctxs.any fun c => c.fabid == p.fabid) then s.refuse e 0x08
      else if !pages.all (t.tablePage p.ctx) then s.refuse e 0x01
      else
        let t := pages.foldl (fun (u : State) a => u.zeroFrame p.ctx a) t
        let t := (List.range (p.wmtab.toNat % 2 ^ 16)).foldl (fun (u : State) i => u.recordWrite p.ctx (i + 1) 0 (leBytes 256 0)) t
        t.complete e codeDone
    else s.refuse e 0x01) s

/-! ## CTXDESTROY (R306, R344, R360) -/

/-- What steps 1 and 2 wait for: launches of the context, its copies, NMRUN work and remote operations, its page requests. -/
def State.ctxBusy (s : State) (ctx : Nat) : Bool :=
  (s.launches.any fun l => l.ctx == ctx) || (s.work.any fun w => w.ctx == ctx) || (s.remotes.any fun r => r.ctx == ctx) ||
  s.prgOut.any fun g => g.ctx == ctx

/-- Partials and bindings of a context discarded on a core. -/
def Core.forget (ctx : Nat) (c : Core) : Core :=
  { c with
    slots := if c.slotCtx == some ctx then Vector.replicate 8 {} else c.slots
    slotCtx := if c.slotCtx == some ctx then none else c.slotCtx
    slotsKept := c.slotsKept.filter fun q => q.1 != ctx }

/-- Steps 3 to 5: partials discarded, scratchpad bytes zeroed, translations gone; and the context with its queues, windows and
requests, whose merge entries are freed for the groups that wait for one (R330). -/
def State.eraseCtx (s : State) (ctx : Nat) : State :=
  let mine := s.padLeft.filter fun r => r.2.2 == ctx
  { s.freeMerge (fun m => m.ctx == ctx) with
    cores := s.cores.map (Core.forget ctx)
    mem := mine.foldl (fun m r => clearCells m r.1 r.2.1) s.mem
    poisoned := s.poisoned.filter fun u => !mine.any fun r => r.1 ≤ u && u < r.1 + r.2.1
    soft := s.soft.filter fun u => !mine.any fun r => r.1 ≤ u.1 && u.1 < r.1 + r.2.1
    padLeft := s.padLeft.filter fun r => r.2.2 != ctx
    tlb := s.tlb.filter fun t => t.ctx != ctx
    replicas := s.replicas.filter fun r => r.ctx != ctx
    windows := s.windows.filter fun w => w.ctx != ctx
    replies := s.replies.filter fun r => r.ctx != ctx
    ctxs := s.ctxs.filter fun c => c.num != ctx }

/-- CTXDESTROY: its launches are stopped; when all that it waits for is done, the context is gone. -/
def execCtxdestroy (e : EntryRef) (ctx : Nat) (s : State) : Out :=
  command (.ctxdestroy e ctx) e
    (fun s =>
      if !s.hasCtx ctx || (s.ctx ctx).destroying.isSome then s.refuse e 0x03
      else ({ s with launches := s.launches.map fun l => if l.ctx == ctx && !l.stopped then { l with faulted := some 0 } else l } : State).updCtx ctx
        (fun c => { c with destroying := some e }) |>.setWaits e [])
    (fun _ s =>
      if s.ctxBusy ctx then s
      else ((s.freeRecords ctx fun _ => true).eraseCtx ctx).complete e codeDone) s

/-! ## WMALLOC and WMFREE (R340, R341) -/

/-- COUNT of a context's table. -/
def Ctx.records (c : Ctx) : Nat := c.wmtab.toNat % 2 ^ 16

/-- ALLOC of a record is clear. -/
def State.recordFree (s : State) (ctx id : Nat) : Bool := !bit (s.recordRead ctx id 2 2) 0

/-- A record just allocated. -/
def newRecord (id : Nat) (basexp : BitVec 8) : List Byte :=
  leBytes 2 id ++ leBytes 2 1 ++ [basexp] ++ leBytes 3 0 ++ leBytes 8 1 ++ leBytes 240 0

/-- WMALLOC (R340). -/
def execWmalloc (e : EntryRef) (ctx count : Nat) (basexp : BitVec 8) (s : State) : Out :=
  commandOnce (.wmalloc e ctx count basexp) e (fun s =>
    if !s.hasCtx ctx then s.refuse e 0x03
    else
      let n := (s.ctx ctx).records
      match (if count = 0 then none else (List.range (n + 1 - count)).find? fun i => (List.range count).all fun j => s.recordFree ctx (i + 1 + j)) with
      | none => s.refuse e 0x0B
      | some i =>
        ((List.range count).foldl (fun (u : State) j => u.recordWrite ctx (i + 1 + j) 0 (newRecord (i + 1 + j) basexp)) s).complete e codeDone
          (result := i + 1)) s

/-- Slots bound to some ids are unbound, their partials discarded, on a core or as saved with one (R192, R341). -/
def Core.unbind (ctx : Nat) (ids : List Nat) (c : Core) : Core :=
  { c with
    slots := if c.slotCtx == some ctx then Vector.ofFn fun i => if ids.contains c.slots[i].id then {} else c.slots[i] else c.slots
    slotsKept := c.slotsKept.map fun q =>
      if q.1 = ctx then (q.1, Vector.ofFn fun i => if ids.contains q.2[i].1 then (0, 0) else q.2[i]) else q }

/-- Flushes under way for some records of a context, by their numbers. -/
def State.flushesOf (s : State) (ctx : Nat) (ids : List Nat) : List Nat :=
  let base := bits (s.ctx ctx).wmtab.toNat 56 16 * 2 ^ 16
  (s.remotes.filter fun r => r.ctx == ctx && r.pkt.kind == 6 && ids.contains ((r.pkt.addr.toNat - base) / 256)).map (·.id)

/-- WMFREE (R341). -/
def execWmfree (e : EntryRef) (ctx first count : Nat) (s : State) : Out :=
  let ids := (List.range count).map (first + ·)
  command (.wmfree e ctx first count) e
    (fun s =>
      let c := s.ctx ctx
      if !s.hasCtx ctx then s.refuse e 0x03
      else if count = 0 || first = 0 || c.records < first + count - 1 || ids.any fun i => s.recordFree ctx i || c.freeing.contains i then s.refuse e 0x0B
      else (({ s with
          cores := s.cores.map (Core.unbind ctx ids)
          teams := s.teams.map fun t => { t with arraysSaved := t.arraysSaved.map (Core.unbind ctx ids) } } : State).updCtx ctx fun c => { c with freeing := c.freeing ++ ids }).setWaits e
        (s.flushesOf ctx ids))
    (fun waits s =>
      if s.remotes.any fun r => waits.contains r.id then s
      else
        let t := ids.foldl (fun (u : State) i => u.recordWrite ctx i 0 (leBytes 256 0)) s
        (t.updCtx ctx fun c => { c with freeing := c.freeing.filter fun i => !ids.contains i }).complete e codeDone) s

/-! ## TLBINV (R328) -/

/-- The range widened to granules; none for every translation. -/
def invRange (va len : Nat) : Option (Nat × Nat) :=
  if len = 0 then none else some (granuleOf va, (va + len + 2 ^ 16 - 1) / 2 ^ 16 * 2 ^ 16 - granuleOf va)

/-- Some groups of a context changed. -/
def State.ctxGroups (s : State) (ctx : Nat) (f : Group → Group) : State :=
  let g (h : Group) : Group := if h.live && (s.launchOf h).ctx == ctx then f h else h
  { s with cur := g s.cur, others := s.others.map g }

/-- A walk in progress over an invalidated range starts again: the instruction executes again (R328, R329). -/
def Group.rewalk (range : Option (Nat × Nat)) (g : Group) : Group :=
  match g.stop with
  | .zeroing a => if (match range with | none => true | some (lo, n) => lo ≤ a + 2 ^ 30 && a < lo + n) then { g with stop := .running } else g
  | _ => g

/-- A wait on an address reads its word again, through the tables as they are (R237, R328). -/
def Group.reread (g : Group) : Group :=
  match g.wait with
  | .waita ext x p gap _ => { g with wait := .waita ext x p gap true }
  | _ => g

/-- TLBINV: the translations go at once; done when the work accepted before has completed and the replicas are discarded. -/
def execTlbinv (e : EntryRef) (ctx va len : Nat) (s : State) : Out :=
  command (.tlbinv e ctx va len) e
    (fun s =>
      if !s.hasCtx ctx then s.refuse e 0x03
      else (({ s with tlb := s.tlb.filter fun t => match invRange va len with
          | none => t.ctx != ctx
          | some (a, n) => !t.inRange ctx a n } : State).ctxGroups ctx (Group.rewalk (invRange va len))).setWaits e
            ((s.work.filter fun w => w.ctx == ctx).map (·.id)))
    (fun ids s =>
      if s.work.any fun w => ids.contains w.id then s
      else (({ s with replicas := s.replicas.filter fun r => match invRange va len with
          | none => r.ctx != ctx
          | some (a, n) => !r.inRange ctx a n } : State).ctxGroups ctx Group.reread).complete e codeDone) s

/-! ## COPY (R303) -/

/-- A page of a front-end copy: its key; a gap; or another fault. -/
def State.copyPage (s : State) (ctx va : Nat) (write : Bool) : Except Bool Nat :=
  match s.translate 0 ctx va with
  | .leaf t => if (if write then t.w && !t.sealed && !s.codePage ctx va else t.r) then .ok (t.key va) else .error true
  | .absent => .error false
  | _ => .error true

/-- The runs of a range, or whether what stops it is more than a gap; an empty range meets nothing. -/
def State.copyRuns (s : State) (ctx va n : Nat) (write : Bool) : Except Bool (List (Nat × Nat × Nat)) :=
  if n = 0 then .ok []
  else if 2 ^ 57 < va + n then .error true
  else (granuleRuns (n / 2 ^ 16 + 2) 0 va n).mapM fun r => (s.copyPage ctx r.2.1 write).map fun k => (r.1, k, r.2.2)

/-- COPY: frames still to be zeroed are zeroed first, a fault leaves nothing copied, and the destination gets what the source held
(log 51). -/
def execCopy (e : EntryRef) (src dst bytes ctx : Nat) (s : State) : Out :=
  commandOnce (.copy e src dst bytes ctx) e (fun s =>
    if !s.hasCtx ctx then s.refuse e 0x03
    else match (s.ctx ctx).failed with
    | some seq => s.complete e codeLost (detail := seq)
    | none =>
      let pages := (granuleRuns (bytes / 2 ^ 16 + 2) 0 src bytes ++ granuleRuns (bytes / 2 ^ 16 + 2) 0 dst bytes).map (·.2.1)
      let t := pages.foldl (fun (u : State) a => u.zeroFrame ctx a) s
      match t.copyRuns ctx src bytes false, t.copyRuns ctx dst bytes true with
      | .ok a, .ok b => (t.moveSegs ctx (matchRuns a b)).complete e codeDone
      | .error true, _ => t.complete e codeLost
      | _, .error true => t.complete e codeLost
      | _, _ => t.complete e codeFaulted) s

end Sys2Proof.Machine
end

