-- ==== Sys2Proof/Machine/Fabric.lean ====
section
/-! DEFINITION. The optical fabric: slots, beacons, reachability, relays, calender changes, loss of light (R363-R369, R373, R385,
R387-R390, R400). -/

namespace Sys2Proof.Machine

/-! ## Reachability (R364, R365, R390, R400) -/

/-- The table does not change from the start of drain until resume (R390). -/
def State.frozen (s : State) : Bool := s.holding

/-- Unanswered operations denied because their target can no longer be reached (R365). -/
def State.denyLost (s : State) (lost : Remote → Bool) : State :=
  (s.remotes.filter lost).foldl (fun (t : State) r => t.answer r (some 0x07)) s

/-- The package's table entry with new contents; a change is told to the host, and operations towards dies that have gone are
denied (R362, R365). -/
def State.setReach (s : State) (e : Reach) : State :=
  let old := s.reach.find? fun r => r.pkg == e.pkg
  let t : State := { s with reach := e :: s.reach.filter fun r => r.pkg != e.pkg }
  let seen (r : Reach) : BitVec 8 := if r.reachable then r.dies else 0
  let was := match old with | some r => seen r | none => 0
  let t := if was = seen e then t else t.msix 259
  t.denyLost fun r => r.pkt.dpkg == e.pkg && !(seen e).getLsbD r.pkt.ddie

/-- BEACON (R364, R390, R400): one under another CALID, or during a change, is ignored. -/
def execBeacon (p : Packet) (s : State) : Out :=
  if p.kind = 7 && s.arrives p && p.spkg != s.pkgid && p.scount = 0 && s.cal.isSome && p.ext.toNat = s.calid && !s.frozen then
    .next (s.setReach { pkg := (p.body.headD 0).toNat, dies := p.body.getD 1 0, heard := s.ns, reachable := true })
  else .next s

/-- PEER_UNREACHABLE (R364, R365): 512 us without a beacon. -/
def execPeerUnreachable (pkg : Nat) (s : State) : Out :=
  match s.reach.find? fun r => r.pkg == pkg with
  | some r => if r.reachable && r.heard + 512000 < s.ns && !s.frozen then .next (s.setReach { r with reachable := false }) else .next s
  | none => .next s

/-- A packet of the fabric's own, which takes no count. -/
def State.fabricPacket (s : State) (kind f q : Nat) (ext : Nat) (body : List Byte) : Packet :=
  { kind := kind, op := 0, dpkg := q, ddie := 0, relayed := false, spkg := s.pkgid, sdie := f / 12, stream := 0, fabid := 0, scount := 0, addr := 0
    ext := BitVec.ofNat 64 ext, body := body }

/-- What a fibre sends at the start of a slot: its beacon, and in a drain its marker, after which it sends nothing (R364, R389). -/
def State.openFibre (s : State) (f : Nat) : State :=
  match s.lit f with
  | none => s
  | some q =>
    let x := s.fibre f
    let beacon := s.fabricPacket 7 f q s.calid [BitVec.ofNat 8 s.pkgid, BitVec.ofNat 8 s.dieMask, BitVec.ofNat 8 s.slot]
    match s.calPhase with
    | .dark _ => s
    | .drain _ =>
      if x.markerOut || !s.inTime f beacon then s
      else
        let new := ((s.calNew.map (·.1.calid)).getD 0) % 2 ^ 32
        let t := (s.putOn f beacon).putOn f (s.fabricPacket 8 f q (new + s.slot * 2 ^ 32) [])
        t.setFibre { t.fibre f with markerOut := true }
    | _ => if s.inTime f beacon then s.putOn f beacon else s

/-- SLOT_START (R364, R389): once for each slot. -/
def execSlotStart (s : State) : Out :=
  if s.slotCount < s.slotsDone then .next s
  else .next ((List.range 96).foldl State.openFibre { s with slotsDone := s.slotCount + 1 })

/-! ## Relays and discards (R368, R369, R385, R400) -/

/-- RELAY_HOLD (R368, R400): discarded when it was relayed before, when its destination is unreachable here, or when the engine's
4 MiB are full; nothing arrives in the dark phase of a change (R389). -/
def execRelayHold (engine : Nat) (p : Packet) (s : State) : Out :=
  let held := (s.relays.filter fun r => r.engine == engine).foldl (fun n r => n + packetBytes r.pkt) 0
  if p.dpkg = s.pkgid || p.relayed || 8 ≤ engine || s.fenced.contains (.die engine) || !packetFormed p || s.isDark ||
      !(s.reach.any fun r => r.pkg == p.dpkg && r.reachable) || 2 ^ 22 < held + packetBytes p then .next s
  else .next { s with relays := s.relays ++ [{ id := s.nextId, engine := engine, pkt := { p with relayed := true }, since := s.ns }], nextId := s.nextId + 1 }

/-- RELAY_FORWARD (R368): on a lit out-fibre of any die that reaches the destination, within 8 slots; a packet whose destination has
become unreachable is discarded (R400). -/
def execRelayForward (id fibre : Nat) (s : State) : Out :=
  match s.relays.find? fun r => r.id == id with
  | none => .next s
  | some r =>
    let rest := s.relays.filter fun x => x.id != id
    if !s.reach.any fun x => x.pkg == r.pkt.dpkg && x.reachable then .next { s with relays := rest }
    else if s.lit fibre == some r.pkt.dpkg && s.ns ≤ r.since + 32000 && s.inTime fibre r.pkt && !s.isDark && !(s.fibre fibre).markerOut then
      .next (({ s with relays := rest } : State).putOn fibre r.pkt)
    else .next s

/-- RELAY_TIMEOUT (R368). -/
def execRelayTimeout (id : Nat) (s : State) : Out :=
  .next { s with relays := s.relays.filter fun r => !(r.id == id && r.since + 32000 < s.ns) }

/-- FABRIC_PACKET_DISCARD (R369): counted for the summary and the die's health record. -/
def execFabricPacketDiscard (fibre : Nat) (s : State) : Out :=
  let first := s.discards == 0
  .next (({ s with
    discards := s.discards + 1
    discardFibre := if first then fibre else s.discardFibre
    discardMs := if first then s.ns / 1000000 else s.discardMs } : State).count (fibre / 12) fun h => { h with discards := h.discards + 1 })

/-- DISCARD_SUMMARY (R385): for the millisecond in which packets were discarded, once it is over. -/
def execDiscardSummary (s : State) : Out :=
  if s.discards = 0 || s.ns / 1000000 ≤ s.discardMs then .next s
  else .next (({ s with discards := 0 } : State).logEvent
    { kind := 0x23, unit := s.fibreUnit s.discardFibre, data := leBytes 4 (min s.discards (2 ^ 32 - 1)) ++ leBytes 1 s.discardFibre })

/-! ## Loss of light (R387, R388, R390) -/

/-- LOSS_OF_LIGHT (R387): a loss at a nanosecond, detected within 2 us; the fibre stops; with all three modules dark it is down. -/
def execLossOfLight (fibre : Nat) (m : DarkModule) (s : State) : Out :=
  let x := s.fibre fibre; let module := m.module; let since := m.since
  if 96 ≤ fibre || 3 ≤ module || x.dark.contains module || s.ns < since || since + 2000 < s.ns then .next s
  else
    let y : Fibre := { x with dark := module :: x.dark, restripe := some (s.ns + 200), lostAt := x.lostAt.or (some since) }
    let t := (s.setFibre y).logEvent
      { kind := 0x10, unit := s.fibreUnit fibre, data := leBytes 1 module ++ leBytes 1 (24 - 8 * y.dark.length) }
    .next (if y.dark.length = 3 then
        (t.setFibre { y with restripe := none, stripe := 0 }).logEvent
          { kind := 0x12, cont := true, unit := s.fibreUnit fibre, data := [Config.eventCode 0] }
      else t)

/-- LIGHT_RETURN (R387). -/
def execLightReturn (fibre module : Nat) (s : State) : Out :=
  let x := s.fibre fibre
  if x.dark.contains module then .next (s.setFibre { x with dark := x.dark.filter (· != module), restripe := some s.ns }) else .next s

/-- A dark interval has begun at or after a time. -/
def State.darkSince (s : State) (t : Nat) : Bool := t + 200 ≤ (s.ns + 200) / 4000 * 4000

/-- What a restripe resends: after a loss, the last beats of the packet that the replay buffer holds in part, and then the packets that
it holds whole, oldest first. -/
def Fibre.resentTail (x : Fibre) : List (Nat × Packet) := if x.lostAt.isSome then (heldTail 0 x.sent).toList else []
def Fibre.resent (x : Fibre) : List Packet := if x.lostAt.isSome then ((heldSent 0 x.sent).map (·.2)).reverse else []

/-- Beats that a restripe resends, and beats sent since the loss that the replay buffer no longer holds (R387). -/
def Fibre.replayed (x : Fibre) : Nat := if x.lostAt.isSome then min 2048 (beatsOf x.sent) else 0
def Fibre.notHeld (x : Fibre) : Nat :=
  match x.lostAt with
  | some t => beatsOf (x.sent.filter fun q => t ≤ q.1) - 2048
  | none => 0

/-- A fibre restriped onto its lit wavelengths: after a loss it first resends what its replay buffer holds (R387). -/
def State.restripe (s : State) (x : Fibre) : State :=
  (({ s with outbox := s.outbox ++ x.resent, outTails := s.outTails ++ x.resentTail } : State).setFibre
      { x with stripe := x.litMask, restripe := none, lostAt := none }).logEvent
    { kind := 0x11, unit := s.fibreUnit x.fibre
      data := leBytes 4 x.litMask.toNat ++ leBytes 4 x.replayed ++ leBytes 4 x.notHeld }

/-- RESTRIPE (R387, R390): at the first dark interval that may do; one that falls into a change waits for its relock. -/
def execRestripe (fibre : Nat) (s : State) : Out :=
  let x := s.fibre fibre
  match x.restripe, s.calPhase with
  | none, _ => .next s
  | some _, .drain _ => .next s
  | some _, .dark _ => .next s
  | some _, .relock _ => .next (s.restripe x)
  | some t, _ => if s.darkSince t then .next (s.restripe x) else .next s

/-! ## The calender block (R366, R367) -/

/-- The packages that a table names in a slot. -/
def tableSlot (t : List Nat) (i : Nat) : List Nat := (List.range 96).filterMap fun f => tableEntry t f i

/-- A table that R367 refuses. -/
def tableBad (pkgid domain : Nat) (t : List Nat) : Bool :=
  let slots := (List.range 32).map (tableSlot t)
  t.any (fun e => !bit e 15 && (e % 256 == pkgid || domain ≤ e % 256)) || t.any (fun e => bits e 14 8 != 0) ||
  (2 ≤ domain && slots.any List.isEmpty) ||
  (List.range domain).any fun q => q != pkgid && (List.range 32).any fun i =>
    !((List.range 8).any fun j => (slots.getD ((i + j) % 32) []).contains q)

/-- A calender block read as R366 lays it out; none where R367 finds a field wrong. A CALID of zero is a wrong field. -/
def parseCalender (bs : List Byte) : Option Calender :=
  let b := ofLeBytes (bs.take 64); let entries := ofLeBytes (bs.drop 64)
  let table (at_ : Nat) : List Nat := (List.range 3072).map fun i => entries / 2 ^ (8 * at_ + 16 * i) % 2 ^ 16
  let c : Calender := {
    pkgid := bits b 55 48, domain := bits b 79 64, calid := bits b 127 96, out := table 0, inn := table 6144, block := bs }
  if bits b 31 0 != 0x4E454C43 || bits b 47 32 != 1 || bits b 63 56 != 0 || bits b 95 80 != 0 || b / 2 ^ 128 != 0 || c.calid == 0 ||
      c.domain ≤ c.pkgid || 256 < c.domain || tableBad c.pkgid c.domain c.out || tableBad c.pkgid c.domain c.inn then none
  else some c

/-- The entry of a calender event (R385). -/
def State.logCal (s : State) (kind new : Nat) (locked : List Nat) : State :=
  s.logEvent { kind := kind, unit := BitVec.ofNat 32 (s.pkgid * 2 ^ 24), data := leBytes 4 s.calOld ++ leBytes 4 new ++ leBytes 12 (locked.foldl (fun m f => m + 2 ^ f) 0) }

/-- A fibre at the start of a calender change: no marker, no lock. -/
def Fibre.newChange (x : Fibre) : Fibre := { x with markerIn := false, markerOut := false, inLocked := false, outLocked := false }

/-- A block checked and accepted, or refused (R367, R389, R390). -/
def State.takeCalender (s : State) (e : EntryRef) (va : Nat) : State :=
  if s.calPhase != .none then s.setWaits e []
  else
    let bs := readCells s.mem (hostKey va) 12448
    if !Config.signatureValid (bs.take 12352) (bs.drop 12352) then s.refuse e 0x09
    else match parseCalender bs with
      | none => s.refuse e 0x01
      | some c =>
        if (s.ctxs.any fun x => x.fabid != 0) && (c.pkgid != s.pkgid || c.domain != (s.cal.map (·.domain)).getD 1) then s.refuse e 0x08
        else
          { s with
            calPhase := .accepted s.ns, calNew := some (c, e), calOld := s.calid
            fibres := s.fibres.map fun (x : Fibre) => x.newChange : State }.logCal 0x18 c.calid []

/-- CALLOAD (R366, R367, R390): one that finds a change under way waits for its end. -/
def execCalload (e : EntryRef) (va : Nat) (s : State) : Out :=
  command (.calload e va) e (fun s => s.takeCalender e va) (fun _ s => s.takeCalender e va) s

/-! ## The phases of a change (R389) -/

/-- CALENDER_DRAIN: at the next slot start. -/
def execCalenderDrain (s : State) : Out :=
  match s.calPhase with
  | .accepted since => if since / 4000 < s.slotCount then .next { s with calPhase := .drain s.ns } else .next s
  | _ => .next s

/-- DRAIN_MARKER: the fibre delivers its marker. -/
def execDrainMarker (fibre : Nat) (p : Packet) (s : State) : Out :=
  match s.calPhase with
  | .accepted _ | .drain _ =>
    if p.kind = 8 && s.arrives p && fibre < 96 then
      .next (s.setFibre { s.fibre fibre with markerIn := true, heard := s.ns })
    else .next s
  | _ => .next s

/-- Some slot of a table lights the fibre. -/
def fibreUsed (t : List Nat) (f : Nat) : Bool := (List.range 32).any fun i => (tableEntry t f i).isSome

/-- Every lit out-fibre has sent its marker, and every in-fibre has delivered one or stayed dark for a whole cycle of the drain. -/
def State.drained (s : State) (since : Nat) : Bool :=
  match s.cal with
  | none => true
  | some c => (List.range 96).all fun f =>
      (!(s.fibreSends f && fibreUsed c.out f) || (s.fibre f).markerOut) &&
      (!fibreUsed c.inn f || (s.fibre f).markerIn || max since (s.fibre f).heard + 128000 ≤ s.ns)

/-- What is under way inside the package when its number changes keeps its way. -/
def State.renumber (s : State) (new : Nat) : State :=
  let old := s.pkgid
  let n (q : Nat) : Nat := if q = old then new else q
  let pkt (p : Packet) : Packet := { p with spkg := n p.spkg, dpkg := n p.dpkg }
  { s with
    inflight := s.inflight.map pkt
    deferred := s.deferred.map fun d => (d.1, d.2.1, pkt d.2.2)
    remotes := s.remotes.map fun (r : Remote) => { r with pkt := pkt r.pkt }
    windows := s.windows.map fun (w : HomeWindow) => { w with spkg := n w.spkg }
    acks := s.acks.map fun (a : Ack) => { a with pkg := n a.pkg } }

/-- CALENDER_DARK: the relay buffers are discarded and the new tables apply. -/
def execCalenderDark (s : State) : Out :=
  match s.calPhase, s.calNew with
  | .drain since, some (c, _) =>
    if s.drained since then .next (({ s.renumber c.pkgid with cal := some c, relays := [], calPhase := .dark s.ns } : State).logCal 0x19 c.calid [])
    else .next s
  | _, _ => .next s

/-- CALENDER_RELOCK: light under the new matchings, or 1 ms. -/
def execCalenderRelock (s : State) : Out :=
  match s.calPhase with
  | .dark _ => .next { s with calPhase := .relock s.ns }
  | _ => .next s

/-- FIBRE_LOCK: an in-fibre locks to its new neighbour, or the neighbour's in-fibre to the out-fibre. -/
def execFibreLock (e : FibreEnd) (s : State) : Out :=
  let fibre := e.fibre
  match s.calPhase, s.cal with
  | .relock _, some c =>
    if fibre < 96 && fibreUsed (if e.out then c.out else c.inn) fibre then
      let x := s.fibre fibre
      .next (s.setFibre (if e.out then { x with outLocked := true } else { x with inLocked := true }))
    else .next s
  | _, _ => .next s

/-- Fibres that the calender in force lights: out-fibres (true) and in-fibres. -/
def State.litFibres (s : State) : List (Bool × Nat) :=
  match s.cal with
  | some c => (((List.range 96).filter (fibreUsed c.out)).map fun f => (true, f)) ++ ((List.range 96).filter (fibreUsed c.inn)).map fun f => (false, f)
  | none => []

/-- Those of them that are locked. -/
def State.lockedFibres (s : State) : List (Bool × Nat) :=
  s.litFibres.filter fun q => if q.1 then (s.fibre q.2).outLocked else (s.fibre q.2).inLocked

/-- Numbers of the fibres of which everything that the calender lights is locked (CALRELOCK, R385). -/
def State.lockedNumbers (s : State) : List Nat :=
  ((s.litFibres.map (·.2)).dedup.filter fun f => s.litFibres.all fun q => q.2 != f || s.lockedFibres.contains q)

/-- A fibre without a lock goes down (R379, R389). -/
def State.fibreDown (s : State) (q : Bool × Nat) : State :=
  let x := s.fibre q.2
  if (if q.1 then x.outDown else x.inDown) then s
  else (s.setFibre (if q.1 then { x with outDown := true } else { x with inDown := true })).logEvent
    { kind := 0x12, cont := true, unit := s.fibreUnit q.2, data := [Config.eventCode 1] }

/-- Every package that the calender matches counts as heard now, the others as gone (R390). -/
def State.rebuildReach (s : State) (c : Calender) : State :=
  let keep (q : Nat) : Reach :=
    { pkg := q, dies := ((s.reach.find? fun r => r.pkg == q).map (·.dies)).getD 0xFF, heard := s.ns, reachable := true }
  let new := ((List.range c.domain).filter (· != c.pkgid)).map keep
  let seen (l : List Reach) : List (Nat × BitVec 8) := (l.filter (·.reachable)).map fun r => (r.pkg, r.dies)
  let t : State := { s with reach := new }
  let t := if (seen new).all (seen s.reach).contains && (seen s.reach).all (seen new).contains then t else t.msix 259
  t.denyLost fun r => r.pkt.dpkg != c.pkgid && c.domain ≤ r.pkt.dpkg

/-- CALENDER_RESUME: once every fibre that the calender lights is locked, or 500 us have passed. -/
def execCalenderResume (s : State) : Out :=
  match s.calPhase, s.calNew, s.cal with
  | .relock since, some (_, e), some c =>
    let locked := s.lockedFibres
    if locked.length < s.litFibres.length && s.ns < since + 500000 then .next s
    else
      let t := s.logCal 0x1A c.calid s.lockedNumbers
      let t := (s.litFibres.filter fun f => !locked.contains f).foldl State.fibreDown t
      let t : State := { t with
        calPhase := .none, calNew := none, fibres := t.fibres.map Fibre.newChange
        windows := t.windows.filter (fun w => w.spkg == c.pkgid || w.spkg < c.domain)
        heldOut := [] }
      let t := (s.heldOut.filter fun p => p.dpkg < c.domain).foldl State.transmit t
      .next ((t.rebuildReach c).pumpAll.complete e codeDone (result := (locked.filter (·.1)).length))
  | _, _, _ => .next s

end Sys2Proof.Machine
end

