-- ==== Sys2Proof/Machine/Containment.lean ====
section
/-! DEFINITION. Containment: what is fenced and what becomes of the work on it; links, stacks, ageing, the health record and cold
reset (R4, R350-R352, R375, R379-R386, R391-R393). -/

namespace Sys2Proof.Machine

/-! ## What is lost with a unit (R382-R384) -/

/-- Cores of a team lie in a unit. -/
def inUnit (u : UnitRef) (t : Team) : Bool :=
  match u with
  | .core c => t.unitCores.contains c
  | .clusterScratch k => t.unitCores.any fun c => c < 96 && c / 4 == k
  | .die d => t.die == d
  | _ => false

/-- Bytes of a team's windows lie in a unit, where the windows are still in place (R316). -/
def windowIn (u : UnitRef) (t : Team) : Bool :=
  inUnit u t && t.pads.any fun p => t.inPlace p && match u with
    | .core c => p.lvl == 0 && t.unitCores[p.ix]? == some c
    | .clusterScratch _ => p.lvl != 2
    | _ => true

/-- A frame of 2^size bytes has bytes in the unit (R324, R383). -/
def frameIn (u : UnitRef) (pa size : Nat) : Bool :=
  match u with
  | .channel st ch => frameStack pa == st && (size != 16 || frameChannel pa == ch)
  | .die d => frameDie pa == d
  | _ => false

/-- Some page with HM = 0 below a table has bytes in the unit. -/
def State.mapsUnit (s : State) (u : UnitRef) : List (Nat × Nat × Bool × Bool × Nat) → Nat → Bool
  | [], _ => false
  | (lo, n, mayLeaf, mayTable, al) :: r, table =>
    (List.range (2 ^ n)).any fun i =>
      let e := s.read (table + 16 * i) 16
      bit e 0 && !entryBad lo mayLeaf mayTable al e &&
        if bit e 1 then !bit e 64 && frameIn u (entryAddr e) lo else s.mapsUnit u r (entryAddr e)

/-! ## The fence event (R385) -/

/-- Event kind, UNIT and index of a unit. -/
def State.fenceId (s : State) (u : UnitRef) : Nat × BitVec 32 × Nat :=
  let core (c plane : Nat) : BitVec 32 :=
    if c < 96 then s.unitOf { die := c / 12, cluster := c % 12 / 4, core := c % 4, plane := plane }
    else s.unitOf { die := (c - 96) / 16, stack := some ((c - 96) % 16 / 8, (c - 96) % 8) }
  match u with
  | .lane c p => (0x4, core c p, p)
  | .core c => (0x5, core c 0, c)
  | .beater lvl arr bank => (0x6, s.unitOf { die := arrayDie lvl arr, cluster := if lvl = 1 then arr % 3 else 0 }, bank + lvl * 2 ^ 16)
  | .channel st ch => (0x7, s.unitOf { die := st / 2, stack := some (st % 2, 0) }, st * 16 + ch)
  | .clusterScratch k => (0x8, s.unitOf { die := k / 3, cluster := k % 3 }, k)
  | .die d => (0x9, s.unitOf { die := d }, d)
  | .fibre f => (0x12, s.fibreUnit f, f)
  | .link d l => (0xA, s.unitOf { die := d }, d * 4 + l)

/-- The sequence that the next containment entry takes. -/
def State.nextEvent (s : State) : Nat := s.evHead + s.evHeld.length

/-- The unit is fenced, and the event told. -/
def State.fenceEvent (s : State) (u : UnitRef) (trigger : Nat) : State :=
  let (kind, at_, ix) := s.fenceId u
  ({ s with fenced := u :: s.fenced } : State).logEvent
    { kind := kind, cont := true, unit := at_, data := leBytes 4 ix ++ [Config.eventCode trigger] }

/-! ## Outcomes for teams and contexts (R382, R384) -/

/-- A launch ends LOST. -/
def Launch.lose (seq : Nat) (l : Launch) : Launch := if l.stopped then l else { l with lost := some seq }

/-- Accepted work of groups on the unit abandoned. -/
def State.abandon (s : State) (gone : Group → Bool) : State :=
  { s with work := s.work.filter fun w => !(w.kind.committed && match w.kind with
      | .flush _ => false
      | _ => match s.group w.group with | some g => gone g | none => false) }

/-- The first die of a launch's mask that is not fenced. -/
def State.otherDie (s : State) (l : Launch) : Option Nat := (diesOf l.dieMask.toNat).find? fun d => !s.fenced.contains (.die d)

/-- A launch loses a die: the teams still to come there, and those in the save area, wait on another die of its mask, and what its queue
instances on the die held is gone; a launch with no die left is lost (R31, R309, R382). -/
def State.leaveLostDie (seq die : Nat) (s : State) (l : Launch) : State :=
  if !l.dieMask.getLsbD die || l.stopped then s
  else match s.otherDie l with
    | none => s.updLaunch l.key (Launch.lose seq)
    | some d =>
      let s := s.markClosed l.key
      let t := if h : die < 8 then (List.range (l.assigned[die] - l.created[die])).foldl (fun (u : State) _ => u.offerNext l.key ⟨die, h⟩ u.now) s else s
      let t : State := { t with teams := t.teams.map fun x => if x.launch == l.key && x.die == die && (x.isWaiting || (x.isSaved && x.held.isEmpty)) then { x with die := d } else x }
      t.updLaunch l.key fun k => { k with queues := k.queues.map fun q => if q.die == die then { q with tokens := [] } else q }

/-- What the fence of a core, a cluster or a die does to the teams on it (R382): flushed under IDEM, a cooperative grid as a whole;
otherwise the launch is lost, as it is for a saved team whose windows are still held there. -/
def State.strandTeams (s : State) (u : UnitRef) (seq : Nat) : State :=
  let on := s.teams.filter fun t => t.status == .resident && inUnit u t
  let s := s.abandon fun g => on.any fun t => t.key == g.team
  let losing := (on.filter fun t => t.nmrun || !(s.launch t.launch).idem) ++ s.teams.filter fun t => t.isSaved && windowIn u t
  let s : State := { s with launches := s.launches.map fun l => if losing.any fun t => t.launch == l.key then l.lose seq else l }
  (on.filter fun t => !(s.launch t.launch).stopped).foldl (fun (v : State) t =>
    (v.together t).foldl (fun (w : State) x => if x.status == .resident then (w.abandon fun g => g.team == x.key).flushTeam x else w) v) s

/-- Contexts that have lost data fail (R384). -/
def State.failContexts (s : State) (u : UnitRef) (kind seq : Nat) : State :=
  let hurt (c : Ctx) : Bool := c.failed.isNone &&
    (s.mapsUnit u walkLevels c.ptroot ||
      s.teams.any fun t => (s.launch t.launch).ctx == c.num && windowIn u t)
  (s.ctxs.filter hurt).foldl (fun (t : State) c =>
    ({ t.updCtx c.num (fun x => { x with failed := some seq }) with
        launches := t.launches.map fun l => if l.ctx == c.num then l.lose seq else l } : State).logEvent
      { kind := 0xB, ctx := c.num, cont := true, data := [BitVec.ofNat 8 c.num, BitVec.ofNat 8 kind] }) s

/-- What goes with a die: translations to its frames, and the traffic of its home slices and its senders (R365, R379). -/
def State.dropDie (s : State) (d : Nat) : State :=
  let t : State := { s with
    inflight := s.inflight.filter fun p => p.ddie != d
    remotes := s.remotes.filter fun r => r.pkt.sdie != d
    windows := s.windows.filter fun w => w.die != d
    acks := s.acks.filter fun a => a.die != d
    deferred := s.deferred.filter fun q => q.1 / 2 != d
    relays := s.relays.filter fun r => r.engine != d
    work := s.work.filter fun w => w.die != d || !w.kind.committed }
  t.denyLost fun r => r.pkt.dpkg == s.pkgid && r.pkt.ddie == d

/-- Cached translations that lead to lost frames go (R383). -/
def State.dropLost (s : State) : State := { s with tlb := s.tlb.filter fun t => t.hm || !s.frameLost t.pa }

/-- A core, a cluster or a die fenced (R379, R382, R384). -/
def State.fenceLarge (s : State) (u : UnitRef) (trigger : Nat) : State :=
  if s.fenced.contains u then s
  else
    let seq := s.nextEvent
    let t := (s.fenceEvent u trigger).strandTeams u seq
    let t := match u with
      | .die d => ((t.launches.foldl (State.leaveLostDie seq d) t).dropDie d).dropLost
      | _ => t
    t.failContexts u (s.fenceId u).1 seq

/-! ## Lanes, beaters, channels (R380, R381, R383) -/

/-- The logical lane that a physical lane serves. -/
def Core.laneOf (c : Core) (plane : Nat) : Option Nat :=
  match c.spares.find? fun p => p.2 == plane with
  | some p => some p.1
  | none => if plane < 64 && !c.spares.any (fun p => p.1 == plane) then some plane else none

/-- The lowest-numbered free spare. -/
def Core.freeSpare (c : Core) : Option Nat := [64, 65].find? fun p => !c.fencedLanes.contains p && !c.spares.any fun q => q.2 == p

/-- A group moved to a spare lane; a fault raised before keeps the lane that it was raised on (R380). -/
def Group.moveLane (g : Group) (old new : Nat) : Group :=
  { g with
    place := { g.place with plane := new }
    stop := match g.stop with
      | .faulted f n => .faulted { f with plane := some (f.plane.getD old) } n
      | x => x }

/-- A lane fenced: its groups go on on a spare; the third takes the core with it (R379, R380). -/
def State.fenceLane (s : State) (core plane trigger : Nat) : State :=
  let c := s.core core
  if c.fencedLanes.contains plane then s
  else
    let c := { c with fencedLanes := plane :: c.fencedLanes }
    let t := s.fenceEvent (.lane core plane) trigger
    let t := match c.laneOf plane, c.freeSpare with
      | some l, some sp =>
        let move (g : Group) : Group := if g.live && g.place.coreIx == core && g.place.plane == plane then g.moveLane plane sp else g
        ({ t with cur := move t.cur, others := t.others.map move } : State).setCore
          { c with spares := (l, sp) :: c.spares.filter fun q => q.1 != l }
      | _, _ => t.setCore c
    if 3 ≤ c.fencedLanes.length then t.fenceLarge (.core core) 1 else t

/-- A beater fenced: the other bank of its pair serves both; with both gone, the level goes (R381). -/
def State.fenceBeater (s : State) (lvl arr bank trigger : Nat) : State :=
  let u : UnitRef := .beater lvl arr bank
  if s.fenced.contains u then s
  else
    let t := s.fenceEvent u trigger
    if t.fenced.contains (.beater lvl arr (if bank % 2 = 0 then bank + 1 else bank - 1)) then
      t.fenceLarge (if lvl = 1 then .clusterScratch arr else .die arr) 2
    else t

/-- A channel fenced: its frames are lost (R383). -/
def State.fenceChannel (s : State) (st ch trigger : Nat) : State :=
  let u : UnitRef := .channel st ch
  if s.fenced.contains u then s
  else (s.fenceEvent u trigger).dropLost.failContexts u 0x7 s.nextEvent

/-! ## Triggers (R379) -/

/-- Errors of a kind counted against a unit, within 24 hours where that matters. -/
def State.errorCount (s : State) (u : UnitRef) (kind : Nat) (day : Bool) : Nat :=
  (s.errors.filter fun e => e.1 == u && e.2.1 == kind && (!day || s.ns < e.2.2 + 86400000000000)).length

/-- The unit that errors of a bank count against. -/
def bankUnit (lvl arr : Nat) : UnitRef := if lvl = 1 then .clusterScratch arr else .die arr

/-- The trigger of a unit holds by what the machine has counted. -/
def State.triggered (s : State) (u : UnitRef) : Bool :=
  let banks (r : UnitRef) : Bool := s.errors.any fun e => match e.1 with
    | .beater lvl arr _ => e.2.1 == 5 && bankUnit lvl arr == r && s.params.spadWords ≤ s.errorCount e.1 5 true
    | _ => false
  match u with
  | .lane _ _ => 1 ≤ s.errorCount u 1 false
  | .core c => 3 ≤ (s.core c).fencedLanes.length || 1 ≤ s.errorCount u 6 false || s.params.mxChecks ≤ s.errorCount u 3 true
  | .beater .. => 1 ≤ s.errorCount u 2 false
  | .channel .. => s.params.chBursts ≤ s.errorCount u 4 true
  | .clusterScratch _ => banks u
  | .die d => banks u || (s.links.filter fun l => l.die == d && l.fenced).length == 4
  | .fibre _ | .link .. => false

/-- Units whose failure other parts of the device report: a core's pipeline or sequencer, a device of a channel, a home slice, the L2
TLB or the monitor of a die. -/
def reportable : UnitRef → Bool
  | .core _ | .channel .. | .die _ => true
  | _ => false

/-- The unit exists in the package (R2, R379). -/
def unitExists : UnitRef → Bool
  | .lane c p => c < 96 && p < 66
  | .core c => c < 224
  | .beater lvl arr bank => (lvl == 1 && arr < 24 && bank < 64) || (lvl == 2 && arr < 8 && bank < 192)
  | .channel st ch => st < 16 && ch < 16
  | .clusterScratch k => k < 24
  | .die d => d < 8
  | .fibre f => f < 96
  | .link d l => d < 8 && l < 4

def State.link (s : State) (die l : Nat) : Link := (s.links.find? fun x => x.die == die && x.link == l).getD { die := die, link := l }
def State.setLink (s : State) (x : Link) : State := { s with links := x :: s.links.filter fun y => !(y.die == x.die && y.link == x.link) }

/-- A die-to-die link fenced; a die with none left goes (R379, R391). -/
def State.fenceLink (s : State) (die l : Nat) : State :=
  if (s.link die l).fenced then s
  else
    let t := (s.setLink { s.link die l with fails := 0, retraining := false, fenced := true }).logEvent
      { kind := 0xA, cont := true, unit := s.unitOf { die := die }, data := leBytes 4 (die * 4 + l) ++ [Config.eventCode 4] }
    if (t.links.filter fun l => l.die == die && l.fenced).length = 4 then t.fenceLarge (.die die) 4 else t

/-- A unit fenced with the outcome of R380-R384. -/
def State.fenceUnit (s : State) (u : UnitRef) (trigger : Nat) : State :=
  match u with
  | .lane c p => s.fenceLane c p trigger
  | .beater lvl arr bank => s.fenceBeater lvl arr bank trigger
  | .channel st ch => s.fenceChannel st ch trigger
  | .fibre f => (s.fibreDown (true, f)).fibreDown (false, f)
  | .link d l => s.fenceLink d l
  | u => s.fenceLarge u trigger

/-- UNIT_FENCE (R379). -/
def execUnitFence (u : UnitRef) (trigger : Nat) (s : State) : Out :=
  .next (if unitExists u && (s.triggered u || reportable u) then s.fenceUnit u trigger else s)

/-- A sequencer failure of a core or a stack core stops the groups on it (R376). -/
def State.sequencerFails (s : State) (core kind : Nat) : State :=
  let f : FaultInfo := { cause := causeCheck, hw := true, lane := true, detail := BitVec.ofNat 64 (4 * 2 ^ 56 + kind % 256) }
  let stop (g : Group) : Group :=
    if g.live && g.place.coreIx == core && g.stop == .running then { g with stop := .faulted f 0, tmask := 0xFFFFFFFF, wait := .none } else g
  { s with cur := stop s.cur, others := s.others.map stop }

/-- A core whose sequencer has failed: its groups fault, and it is fenced. -/
def State.coreFails (s : State) (c kind : Nat) : State :=
  if s.fenced.contains (.core c) then s
  else if c < 96 then (s.sequencerFails c kind).fenceLarge (.core c) 3 else (s.sequencerFails c kind).fenceEvent (.core c) 3

/-- HEARTBEAT_LOSS (R375, R376, R379): the sequencer of a lane, the scalar sequencer or the copy engine of a core, or a stack core stops
the groups on the core with CHECK, and the core is fenced; one of a die (a home slice) takes the die. The controller of an
optical engine, named by one of its fibres, takes the fibres of its die down; R379 names no unit for it (log 46). -/
def execHeartbeatLoss (u : UnitRef) (kind : Nat) (s : State) : Out :=
  if !unitExists u then .next s
  else match u with
    | .lane c _ => .next (s.coreFails c kind)
    | .core c => .next (s.coreFails c kind)
    | .die d => .next (s.fenceLarge (.die d) 3)
    | .fibre f => .next ((List.range 12).foldl (fun (t : State) i => (t.fibreDown (true, f / 12 * 12 + i)).fibreDown (false, f / 12 * 12 + i)) s)
    | _ => .next s

/-! ## Die-to-die links (R391) -/

/-- FLIT_REPLAY: the eighth replay in a row that fails makes the link retrain; one that delivers the flit starts the count afresh. -/
def execFlitReplay (die : Nat) (r : LinkReplay) (s : State) : Out :=
  let link := r.link; let x := s.link die link; let n := if r.ok then 0 else x.fails + 1
  if 8 ≤ die || 4 ≤ link || x.fenced || x.retraining then .next s
  else .next ((s.setLink { x with fails := n, retraining := n = 8 }).count die fun h => { h with replays := h.replays + 1 })

/-- LINK_RETRAIN_END: a link that fails to retrain is fenced; a die with none left goes. -/
def execLinkRetrainEnd (die link : Nat) (ok : Bool) (s : State) : Out :=
  let x := s.link die link
  if !x.retraining then .next s
  else if ok then .next (s.setLink { x with fails := 0, retraining := false })
  else .next (s.fenceLink die link)

/-! ## Memory stacks (R350-R352, R375) -/

/-- PATROL_SCRUB (R375): the soft errors of a stack, or of the scratchpads (16), are corrected and counted. -/
def execPatrolScrub (unit : Nat) (s : State) : Out :=
  let mine (k : Nat) : Bool := if k < 2 ^ 40 then unit == frameStack k else unit == 16 && k < 2 ^ 64
  let one (t : State) (k : Nat) : State := t.count (keyUnit k).1 fun h =>
    if k < 2 ^ 40 then { h with memSymbols := h.memSymbols + 1 } else { h with sramBits := h.sramBits + 1 }
  .next ((s.soft.filter fun e => mine e.1).foldl (fun t e => one t e.1) { s with soft := s.soft.filter fun e => !mine e.1 })

/-- PER_BANK_REFRESH (R350): 180 ns. -/
def execPerBankRefresh (stack channel bank : Nat) (s : State) : Out :=
  if s.refresh.any fun r => r.1 == stack && r.2.1 == channel && r.2.2.1 == bank then .next s
  else .next { s with refresh := s.refresh ++ [(stack, channel, bank, s.ns + 180)] }

/-- REFRESH_END (R350). -/
def execRefreshEnd (stack channel bank : Nat) (s : State) : Out :=
  .next { s with refresh := s.refresh.filter fun r => !(r.1 == stack && r.2.1 == channel && r.2.2.1 == bank && r.2.2.2 ≤ s.ns) }

/-- BURST_ROLLBACK (R351): the bursts on a channel behind which a per-bank command has waited 1 us go back to their last safe point. -/
def execBurstRollback (stack channel : Nat) (s : State) : Out :=
  .next ((s.bursts.filter fun b => b.stack == stack && b.channel == channel && b.waiter.any (· + 1000 ≤ s.ns)).foldl State.rollback s)

/-- ROW_HOLD_TIMEOUT (R352): a row held for 8 us while an access waits makes its core release all its rows. -/
def execRowHoldTimeout (stack row : Nat) (s : State) : Out :=
  match s.rows.find? fun r => r.stack == stack && r.row == row with
  | some r => if r.waiter.isSome && r.since + 8000 ≤ s.ns then .next (s.releaseCore r.core) else .next s
  | none => .next s

/-! ## Power and ageing (R4, R390, R392) -/

/-- POWER_CAP_STEP (R4): the clock goes down by 5 % to no less than 1.35 GHz, or up to no more than the ceiling. -/
def execPowerCapStep (down : Bool) (s : State) : Out :=
  .next { s with clockStep := if down then min (s.clockStep + 1) 10 else max (s.clockStep - 1) s.ceiling }

def hourNs : Nat := 3600000000000

/-- The smallest of some readings. -/
def minSlack (cs : List Canary) : Int := match cs with | [] => 0 | c :: r => r.foldl (fun m x => min m x.slack) c.slack

/-- CANARY_READ (R392): once an hour; a fall of more than 8 ps since the last plan, or a week, starts a re-plan. -/
def execCanaryRead (die : Nat) (canaries : List Canary) (s : State) : Out :=
  if h : die < 8 then
    let x := s.health[die]
    if (match x.canaryAt with | some t => s.ns < t + hourNs | none => false) || canaries.isEmpty then .next s
    else
      let fell := (canaries.zip x.planSlack).any fun q => q.1.slack + 8 < q.2
      let y : Health := { x with
        slack := minSlack canaries, canaryAt := some s.ns
        planSlack := if x.planSlack.isEmpty then canaries.map (·.slack) else x.planSlack
        replanning := if x.replanning.isNone && (fell || x.plan + 168 * hourNs ≤ s.ns) then some s.ns else x.replanning }
      .next { s with health := s.health.set die y }
  else .next s

/-- An 8-bit and a 16-bit field of a signed number. -/
def signedBytes (n : Nat) (x : Int) : List Byte := leBytes n (x % 2 ^ (8 * n)).toNat

/-- What follows when the largest offset cannot give the target (R392). -/
def State.aged (s : State) (die : Nat) (canaries : List Canary) : State :=
  let i := (canaries.findIdx? fun c => c.slack == minSlack canaries).getD 0
  let t := s.logEvent { kind := 0x29, cont := true, unit := s.unitOf { die := die }, data := leBytes 1 die ++ leBytes 1 i }
  match (canaries[i]?).bind (·.core) with
  | some c => t.fenceLarge (.core (die * 12 + c % 12)) 5
  | none =>
    let n := min (t.ceiling + 1) 10
    { t with ceiling := n, clockStep := max t.clockStep n }

/-- The REPLAN event: the offset in steps of 5 mV and the smallest slack (R385, R392). -/
def State.logReplan (s : State) (die : Nat) (volt slack : Int) : State :=
  s.logEvent { kind := 0x28, unit := s.unitOf { die := die }, data := leBytes 1 die ++ signedBytes 1 (volt / 5) ++ signedBytes 2 slack }

/-- REPLAN (R392): one step of 5 mV every 10 ms until the smallest slack lies between the target and 10 ps above it. -/
def execReplan (die : Nat) (canaries : List Canary) (s : State) : Out :=
  if h : die < 8 then
    let x := s.health[die]; let m := minSlack canaries; let target : Int := s.params.slack
    match x.replanning with
    | none => .next s
    | some t =>
      if s.ns < t || canaries.isEmpty then .next s
      else
        let put (y : Health) : State := { s with health := s.health.set die y }
        let planned : Health := { x with slack := m, replanning := none, plan := s.ns, planSlack := canaries.map (·.slack) }
        if target ≤ m && m ≤ target + 10 then
          .next ((put planned).logReplan die x.volt m)
        else if m < target then
          (if x.volt + 5 ≤ s.params.maxVolt then .next (put { x with slack := m, volt := x.volt + 5, replanning := some (s.ns + 10000000) })
          else .next (((put planned).logReplan die x.volt m).aged die canaries))
        else .next (put { x with slack := m, volt := x.volt - 5, replanning := some (s.ns + 10000000) })
  else .next s

/-! ## The health record and the hourly summary (R385, R386) -/

/-- A mask of the numbers below n that a test holds for. -/
def maskNat (n : Nat) (p : Nat → Bool) : Nat := (List.range n).foldl (fun m i => if p i then m + 2 ^ i else m) 0

/-- The four counters. -/
def Health.counts (h : Health) : List Byte := leBytes 8 h.memSymbols ++ leBytes 8 h.sramBits ++ leBytes 8 h.replays ++ leBytes 8 h.poisons

/-- Bytes 0-31 of a die's section: the fence map. -/
def State.fenceMap (s : State) (d : Nat) : List Byte :=
  leBytes 2 (maskNat 12 (fun i => s.coreFenced (d * 12 + i)) + 2 ^ 12 * maskNat 3 (fun i => s.fenced.contains (.clusterScratch (d * 3 + i))) +
      2 ^ 15 * maskNat 1 (fun _ => s.fenced.contains (.die d))) ++ leBytes 2 0 ++
    leBytes 4 (maskNat 12 (fun i => (s.fibre (d * 12 + i)).outDown || (s.fibre (d * 12 + i)).dark.length == 3) +
      2 ^ 12 * maskNat 12 fun i => (s.fibre (d * 12 + i)).inDown) ++
    leBytes 8 (maskNat 36 fun i => (s.fibre (d * 12 + i / 3)).dark.contains (i % 3)) ++
    (List.range 12).map (fun i => BitVec.ofNat 8 (s.core (d * 12 + i)).spares.length) ++
    leBytes 4 (maskNat 32 fun i => s.fenced.contains (.channel (2 * d + i / 16) (i % 16)))

/-- A die's section. -/
def State.healthSection (s : State) (d : Fin 8) : List Byte :=
  let h := s.health[d]
  let beaters (p : Nat → Nat → Bool) : Nat := (s.fenced.filter fun u => match u with | .beater l a _ => p l a | _ => false).length
  let b := s.fenceMap d ++ leBytes 4 (beaters (fun l a => l == 1 && a / 3 == d.val) + 2 ^ 16 * beaters fun l a => l == 2 && a == d.val) ++ leBytes 4 0 ++
    h.counts ++ leBytes 4 h.matrix ++ leBytes 4 h.laneBeater ++ leBytes 8 h.conflicts ++ signedBytes 2 h.slack ++ signedBytes 2 h.volt ++
    leBytes 8 h.plan ++ leBytes 4 h.discards
  (b ++ List.replicate 448 0).take 448

/-- The record of 4 KiB. -/
def State.healthRecord (s : State) : List Byte :=
  let head := leBytes 8 s.ns ++ leBytes 8 (s.evHead - 1) ++ leBytes 2 (2700 - 135 * s.ceiling) ++ leBytes 2 0 ++ leBytes 4 s.params.svn
  ((head ++ List.replicate 64 0).take 64 ++ (List.finRange 8).flatMap s.healthSection ++ List.replicate 448 0).take 4096

/-- HEALTH (R303, R386). -/
def execHealth (e : EntryRef) (va : Nat) (s : State) : Out :=
  commandOnce (.health e va) e (fun s => (s.writeBytes (hostKey va) s.healthRecord).complete e codeDone) s

/-- CORRECTED_SUMMARY (R385): once an hour for each die. -/
def execCorrectedSummary (die : Nat) (s : State) : Out :=
  if h : die < 8 then
    let x := s.health[die]
    if s.ns / hourNs ≤ x.summaryAt then .next s
    else .next (({ s with health := s.health.set die { x with summaryAt := s.ns / hourNs } } : State).logEvent
      { kind := 0x1, unit := s.unitOf { die := die }, data := x.counts })
  else .next s

/-! ## Cold reset (R393) -/

/-- COLD_RESET: every register and memory of the package at its reset value, what the self-test finds failed fenced; the host's memory,
what has been sent, and what is still to happen are not the package's. -/
def execColdReset (failed : List UnitRef) (s : State) : Out :=
  let t : State := { State.reset with
    mem := s.mem.filter (fun c => 2 ^ 64 ≤ c.1), agenda := s.agenda, hostOut := s.hostOut, outbox := s.outbox, outTails := s.outTails, fresh := s.fresh }
  .next ((failed.filter unitExists).foldl (fun (u : State) r => u.fenceUnit r 6) t)

end Sys2Proof.Machine
end

