-- ==== Sys2Proof/Machine/Sha384.lean ====
section
/-! DEFINITION. SHA-384 (R394, R396; FIPS 180-4, log 18): its constants from the roots that define them, and the compression as two
sequences of words, of which each round makes one more. -/

namespace Sys2Proof.Machine

/-- The largest r below 2^bits with r^k at most n, given the bits of it found so far. -/
def rootBits (k n : Nat) : Nat → Nat → Nat
  | 0, r => r
  | bit + 1, r => rootBits k n bit (if (r + 2 ^ bit) ^ k ≤ n then r + 2 ^ bit else r)

/-- The first 64 bits after the point of the k-th root of a number below 512. -/
def rootFraction (k p : Nat) : BitVec 64 := BitVec.ofNat 64 (rootBits k (p * 2 ^ (64 * k)) 69 0)

/-- The primes below a bound. -/
def primesBelow (n : Nat) : List Nat := (List.range n).filter fun p => 1 < p && (List.range p).all fun d => d < 2 || p % d != 0

/-- One constant for each of the 80 rounds: the cube roots of the first 80 primes. -/
def roundConstants : List (BitVec 64) := (primesBelow 410).map (rootFraction 3)

/-- The words before the first block: the square roots of the ninth to the sixteenth prime. -/
def hashStart : List (BitVec 64) := ((primesBelow 54).drop 8).map (rootFraction 2)

/-- The words of some bytes, eight bytes each, the most significant first. -/
def beWords (n : Nat) (bs : List Byte) : List (BitVec 64) :=
  (List.range n).map fun i => BitVec.ofNat 64 (((bs.drop (8 * i)).take 8).foldl (fun v b => 256 * v + b.toNat) 0)

/-- The n bytes of a number, the most significant first. -/
def beBytes (n v : Nat) : List Byte := (List.range n).reverse.map fun i => BitVec.ofNat 8 (v / 256 ^ i)

/-- The message as whole blocks of 128 bytes: a one bit, zeros, and the length in bits as sixteen bytes. -/
def hashPadded (m : List Byte) : List Byte :=
  m ++ (0x80 : Byte) :: (List.replicate ((239 - m.length % 128) % 128) 0 ++ beBytes 16 (8 * m.length))

/-- The exclusive or of a word rotated by each of some amounts. -/
def turned (w : BitVec 64) (by_ : List Nat) : BitVec 64 := by_.foldl (fun x r => x ^^^ w.rotateRight r) 0

/-- The last words of the two sequences, newest first, and the sixteen schedule words that come next. -/
structure HashRun where
  left : List (BitVec 64)
  right : List (BitVec 64)
  next : List (BitVec 64)

/-- One round with its constant. -/
def HashRun.round (h : HashRun) (const : BitVec 64) : HashRun :=
  let l (i : Nat) := h.left.getD i 0
  let r (i : Nat) := h.right.getD i 0
  let w (i : Nat) := h.next.getD i 0
  let picked := (r 0 &&& r 1) ||| (~~~(r 0) &&& r 2)
  let agreed := (l 0 &&& (l 1 ||| l 2)) ||| (l 1 &&& l 2)
  let shared := r 3 + w 0 + const + picked + turned (r 0) [14, 18, 41]
  let later := w 0 + w 9 + (turned (w 1) [1, 8] ^^^ w 1 >>> 7) + (turned (w 14) [19, 61] ^^^ w 14 >>> 6)
  { left := (shared + agreed + turned (l 0) [28, 34, 39]) :: h.left.take 3
    right := (shared + l 3) :: h.right.take 3
    next := h.next.drop 1 ++ [later] }

/-- The eight words after one block. -/
def hashBlock (h : List (BitVec 64)) (block : List Byte) : List (BitVec 64) :=
  let e := roundConstants.foldl HashRun.round { left := h.take 4, right := h.drop 4, next := beWords 16 block }
  List.zipWith (· + ·) h (e.left ++ e.right)

/-- The digest of some bytes. -/
def sha384 (m : List Byte) : List Byte :=
  let bytes := hashPadded m
  let blocks := (List.range (bytes.length / 128)).map fun i => (bytes.drop (128 * i)).take 128
  ((blocks.foldl hashBlock hashStart).take 6).flatMap fun w => beBytes 8 w.toNat

end Sys2Proof.Machine
end

