-- ==== Sys2Proof/Machine/Gcm.lean ====
section
/-! DEFINITION. AES-256-GCM (R396; FIPS 197 and NIST SP 800-38D, log 18). -/

namespace Sys2Proof.Machine

/-! ## The field of bytes -/

/-- Twice a byte in the field of 256 elements. -/
def gfDouble (x : Byte) : Byte := if x.msb then x <<< 1 ^^^ 0x1B else x <<< 1

/-- A product in it. -/
def gfMul (x y : Byte) : Byte := (List.range 8).foldl (fun acc i => acc ^^^ (if y.getLsbD i then gfDouble^[i] x else 0)) 0

/-- The inverse, 0 of 0: the power 254, the product of the seven squares from the second on. -/
def gfInverse (x : Byte) : Byte := (List.range 7).foldl (fun acc i => gfMul acc ((fun q => gfMul q q)^[i + 1] x)) 1

/-- The substitution of a byte. -/
def aesSub (x : Byte) : Byte := [1, 2, 3, 4].foldl (fun acc r => acc ^^^ (gfInverse x).rotateLeft r) (gfInverse x ^^^ 0x63)

/-! ## The block cipher -/

/-- The exclusive or of two strings of bytes. -/
def xorBytes (x y : List Byte) : List Byte := List.zipWith (· ^^^ ·) x y

/-- Substitution, and the shift of each row by its number: byte i is in row i % 4 of column i / 4. -/
def aesShifted (x : List Byte) : List Byte := (List.range 16).map fun i => aesSub (x.getD ((i + 4 * (i % 4)) % 16) 0)

/-- Each column times the fixed polynomial. -/
def aesMixed (x : List Byte) : List Byte :=
  (List.range 16).map fun i =>
    let at_ (j : Nat) := x.getD (4 * (i / 4) + (i + j) % 4) 0
    gfDouble (at_ 0) ^^^ gfDouble (at_ 1) ^^^ at_ 1 ^^^ at_ 2 ^^^ at_ 3

/-- The words of the expanded key, newest first: n more after the i words there are. -/
def aesExpand : Nat → Nat → List (List Byte) → List (List Byte)
  | 0, _, w => w
  | n + 1, i, w =>
    let last := w.getD 0 []
    let t := if i % 8 = 0 then xorBytes ((last.rotate 1).map aesSub) [gfDouble^[i / 8 - 1] 1, 0, 0, 0]
      else if i % 8 = 4 then last.map aesSub else last
    aesExpand n (i + 1) (xorBytes (w.getD 7 []) t :: w)

/-- The fifteen round keys of a key of 32 bytes. -/
def aesKeys (key : List Byte) : List (List Byte) :=
  let words := (aesExpand 52 8 ((List.range 8).reverse.map fun i => (key.drop (4 * i)).take 4)).reverse
  (List.range 15).map fun i => ((words.drop (4 * i)).take 4).flatten

/-- The cipher of one block under its round keys. -/
def aesBlock (keys : List (List Byte)) (x : List Byte) : List Byte :=
  let body := ((keys.drop 1).take 13).foldl (fun y k => xorBytes (aesMixed (aesShifted y)) k) (xorBytes x (keys.getD 0 []))
  xorBytes (aesShifted body) (keys.getD 14 [])

/-! ## The mode -/

/-- A product in the field of the authentication tag, whose first bit is the highest. -/
def tagMul (x y : BitVec 128) : BitVec 128 :=
  ((List.range 128).foldl (fun (a : BitVec 128 × BitVec 128) i =>
    (if x.getMsbD i then a.1 ^^^ a.2 else a.1, if a.2.getLsbD 0 then a.2 >>> 1 ^^^ 0xE1#128 <<< 120 else a.2 >>> 1)) (0, y)).1

/-- The sixteen-byte blocks of a string, the last one filled with zeros. -/
def blocks16 (x : List Byte) : List (List Byte) :=
  (List.range ((x.length + 15) / 16)).map fun i => (((x.drop (16 * i)).take 16) ++ List.replicate 16 0).take 16

/-- The value of bytes, the most significant first. -/
def beValue (x : List Byte) : Nat := x.foldl (fun v b => 256 * v + b.toNat) 0

/-- The hash of the additional data and the cipher text under a hash key. -/
def tagHash (h : BitVec 128) (aad text : List Byte) : BitVec 128 :=
  (blocks16 aad ++ blocks16 text ++ [beBytes 8 (8 * aad.length) ++ beBytes 8 (8 * text.length)]).foldl
    (fun t x => tagMul (t ^^^ BitVec.ofNat 128 (beValue x)) h) 0

/-- The cipher text of a message and its tag: key of 32 bytes, initialisation vector of 12, additional data. -/
def gcmSeal (key iv aad msg : List Byte) : List Byte :=
  let keys := aesKeys key
  let pad (i : Nat) := aesBlock keys (iv ++ beBytes 4 i)
  let text := xorBytes msg ((List.range ((msg.length + 15) / 16)).flatMap fun i => pad (i + 2))
  text ++ xorBytes (beBytes 16 (tagHash (BitVec.ofNat 128 (beValue (aesBlock keys (List.replicate 16 0)))) aad text).toNat) (pad 1)

end Sys2Proof.Machine
end

