-- ==== Sys2Proof/Machine/Attest.lean ====
section
/-! DEFINITION. The SPDM responder of the DOE mailbox: which request is served when, and what it measures (R393-R396; log 16, log 18). -/

namespace Sys2Proof.Machine

/-! ## Answers -/

/-- A message of a session: the session's identifier and the length, which are authenticated, then the message sealed under the key with
the number of messages sealed so far in its initialisation vector (log 18). -/
def Spdm.seal (p : Spdm) (msg : List Byte) : List Byte :=
  let head := leBytes 4 p.sid ++ leBytes 2 (msg.length + 16)
  let iv := xorBytes ((leBytes 8 p.iv[0].toNat ++ leBytes 8 p.iv[1].toNat).take 12) (leBytes 12 p.sent)
  head ++ gcmSeal (p.key.toList.flatMap fun w => leBytes 8 w.toNat) iv head msg

/-- A response given to the mailbox; inside a session it is sealed. -/
def State.say (s : State) (code : Nat) (body : List Byte) : State :=
  if s.spdm.session = some true then
    { s with
      spdm := { s.spdm with sent := s.spdm.sent + 1 }
      hostOut := s.hostOut ++ [.secured (s.spdm.seal (BitVec.ofNat 8 code :: body))] }
  else { s with hostOut := s.hostOut ++ [.spdm code body] }

/-- ERROR with an error code and its data: 1 InvalidRequest, 4 UnexpectedRequest, 7 UnsupportedRequest (log 18). -/
def State.spdmError (s : State) (err data : Nat) : State := s.say 0x7F [BitVec.ofNat 8 err, BitVec.ofNat 8 data]

/-- A request is served when the connection has come far enough. -/
def served (ok : Bool) (f : State → State) (s : State) : Out := .next (if ok then f s else s.spdmError 0x04 0)

/-- The version, the capabilities and the algorithms are agreed. -/
def Spdm.agreed (p : Spdm) : Bool := p.version && p.capabilities && p.algorithms

/-! ## What is measured (R396) -/

/-- Measurements 1 to 4: the ROM, the parameter block, the calender block, the fence map. -/
def State.measurement (s : State) (i : Nat) : List Byte :=
  match i with
  | 1 => sha384 Config.romBytes
  | 2 => if s.params.loaded then sha384 s.params.block else List.replicate 48 0
  | 3 => match s.cal with
    | some c => sha384 c.block
    | none => List.replicate 48 0
  | 4 => (List.range 8).flatMap s.fenceMap
  | _ => []

/-! ## The algorithms (R396; their codes are DMTF's, log 18) -/

/-- The value of little-endian bytes. -/
def leNat (bs : List Byte) : Nat := bs.foldr (fun b n => b.toNat + 256 * n) 0

/-- A little-endian field of a request's bytes after its header. -/
def fieldAt (req : List Byte) (off n : Nat) : Nat := leNat ((req.drop off).take n)

/-- The one algorithm of a kind that is supported: key exchange secp384r1, sealing AES-256-GCM, the key schedule. -/
def algSupported (kind : Nat) : Nat := if kind = 2 then 0x10 else if kind = 3 then 0x02 else if kind = 5 then 0x01 else 0

/-- The algorithm structures offered, at most n of them: kind and mask; each external algorithm takes four bytes more. -/
def algOffered : Nat → List Byte → List (Nat × Nat)
  | n + 1, k :: c :: lo :: hi :: rest => (k.toNat, leNat [lo, hi]) :: algOffered n (rest.drop (4 * (c.toNat % 16)))
  | _, _ => []

/-- What is chosen of the structures offered. -/
def algChosen (req : List Byte) : List (Nat × Nat) :=
  (algOffered 4 (req.drop (28 + 4 * (fieldAt req 24 1 + fieldAt req 25 1)))).map fun a => (a.1, a.2 &&& algSupported a.1)

/-- The device and the requester share ECDSA P-384 and SHA-384. -/
def algAgreed (req : List Byte) : Bool := (fieldAt req 4 4).testBit 7 && (fieldAt req 8 4).testBit 1

/-- ALGORITHMS after its header: the signature, the hash, and of each kind offered what is supported. -/
def algBody (req : List Byte) : List Byte :=
  let chosen := algChosen req
  leBytes 2 (36 + 4 * chosen.length) ++ [BitVec.ofNat 8 (fieldAt req 2 1 % 2), BitVec.ofNat 8 (fieldAt req 3 1 &&& 2)] ++
    leBytes 4 4 ++ leBytes 4 0x80 ++ leBytes 4 2 ++ List.replicate 16 0 ++
    chosen.flatMap fun a => BitVec.ofNat 8 a.1 :: 0x20 :: leBytes 2 a.2

/-! ## The requests -/

/-- GET_VERSION starts a connection anew. -/
def execGetVersion (s : State) : Out :=
  .next (({ s with spdm := { version := true } } : State).say 0x04 (Config.spdmBody 0x84 [] []))

/-- GET_CAPABILITIES. -/
def execGetCapabilities (req : List Byte) (s : State) : Out :=
  served s.spdm.version (fun s => ({ s with spdm := { s.spdm with capabilities := true } } : State).say 0x61 (Config.spdmBody 0xE1 req [])) s

/-- NEGOTIATE_ALGORITHMS: ECDSA P-384 and SHA-384, which the requester must offer; for a session secp384r1 and AES-256-GCM too. -/
def execNegotiateAlgorithms (req : List Byte) (s : State) : Out :=
  served (s.spdm.version && s.spdm.capabilities) (fun s =>
    if !algAgreed req then s.spdmError 0x01 0
    else
      let has (k : Nat) : Bool := (algChosen req).any fun a => a.1 == k && a.2 != 0
      ({ s with spdm := { s.spdm with algorithms := true, sessions := has 2 && has 3 } } : State).say 0x63 (algBody req)) s

/-- GET_DIGESTS: the digest of certificate slot 0, the only one. -/
def execGetDigests (_ : List Byte) (s : State) : Out :=
  served s.spdm.agreed (fun s => s.say 0x01 (sha384 Config.certificateChain)) s

/-- GET_CERTIFICATE: a part of the chain of slot 0. -/
def execGetCertificate (slot off len : Nat) (s : State) : Out :=
  served s.spdm.agreed (fun s => if slot = 0 then s.say 0x02 ((Config.certificateChain.drop off).take len) else s.spdmError 0x01 0) s

/-- CHALLENGE: signed with the device key over the certificate and the measurements. -/
def execChallenge (slot : Nat) (req : List Byte) (s : State) : Out :=
  served s.spdm.agreed (fun s =>
    if slot = 0 then s.say 0x03 (Config.spdmBody 0x83 req ([1, 2, 3, 4].flatMap s.measurement)) else s.spdmError 0x01 0) s

/-- GET_MEASUREMENTS: 0 asks how many there are, 255 for all, 1 to 4 for one. -/
def execGetMeasurements (index : Nat) (req : List Byte) (s : State) : Out :=
  served s.spdm.agreed (fun s =>
    let m := if index = 0 then [(4 : Byte)] else if index = 255 then [1, 2, 3, 4].flatMap s.measurement else s.measurement index
    if 4 < index && index != 255 then s.spdmError 0x01 0 else s.say 0x60 (m ++ Config.spdmBody 0xE0 req m)) s

/-- The connection with a session begun: its identifier, whose lower half is the requester's, its key and its initialisation vector are
free values. -/
def State.newSession (s : State) (req : List Byte) : Spdm :=
  let w (i : Nat) : Word := Config.freeValue (s.fresh + i)
  { s.spdm with
    session := some false
    key := #v[w 0, w 1, w 2, w 3]
    iv := #v[w 4, w 5]
    sid := fieldAt req 2 2 + 65536 * ((w 6).toNat % 65536)
    sent := 0 }

/-- KEY_EXCHANGE opens a session: its key is the device's to draw. -/
def execKeyExchange (slot : Nat) (req : List Byte) (s : State) : Out :=
  served (s.spdm.agreed && s.spdm.sessions && s.spdm.session.isNone) (fun s =>
    if slot = 0 then
      ({ s with spdm := s.newSession req, fresh := s.fresh + 7 } : State).say 0x64 (Config.spdmBody 0xE4 req [])
    else s.spdmError 0x01 0) s

/-- FINISH completes it. -/
def execFinish (req : List Byte) (s : State) : Out :=
  served (s.spdm.session == some false)
    (fun s => ({ s with spdm := { s.spdm with session := some true } } : State).say 0x65 (Config.spdmBody 0xE5 req [])) s

/-- HEARTBEAT keeps it alive. -/
def execHeartbeat (s : State) : Out := served (s.spdm.session == some true) (fun s => s.say 0x68 []) s

/-- END_SESSION. -/
def execEndSession (s : State) : Out :=
  served (s.spdm.session == some true) (fun s =>
    let t := s.say 0x6C []
    { t with spdm := { t.spdm with session := none } }) s

/-- The codes of the requests that are served (log 18). -/
def spdmServed : List Nat := [0x81, 0x82, 0x83, 0x84, 0xE0, 0xE1, 0xE3, 0xE4, 0xE5, 0xE8, 0xEC]

/-- SPDM_UNSUPPORTED_REQUEST. -/
def execSpdmUnsupportedRequest (code : Nat) (s : State) : Out := .next (if spdmServed.contains code then s else s.spdmError 0x07 code)

end Sys2Proof.Machine
end

