-- ==== Sys2Proof/Machine/HostPort.lean ====
section
/-! DEFINITION. The host port: registers, the device-memory aperture, ATS, the event log's tail, parameter blocks and DOE discovery
(R355-R361, R385, R393, R394). -/

namespace Sys2Proof.Machine

/-! ## What BAR0 reads (R298, R356-R358, R385, R393, R394) -/

/-- The bytes of an event-log entry (R385). -/
def LogEntry.bytes (e : LogEntry) : List Byte :=
  let b := leBytes 8 (e.seq % 2 ^ 32) ++ leBytes 8 e.time ++ leBytes 2 e.kind ++ leBytes 1 e.ctx ++ leBytes 1 (if e.cont then 1 else 0) ++
    leBytes 4 e.unit.toNat ++ e.data
  (b ++ List.replicate 40 0).take 64

/-- PBSTAT (R394). -/
def Params.stat (p : Params) : Word := BitVec.ofNat 64 (p.svn * 2 ^ 32 + p.err * 2 ^ 8 + if p.loaded then 1 else 0)

/-- A quadword of BAR0; an address that the map does not list reads as zero. -/
def State.bar0 (s : State) (off : Nat) : Word :=
  if off = 0 then BitVec.ofNat 64 (0x9640 + Config.form.toNat * 2 ^ 16)
  else if h : 0x8000 ≤ off ∧ off < 0x8200 then s.ctxPasid[(off - 0x8000) / 8]'(by omega)
  else if off = 0x9000 then s.bar2win
  else if 0x10000 ≤ off ∧ off < 0x14000 then
    let x := s.queue ((off - 0x10000) / 64)
    match off % 64 with
    | 0 => x.base
    | 8 => x.comp
    | 16 => BitVec.ofNat 64 ((if x.en then 256 else 0) + x.prio)
    | _ => 0
  else if 0x20000 ≤ off ∧ off < 0x21040 then s.msixWord (off - 0x20000)
  else if 0x30000 ≤ off ∧ off < 0x30028 then
    (s.msixPending.filter fun v => v / 64 == (off - 0x30000) / 8).foldl (fun (w : Word) v => w ||| BitVec.twoPow 64 (v % 64)) 0
  else if 0x100000 ≤ off ∧ off < 0x140000 then
    match s.log.reverse.find? fun e => e.seq % 4096 == (off - 0x100000) / 64 with
    | some e => BitVec.ofNat 64 (ofLeBytes ((e.bytes.drop (off % 64)).take 8))
    | none => 0
  else if off = 0x140000 then BitVec.ofNat 64 (s.evHead % 2 ^ 32)
  else if off = 0x140008 then s.evTail.setWidth 64
  else if off = 0x140010 then BitVec.ofNat 64 s.evDrop
  else if off = 0x180000 then s.pbAddr
  else if off = 0x180010 then s.params.stat
  else if off = 0x180018 then BitVec.ofNat 64 (Config.romRevision.toNat + s.params.ext * 2 ^ 16)
  else 0

/-! ## Writes of registers -/

/-- A quadword of the MSI-X table written; clearing a vector's mask sends what it held back. -/
def State.writeMsix (s : State) (off : Nat) (val : Word) : State :=
  let t : State := { s with msixTable := (off, val) :: s.msixTable.filter fun e => e.1 != off }; let v := off / 16
  if off % 16 = 8 && !val.getLsbD 32 && s.msixPending.contains v then
    ({ t with msixPending := t.msixPending.filter (· != v) } : State).msix v
  else t

/-- A register without a step of its own stores its RW fields (R356). A write that names no RW field changes nothing: one of a register
all of whose fields are RO (IDENT, PBSTAT, FWVER, EVHEAD, EVDROP, an event-log entry) too, which R7 has raise PRIV where there is a group
to stop, and the host port has none (log 52, DESIGN CHOICE). -/
def State.registerWrite (off : Nat) (val : Word) (s : State) : State :=
    if h : 0x8000 ≤ off ∧ off < 0x8200 then
      if off % 8 ≠ 0 || s.hasCtx ((off - 0x8000) / 8) then s
      else { s with ctxPasid := s.ctxPasid.set ((off - 0x8000) / 8) (val &&& 0x800FFFFF) (by omega) }
    else if off = 0x9000 then { s with bar2win := val &&& 0xFFC0000000 }
    else if 0x10000 ≤ off ∧ off < 0x14000 then
      let x := s.queue ((off - 0x10000) / 64)
      if x.en then s
      else if off % 64 = 0 then s.setQueue { x with base := val &&& 0x01FFFFFFFFFFFFC0 }
      else if off % 64 = 8 then s.setQueue { x with comp := val &&& 0x01FFFFFFFFFFFFF8 }
      else s
    else if 0x20000 ≤ off ∧ off < 0x21040 ∧ off % 8 = 0 then s.writeMsix (off - 0x20000) val
    else if off = 0x180000 then { s with pbAddr := val &&& 0xFFFFFFFFFFFFFFC0 }
    else s

/-- EVTAIL is written (R385): containment entries that waited are written as there is room. -/
def State.evtailWrite (tail : BitVec 32) (s : State) : State :=
  let one (t : State) (_ : LogEntry) : State :=
    match t.evHeld with
    | e :: r => if t.evUsed < 4096 then ({ t with evHeld := r } : State).putEvent e else t
    | [] => t
  s.evHeld.foldl one { s with evTail := tail }

/-- OUTSTANDING_PAGE_REQUEST_ALLOCATION (R360): the host grants no more than the capacity of 8,192 that the capability states (R355). -/
def execOutstandingPageRequestAllocation (n : Nat) (s : State) : Out := .next { s with allowance := min n 8192 }

/-! ## The aperture (R357, R359, R378) -/

/-- The frame address of an offset: bits of the window base below BAR2's size are ignored. -/
def State.aperture (s : State) (off : Nat) : Nat := s.bar2win.toNat / 2 ^ s.bar2Log * 2 ^ s.bar2Log + off

/-- A request is answered with Unsupported Request, which AER reports (R355; bit 20 of its status register, log 24). -/
def State.unsupported (s : State) : State := { s with hostOut := s.hostOut ++ [.unsupported, .aer false 20] }

/-- A read of BAR2 (R357): poison sets EP (R378). -/
def State.bar2Read (off len : Nat) (s : State) : State :=
  let a := s.aperture off
  if 2 ^ 40 < a + len then s.unsupported
  else ({ s with hostOut := s.hostOut ++ [.bar2Data (readCells s.mem a len) (s.poisonedAt a len)] } : State).notePoison a len 0xFF

/-- A write of BAR2 (R357): checked against nothing. -/
def State.bar2Write (off : Nat) (data : List Byte) (s : State) : State :=
  let a := s.aperture off
  if 2 ^ 40 < a + data.length then s.unsupported else s.writeBytes a data

/-- BAR_ATOMIC_OP (R355). -/
def execBarAtomicOp (_ _ : Nat) (s : State) : Out := .next s.unsupported

/-! ## Parameter blocks (R394) -/

/-- A block whose form is wrong before its signature can be looked for. -/
def blockHeadBad (b : Nat) : Bool :=
  let len := bits b 127 96
  bits b 31 0 != 0x4D524150 || bits b 47 32 != 1 || bits b 63 48 != 0 || len % 64 != 0 || len < 192 || 2 ^ 20 < len

/-- The extension lies outside the block, or a byte beside it is not zero. -/
def blockBodyBad (b len : Nat) : Bool :=
  let eo := bits b 383 320; let el := bits b 447 384
  (el != 0 && (eo < 58 || len < eo + el + 96)) ||
  (List.range (len - 154)).any fun i => let o := 58 + i; bits b (8 * o + 7) (8 * o) != 0 && !(eo ≤ o && o < eo + el)

/-- A refused LOAD: only ERR changes. -/
def State.pbError (s : State) (err : Nat) : State := { s with params := { s.params with err := err } }

/-- The fields of an accepted block; the revision of its extension is not located by the manual (log 9). -/
def paramsOf (b svn ext : Nat) (bs : List Byte) : Params :=
  { loaded := true, svn := svn, err := 0, drain := bits b 191 128, replicaGiB := bits b 223 192, migrationGiB := bits b 255 224
    slack := bits b 271 256, maxVolt := bits b 287 272, mxChecks := bits b 303 288, chBursts := bits b 319 304, spadWords := bits b 463 448
    ext := ext, block := bs }

/-- The load of a parameter block (R394). -/
def State.parameterBlockLoad (s : State) : State :=
  let k := hostKey s.pbAddr.toNat; let head := s.read k 16; let len := bits head 127 96
  if !s.ctxs.isEmpty then s.pbError 0x08
  else if blockHeadBad head then s.pbError 0x01
  else
    let bs := readCells s.mem k len; let b := ofLeBytes bs; let svn := bits b 95 64
    if !Config.signatureValid (bs.take (len - 96)) (bs.drop (len - 96)) then s.pbError 0x09
    else if blockBodyBad b len then s.pbError 0x01
    else if svn < Config.fusedMinimumSvn then s.pbError 0x0C
    else
      let ext := if bits b 447 384 = 0 then 0 else s.freeWord.toNat % 2 ^ 16
      ({ s.useFree with params := paramsOf b svn ext bs } : State).logEvent { kind := 0x30, data := leBytes 4 svn }

/-! ## The order of host accesses (R352, R359) -/

/-- The bytes of device memory that a host access reads or writes: the first key and the length. -/
def State.hostRun (s : State) : Instr → Nat × Nat
  | .bar2Read off len => (s.aperture off, len)
  | .bar2Write off data => (s.aperture off, data.length)
  | _ => (0, 0)

/-- A host access performed. -/
def State.hostDo (s : State) : Instr → State
  | .bar2Read off len => s.bar2Read off len
  | .bar2Write off data => s.bar2Write off data
  | .registerWrite off val => s.registerWrite off val
  | .queueEnable q prio => s.queueEnable q prio
  | .queueDisable q prio => s.queueDisable q prio
  | .qtailWrite q tail => s.qtailWrite q tail
  | .evtailWrite tail => s.evtailWrite tail
  | .parameterBlockLoad => s.parameterBlockLoad
  | _ => s

/-- A host access with those that wait behind it: performed, or waiting for a row that a stack core holds, where it is noted (R352); 224
stands for the host, which holds no row. -/
def State.hostNext (s : State) (i : Instr) (rest : List Instr) : State :=
  let r := s.hostRun i
  if s.runHeld 224 r.1 r.2 then { s.noteRun 224 r.1 r.2 with hostPending := i :: rest } else ({ s with hostPending := rest } : State).hostDo i

/-- Accesses of the host to BAR0 and BAR2 are performed in arrival order (R359). -/
def hostAccess (i : Instr) (s : State) : Out :=
  .next (if s.hostPending.isEmpty then s.hostNext i [] else { s with hostPending := s.hostPending ++ [i] })

/-- The first host access that waits, once its row is free. -/
def execHostPending (s : State) : Out :=
  match s.hostPending with
  | [] => .next s
  | i :: r => .next (s.hostNext i r)

/-- REGISTER_WRITE (R356, R359). -/
def execRegisterWrite (off : Nat) (val : Word) (s : State) : Out := hostAccess (.registerWrite off val) s

/-- QUEUE_ENABLE (R298, R359). -/
def execQueueEnable (q prio : Nat) (s : State) : Out := hostAccess (.queueEnable q prio) s

/-- QUEUE_DISABLE (R298, R303, R359). -/
def execQueueDisable (q prio : Nat) (s : State) : Out := hostAccess (.queueDisable q prio) s

/-- QTAIL_WRITE (R299, R359). -/
def execQtailWrite (q : Nat) (tail : BitVec 32) (s : State) : Out := hostAccess (.qtailWrite q tail) s

/-- EVTAIL_WRITE (R359, R385). -/
def execEvtailWrite (tail : BitVec 32) (s : State) : Out := hostAccess (.evtailWrite tail) s

/-- PARAMETER_BLOCK_LOAD (R359, R394). -/
def execParameterBlockLoad (s : State) : Out := hostAccess .parameterBlockLoad s

/-- BAR2_READ (R357, R359). -/
def execBar2Read (off len : Nat) (s : State) : Out := hostAccess (.bar2Read off len) s

/-- BAR2_WRITE (R357, R359). -/
def execBar2Write (off : Nat) (data : List Byte) (s : State) : Out := hostAccess (.bar2Write off data) s

/-! ## ATS (R361) -/

/-- ATS_INVALIDATE: the translations of the range go at once; each request is answered when the work that may have used them is done. A
request of no bytes only looks whether one of those that wait can be answered. -/
def execAtsInvalidate (pasid addr len : Nat) (s : State) : Out :=
  let answer (t : State) : State := { t with hostOut := t.hostOut ++ [.invalidateCompletion pasid addr] }
  let ready (w : Nat × Nat × List Nat) : Bool := w.1 == pasid && w.2.1 == addr && !s.work.any fun x => w.2.2.contains x.id
  if len = 0 then match s.atsWaits.find? ready with
    | some w => .next (answer { s with atsWaits := s.atsWaits.erase w })
    | none => .next s
  else
    let mine (c : Nat) : Bool := if h : c < 64 then s.ctxPasid[c].toNat % 2 ^ 20 == pasid else false
    let ids := (s.work.filter fun w => mine w.ctx).map (·.id)
    let t : State := { s with ats := s.ats.filter fun q => !(q.1 == pasid && q.2.1 < addr + len && addr < q.2.1 + 2 ^ q.2.2.1) }
    .next (if ids.isEmpty then answer t else { t with atsWaits := t.atsWaits ++ [(pasid, addr, ids)] })

/-- TRANSLATION_COMPLETION: a translation, or none; at most 4,096 are kept, the oldest going first. -/
def execTranslationCompletion (pasid addr : Nat) (result : Option Translated) (s : State) : Out :=
  let rest := s.ats.filter fun q => !(q.1 == pasid && q.2.1 == addr)
  match result with
  | none => .next { s with ats := rest }
  | some r => .next { s with ats := rest.drop (rest.length - 4095) ++ [(pasid, addr, r.size, r.addr)] }

/-! ## DOE discovery (R355) -/

/-- DOE_DISCOVERY: the three protocols of the mailbox in turn; the layout of the answer is the PCI Express one. -/
def execDoeDiscovery (index : Nat) (s : State) : Out :=
  let bs : List Byte := if index < 3 then [0x01, 0x00, BitVec.ofNat 8 index, BitVec.ofNat 8 ((index + 1) % 3)] else [0xFF, 0xFF, 0, 0]
  .next { s with hostOut := s.hostOut ++ [.doe bs] }

end Sys2Proof.Machine
end

