-- ==== Sys2Proof/Machine/Interlock.lean ====
section
/-! DEFINITION. The interlocks between the two streams of a group (R17): what each instruction reads and writes, and whether
the next scalar instruction must wait for a pending clause or a pending long-latency write. -/

namespace Sys2Proof.Machine

/-- Registers by number: 0-63 s, 64-71 p, 80-95 b; and whether one of R17's control registers is accessed. -/
structure Uses where
  reads : List Nat := []
  writes : List Nat := []
  control : Bool := false
  deriving DecidableEq, Repr

/-- The control registers of R17: FPCTL, FPSTAT, NFFLAG, LSCALE, RSTHR and TMASK. -/
def controlCr (cr : Nat) : Bool := [0x00E, 0x012, 0x013, 0x014, 0x015, 0x016].contains cr

/-- What a scalar instruction reads and writes (R93-R111, R69). -/
def scalarUses : Instr → Uses
  | .add d a b _ | .sub d a b _ | .mul d a b _ | .mulh d a b _ | .mulhn d a b _ | .div d a b _ | .divn d a b _
  | .rem d a b _ | .remn d a b _ | .and d a b _ | .or d a b _ | .xor d a b _ | .andn d a b _ | .shl d a b _
  | .shr d a b _ | .sar d a b _ | .min d a b _ | .max d a b _ | .minn d a b _ | .maxn d a b _ | .slt d a b _
  | .sltn d a b _ | .seq d a b _ => { reads := [a.val, b.val], writes := [d.val] }
  | .clz d a _ | .ctz d a _ | .popc d a _ => { reads := [a.val], writes := [d.val] }
  | .addi d a _ | .andi d a _ | .ori d a _ | .xori d a _ | .shli d a _ | .shri d a _ | .sari d a _ | .slti d a _ =>
    { reads := [a.val], writes := [d.val] }
  | .li d _ | .lpc d _ => { writes := [d.val] }
  | .lis d _ => { reads := [d.val], writes := [d.val] }
  | .beq a b _ | .bne a b _ | .blt a b _ | .bge a b _ | .bltn a b _ | .bgen a b _ => { reads := [a.val, b.val] }
  | .call _ => { writes := [63] }
  | .ret => { reads := [63] }
  | .jr a | .lqr a | .sleep a => { reads := [a.val] }
  | .sld d n a _ | .sldw d n a _ => { reads := [a.val, recReg n.val], writes := [d.val] }
  | .sst d n a _ | .sstw d n a _ => { reads := [a.val, d.val, recReg n.val] }
  | .slds d _ a _ => { reads := [a.val], writes := [d.val] }
  | .ssts d _ a _ => { reads := [a.val, d.val] }
  | .bld n a _ => { reads := [a.val], writes := [recReg n.val] }
  | .badj n a _ => { reads := [a.val, recReg n.val], writes := [recReg n.val] }
  | .bany p _ | .ball p _ | .bnone p _ => { reads := [predReg p.val] }
  | .mvp d p => { reads := [predReg p.val], writes := [d.val] }
  | .mvps p a => { reads := [a.val], writes := [predReg p.val] }
  | .mxshape a b c => { reads := [a.val, b.val, c.val] }
  | .mxldw a b c _ | .mxmul a b c _ | .mxdrain a b c _ | .tmov a b c _ | .home a b c _ | .nmrun a b c _ =>
    { reads := [a.val, b.val, c.val] }
  | .tmova a b c _ | .rbulk a b c _ | .qtile a b c _ => { reads := [a.val, b.val, 2 * c.val, 2 * c.val + 1] }
  | .waita a b c => { reads := [b.val, 2 * c.val, 2 * c.val + 1], writes := [a.val] }
  | .mxzero c | .bar c | .fence c => { reads := [c.val] }
  | .mxstat a | .bseal a => { writes := [a.val] }
  | .bwait b | .wmflush b _ | .wmclose b _ | .wmreset b _ | .qdone b => { reads := [b.val] }
  | .seal a b _ | .unseal a b _ | .arrset a b _ => { reads := [a.val, b.val] }
  | .arrwait a b c | .wmrd a b c | .wmscale a b c => { reads := [b.val, c.val], writes := [a.val] }
  | .wmbind b c | .qemit b c => { reads := [b.val, c.val] }
  | .qtake a b => { reads := [b.val], writes := [a.val] }
  | .crd d cr => { writes := [d.val], control := controlCr cr.toNat }
  | .cwr a cr => { reads := [a.val], control := controlCr cr.toNat }
  | _ => {}

/-- The s-, p- and b-registers that a lane instruction reads and writes. A predicate destination keeps the bits of inactive
threads, so it is read as well (R120). -/
def laneUses (op : Nat) (w : LaneFields) : Uses :=
  let sRegs (cs : List Nat) := (cs.filter (64 ≤ ·)).map (· - 64)
  let rec_ := (laneRec op w).toList.map recReg
  let use := laneUse op w
  let preds := (if use.a == .pred then [w.a.val] else []) ++ (if use.b == .pred then [w.b.val] else []) ++
    (if use.c == .pred then [w.c.val] else []) ++ (if op == 0x21 then [w.x.val % 8] else []) ++ [w.pg.val]
  let pd := if use.pd == .dst then [predReg w.pd.val] else []
  { reads := sRegs ((laneSources op w).flatMap (·.2)) ++ preds.map predReg ++ pd ++ rec_
    writes := sRegs (laneDests op w) ++ pd }

/-- What the instructions of an entry that have not issued use; none where the header or a word cannot be read now. -/
def State.entryUses (s : State) (g : Group) (e : LqEntry) : Option (List Uses) :=
  (s.headerOf g e).bind fun h =>
    (List.range (h.count.val + 1 - e.pos)).mapM fun i =>
      (s.peekLane g (e.idx + 1 + e.pos + i)).map fun w =>
        match decodeLane w with
        | .ok j => (match laneOf j with | some (op, f) => laneUses op f | none => {})
        | .error _ => {}

/-- s0 and p0 are constants and bind nothing (R10). -/
def overlaps (xs ys : List Nat) : Bool := xs.any fun x => x != 0 && x != 64 && ys.contains x

/-- Two sets of uses in program order that must not be exchanged. -/
def Uses.clash (i p : Uses) : Bool := overlaps i.writes p.reads || overlaps i.reads p.writes || overlaps i.writes p.writes

/-- s-registers that a pending uniform memory instruction writes when it completes (R120). -/
def State.pendingS (s : State) (g : Group) : List Nat :=
  s.work.flatMap fun w =>
    if w.group != g.key then []
    else match w.kind with
      | .laneMem op f _ _ _ => ((laneDests op f).filter (64 ≤ ·)).map (· - 64)
      | .burst op f _ _ _ _ => ((laneDests op f).filter (64 ≤ ·)).map (· - 64)
      | .hostAtomic f _ _ _ _ => ((laneDests 0xC4 f).filter (64 ≤ ·)).map (· - 64)
      | _ => []

/-- The scalar instruction must wait (R17). -/
def State.interlocked (s : State) (g : Group) (i : Instr) : Bool :=
  let u := scalarUses i
  (u.control && !g.lq.isEmpty) || overlaps (u.reads ++ u.writes) (s.pendingS g) ||
  ((!u.reads.isEmpty || !u.writes.isEmpty) && g.lq.any fun e =>
    match s.entryUses g e with
    | none => true
    | some ps => ps.any u.clash)

end Sys2Proof.Machine
end

