-- ==== Sys2Proof/Machine/Issue.lean ====
section
/-! DEFINITION. Issue: when a group's streams may go on, what they fetch, and the start of a clause (R71-R73, R90-R92, R105,
R248-R250). -/

namespace Sys2Proof.Machine

/-- The wait of the current instruction lets it issue (again) now (R250). -/
def State.waitOpen (s : State) (g : Group) : Bool :=
  match g.wait with
  | .exit | .engine _ => false
  | .sleep till => till ≤ s.cycle g
  | .waita _ _ _ _ due => due
  | .bar _ released => released
  | _ => true

/-- The scalar word at SPC (R92): outside .scode it is PROT, with access 3. -/
def State.scalarWord (s : State) (g : Group) : Except Halt (State × Nat) :=
  let t := s.setCur g
  if s.inScode g g.spc.toNat then t.fetch g.spc.toNat 4 else failAddr causeProt 0xFF g.spc 3

/-- The next scalar instruction of a group issues; ex is the meaning of instructions. One that has faulted stops once the lane queue
has drained (R254), and so does a trap's entry that has failed (R92). -/
def issueScalar (ex : Instr → State → Out) (key : Nat) (s : State) : Out :=
  let s := s.focus key
  match s.cur.wait with
  | .drain (some f) => .next (s.scalarFault f)
  | .trapDrain code => .next (s.badTrap code)
  | _ =>
    match s.scalarWord s.cur with
    | .error h => .next (s.scalarHalt h)
    | .ok (t, w) =>
      match decodeScalar w with
      | .error slot => .next (t.scalarFault { cause := causeIllegal, slot := slot })
      | .ok i => ex i t

/-- The scalar turn of a group. While the lane stream has stopped the group, the current instruction may still complete or be
accepted; one that would fault or stop instead has no effect (R254, R255). -/
def runScalar (ex : Instr → State → Out) (key : Nat) (s : State) : Out :=
  match issueScalar ex key s with
  | .next t =>
    if (s.focus key).cur.stop == .running then .next t
    else match t.cur.wait with
      | .drain _ => .next ((s.focus key).waiting .none)
      | _ => .next t
  | o => o

/-- The group's scalar stream may issue (R17, R249): no interlock holds the instruction, no user trap is to be taken first (R114), and
where the instruction has issued already and waits, issuing it again would change something (R250). -/
def State.scalarReady (ex : Instr → State → Out) (s : State) (g : Group) : Bool :=
  s.scalarRuns g && !s.trapTakeable g && s.waitOpen g &&
  (match g.wait with
    | .drain _ | .trapDrain _ => g.lq.isEmpty
    | _ => match s.scalarWord g with
      | .ok (_, w) => (match decodeScalar w with | .ok i => !s.interlocked g i | .error _ => true)
      | .error _ => true) &&
  (g.wait == .none || (match runScalar ex g.key s with | .next t => t != s.focus g.key | _ => true))

/-- The wait flags of a header are clear (R72). -/
def Group.flagsFree (g : Group) (h : ClauseHeader) : Bool := (List.finRange 12).all fun i => !h.wait.getLsbD i.val || g.f[i] == 0

/-- The group's lane stream may go on (R72, R248): the header of the clause at the head is still to be fetched, the clause has
started, or the flags that it waits for are clear. -/
def State.laneReady (s : State) (g : Group) : Bool :=
  s.residentRuns g &&
  match g.lq with
  | [] => false
  | e :: _ => match e.hdr with
    | none => true
    | some h => e.started || g.flagsFree h

/-! ## The order of the groups of a lane (R248) -/

def Place.sameLane (p q : Place) : Bool := p.coreIx == q.coreIx && p.plane == q.plane

/-- The slot that issued last on a lane; slot 3 before the first issue, so that slot 0 comes first (log 37, DESIGN CHOICE). -/
def State.lastSlot (s : State) (p : Place) : Nat :=
  ((s.laneSlots.find? fun e => e.1 == p.coreIx && e.2.1 == p.plane).map (·.2.2)).getD 3

/-- The ready groups of a lane in slot order from the one after the slot that issued last. -/
def State.laneOrder (s : State) (p : Place) : List Group :=
  (List.range 4).filterMap fun i =>
    s.groups.find? fun g => g.live && g.place.sameLane p && g.place.slot == (s.lastSlot p + 1 + i) % 4 && s.laneReady g

/-- The group's lane issues its instruction next: it is the first of the lane's ready groups, passing once over one whose clause
asked for it while another is ready. -/
def State.laneIsNext (s : State) (g : Group) : Bool :=
  match s.laneOrder g.place with
  | [] => false
  | [a] => a.key == g.key
  | a :: b :: _ => (if a.yielded then b.key else a.key) == g.key

/-- The lane has passed its boundary: the group's slot issued last, and no group of the lane is passed over any more. -/
def State.noteLane (s : State) (g : Group) : State :=
  let clear (h : Group) : Group :=
    if h.live && h.place.sameLane g.place then { h with yielded := false, laneLast := h.key == g.key || h.laneLast } else h
  { s with
    cur := clear s.cur, others := s.others.map clear
    laneSlots := (g.place.coreIx, g.place.plane, g.place.slot) ::
      s.laneSlots.filter fun e => !(e.1 == g.place.coreIx && e.2.1 == g.place.plane) }

/-- The group's scalar stream has issued. -/
def State.noteScalar (s : State) (key : Nat) : State := s.updGroup key fun g => { g with laneLast := false }

/-- A fetch of the lane stream that halts: a missing page keeps the replay mask (R12, R262). -/
def State.laneFetchHalt (s : State) : Halt → State
  | .miss asks f => s.laneHalt (.miss asks { f with tmask := s.cur.replay })
  | h => s.laneHalt h

/-- The next lane instruction of a group's clause issues, or its clause goes on to start. -/
def issueLane (ex : Instr → State → Out) (key : Nat) (s : State) : Out :=
  let s := s.focus key
  match s.cur.lq with
  | [] => .next s
  | e :: _ =>
    if !e.started then ex (.clauseStart key) s
    else
      match s.fetch (s.laneWordAt s.cur (e.idx + 1 + e.pos)) 12 with
      | .error h => .next (s.laneFetchHalt h)
      | .ok (t, w) =>
        match decodeLane w with
        | .error slot => .next (t.laneFault { cause := causeIllegal, slot := slot } t.cur.clpos)
        | .ok i => ex i t

/-- The lane turn of a group: its instruction, in the lane's order, or its clause's start. -/
def runLane (ex : Instr → State → Out) (g : Group) (s : State) : Out :=
  match g.lq with
  | [] => .next s
  | e :: _ =>
    if !e.started then issueLane ex g.key s
    else if s.laneIsNext g then issueLane ex g.key (s.noteLane g) else .next s

/-- The group's clause starts: its flags are clear, where its header is there. -/
def State.startClause (s : State) : State :=
  match s.cur.lq with
  | [] => s
  | e :: r => match e.hdr with
    | none => s
    | some h => if s.cur.flagsFree h then s.setCur { s.cur with lq := { e with started := true } :: r } else s

/-- CLAUSE_START (R72, R105): the header of the clause at the head of the queue is fetched and kept; a malformed one is ILLEGAL and one
that leaves .lcode is CLAUSE, both at position 0 and slot 13. An entry with an uncorrectable error is CHECK there, as a fetch that meets
poison is (R375, R378; log 62). The clause issues from when its wait flags are clear. -/
def execClauseStart (key : Nat) (s : State) : Out :=
  onGroup key (fun s =>
    let g := s.cur
    match g.lq with
    | [] => s
    | e :: r =>
      if e.started || g.stop != .running then s
      else if e.bad then s.laneHalt (.poison (queueKey g.key) 8 (poisonFault 0xFF 0))
      else if e.hdr.isSome then s.startClause
      else if !s.inLcode g e.idx 1 then s.laneFault { cause := causeClause, slot := 13 } 0
      else match s.fetch (s.laneWordAt g e.idx) 12 with
        | .error h => s.laneFetchHalt h
        | .ok (t, w) =>
          match decodeHeader w with
          | none => t.laneFault { cause := causeIllegal, slot := 13 } 0
          | some h =>
            if !s.inLcode g e.idx (h.count.val + 2) then t.laneFault { cause := causeClause, slot := 13 } 0
            else (t.setCur { t.cur with lq := { e with hdr := some h } :: r }).startClause) s

end Sys2Proof.Machine
end

