-- ==== Sys2Proof/Machine/LaneCross.lean ====
section
/-! DEFINITION. Cross-thread and predicate instructions: opcodes 0xA0 to 0xA7 (R151-R156). -/

namespace Sys2Proof.Machine

/-- A cross-thread instruction: f sees the a values that every thread held before (R118). -/
def laneCross (op : Nat) (f : Group → Word32 → (Fin 32 → Word32) → Fin 32 → Word32) (w : LaneFields) : State → Out :=
  lane op w fun s act =>
    let g := s.cur
    .ok (s.setCur (g.writeDst w.d act false (f g act fun t => g.rv w.a t)))

/-! ## XPERM (R151) -/

/-- The source thread, as an integer that may lie outside the segment. -/
def xpermSource (x : Nat) (k : Nat) (t : Nat) : Int :=
  let w := 32 / 2 ^ bits x 4 2; let base := t - t % w; let r := t % w
  match x % 4 with
  | 0 => ((base + k % 32 % w : Nat) : Int)
  | 1 => (t : Int) + signed 6 k
  | 2 => (base : Int) + ((r : Int) + signed 6 k) % (w : Int)
  | _ => ((base + (r ^^^ (k % 32 % w)) : Nat) : Int)

/-- One thread's value: the source's a, or its own fill c. -/
def xpermValue (g : Group) (w : LaneFields) (act : Word32) (t : Fin 32) : Word32 :=
  let width := 32 / 2 ^ bits w.x.val 4 2; let base := t.val - t.val % width
  let src := xpermSource w.x.val (srcB g w t).toNat t.val
  if src < base || base + width ≤ src || !act.getLsbD src.toNat then g.rv w.c t else g.rv w.a (Fin.ofNat 32 src.toNat)

/-- XPERM (R151). -/
def execXperm (w : LaneFields) (s : State) : Out := laneCross 0xA0 (fun g act _ t => xpermValue g w act t) w s

/-! ## Masks and tests (R152) -/

/-- GMASK (R152). -/
def execGmask (w : LaneFields) (s : State) : Out :=
  laneCross 0xA1 (fun _ act a _ =>
    maskOf fun t => act.getLsbD t.val && (if w.x.val = 0 then a t != 0 else (a t).getLsbD 31)) w s

/-- The test of GTEST on the active values. -/
def testValues (x : Nat) (vs : List Word32) : Bool :=
  match x with
  | 0 => vs.any (· != 0)
  | 1 => vs.all (· != 0)
  | 2 => vs.all fun v => v == vs.headD 0
  | _ => (vs.filter (· != 0)).length == 1

/-- GTEST (R152). -/
def execGtest (w : LaneFields) (s : State) : Out :=
  lane 0xA2 w (fun s act =>
    let g := s.cur; let r := testValues w.x.val ((threads act).map fun t => g.rv w.a t)
    .ok (s.setCur (g.writePred w.pd act fun _ => r))) s

/-- GPEER (R152). -/
def execGpeer (w : LaneFields) (s : State) : Out :=
  laneCross 0xA7 (fun _ act a t =>
    let same := maskOf fun u => act.getLsbD u.val && a u == a t
    match w.x.val with
    | 0 => same
    | 1 => if same = act then act else 0
    | _ => BitVec.ofNat 32 (threads same).length) w s

/-! ## FOLD and SCAN (R153, R154) -/

/-- An integer reduction step. -/
def reduceInt (x : Nat) (p q : Int) : Int :=
  let bit2 (f : Word32 → Word32 → Word32) : Int := ((f (BitVec.ofInt 32 p) (BitVec.ofInt 32 q)).toNat : Int)
  match x with
  | 0 => p + q
  | 1 => min p q
  | 2 => max p q
  | 3 => bit2 (· &&& ·)
  | 4 => bit2 (· ||| ·)
  | _ => bit2 (· ^^^ ·)

/-- The exact prefixes of an integer reduction. -/
def prefixesInt (x : Nat) : Option Int → List Int → List Int
  | _, [] => []
  | none, v :: r => v :: prefixesInt x (some v) r
  | some a, v :: r => reduceInt x a v :: prefixesInt x (some (reduceInt x a v)) r

/-- One value alone, as the operation's result on it (R153). -/
def singleF (x rm : Nat) (daz ftz : Bool) (v : Nat) : Nat × Flags5 :=
  roundF f32 rm (ftz && x == 0) (exactOf (decodeF f32 daz v))

/-- A float reduction step on the first element or an accumulated value, and the next element; only the elements are read under DAZ
(log 30). -/
def reduceF (x rm : Nat) (daz ftz first : Bool) (acc v : Nat) : Nat × Flags5 :=
  if x = 0 then roundF f32 rm ftz (addX rm (decodeF f32 (daz && first) acc) (decodeF f32 daz v))
  else selectF f32 daz (x == 2) acc v

/-- The steps of a float reduction after its first element, with their conditions. -/
def stepsF (x rm : Nat) (daz ftz first : Bool) : Nat → List Nat → List (Nat × Flags5)
  | _, [] => []
  | a, v :: r => let y := reduceF x rm daz ftz first a v; y :: stepsF x rm daz ftz false y.1 r

/-- The prefixes of a float reduction: the first value alone, then the sums or selections that begin with it as it was read. -/
def prefixesF (x rm : Nat) (daz ftz : Bool) : List Nat → List (Nat × Flags5)
  | [] => []
  | v :: r => singleF x rm daz ftz v :: stepsF x rm daz ftz true v r

/-- The prefixes over the active threads of either kind, as written. -/
def prefixes (w : LaneFields) (g : Group) (vs : List Word32) : List (Nat × Flags5) :=
  let x := w.x.val % 8; let ty := w.ty.val
  if ty = 0x10 then prefixesF x (g.mode w.rm.val) g.daz g.ftz (vs.map (·.toNat))
  else (prefixesInt x none (vs.map fun v => elem ty v 0)).map fun p =>
    (narrow (w.rm.val == 1 && x == 0) (signedTy ty) 32 p, 0)

/-- The identity of the exclusive form (R154). -/
def identityOf (x ty : Nat) : Nat :=
  match x with
  | 1 => if ty = 0x10 then f32.inf else if ty = 1 then 0x7FFFFFFF else 0xFFFFFFFF
  | 2 => if ty = 0x10 then 0xFF800000 else if ty = 1 then 0x80000000 else 0
  | 3 => 0xFFFFFFFF
  | _ => 0

/-- FOLD (R153): a value alone is an operation only where no other follows. -/
def execFold (w : LaneFields) (s : State) : Out :=
  lane 0xA3 w (fun s act =>
    let g := s.cur
    let ps := prefixes w g ((threads act).map fun t => g.rv w.a t)
    let r := (ps.getLast?.getD (0, 0)).1
    let fl := (if ps.length = 1 then ps else ps.drop 1).foldl (fun a p => a ||| p.2) 0
    let nf := if w.ty.val = 0x10 then nfOf f32 r else 0
    .ok (s.setCur ((g.raiseStatus fl nf).writeDst w.d act (w.ty.val == 1) fun _ => BitVec.ofNat 32 r))) s

/-- SCAN (R154). -/
def execScan (w : LaneFields) (s : State) : Out :=
  lane 0xA4 w (fun s act =>
    let g := s.cur; let ts := threads act; let vs := ts.map fun t => g.rv w.a t
    let excl := bit w.x.val 3
    let ps := prefixes w g (if excl then vs.dropLast else vs)
    let ps := if excl then (identityOf (w.x.val % 8) w.ty.val, 0) :: ps else ps
    let fl := ps.foldl (fun a p => a ||| p.2) 0
    let nf := if w.ty.val = 0x10 then ps.foldl (fun a p => a ||| nfOf f32 p.1) 0 else 0
    let at_ (t : Fin 32) : Word32 := BitVec.ofNat 32 ((((ts.zip ps).find? fun q => q.1 == t).map (·.2.1)).getD 0)
    .ok (s.setCur ((g.raiseStatus fl nf).writeDst w.d act (w.ty.val == 1) at_))) s

/-! ## Predicates (R155, R156) -/

/-- PSET (R155). -/
def execPset (w : LaneFields) (s : State) : Out :=
  lane 0xA5 w (fun s act =>
    let g := s.cur; let p (c : Fin 128) := g.rp (Fin.ofNat 8 c.val)
    let m := mux3 w.x.val (p w.a) (p w.b) (p w.c)
    .ok (s.setCur (g.writePred w.pd act fun t => m.getLsbD t.val))) s

/-- PMOV (R156): a predicate into every active thread's d, or a uniform value into all 32 bits of pd. -/
def execPmov (w : LaneFields) (s : State) : Out :=
  lane 0xA6 w (fun s act =>
    let g := s.cur
    .ok (s.setCur (if w.x.val = 1 then g.wp w.pd (g.rv w.a (lowest act))
      else g.writeDst w.d act false fun _ => g.rp (Fin.ofNat 8 w.a.val)))) s

end Sys2Proof.Machine
end

