-- ==== Sys2Proof/Machine/Matrix.lean ====
section
/-! DEFINITION. The matrix arrays: major 0x7, and the completions of its work (R51-R54, R187, R190-R205). -/

namespace Sys2Proof.Machine

/-! ## Arrays and their streams (R187, R191, R201) -/

/-- Work of a core's array that stands before an id. -/
def State.arrayWork (s : State) (core before : Nat) : List Work :=
  s.work.filter fun w => w.id < before && w.kind.inStream core

def WorkKind.isSwap : WorkKind → Bool
  | .swap _ _ => true
  | _ => false

/-- A swap of a core's array has been accepted and has not taken effect. -/
def State.swapping (s : State) (core : Nat) : Bool := s.work.any fun w => w.kind.isSwap && w.kind.inStream core

/-- An MXMUL into a bank of a core, or into it as the partner of a paired chain. -/
def WorkKind.mulOn (core : Nat) (bank : Fin 2) : WorkKind → Bool
  | .mxmul c b p _ _ _ _ _ _ _ _ _ _ _ _ _ => b == bank && (c == core || (p && partnerOf c == core))
  | _ => false

def WorkKind.loads (core : Nat) (bank : Fin 2) : WorkKind → Bool
  | .weight c b pb _ _ pair => (c == core && b == bank) || (pair && partnerOf c == core && pb == bank)
  | _ => false

/-- An MXMUL that may read a weight bank of a core. -/
def WorkKind.readsWeights (core : Nat) (bank : Fin 2) : WorkKind → Bool
  | .mxmul c _ p _ _ _ _ _ _ _ _ _ wb _ _ _ => (c == core && wb == bank) || (p && partnerOf c == core)
  | _ => false

/-- The array is slaved to its partner (R201): a paired chain is open there, or a paired load is under way. -/
def State.slaved (s : State) (core : Nat) : Bool :=
  let p := partnerOf core
  (List.finRange 2).any (fun b => let k := (s.core p).a[b]; k.isOpen && k.paired && k.lead == p) ||
  s.work.any fun w => match w.kind with | .weight c _ _ _ _ pair => c == p && pair | _ => false

/-- The partner's array is the team's and its core is not fenced (R201). -/
def State.partnerOwned (s : State) (core : Nat) : Bool :=
  (s.teamOf s.cur).arrays.contains (partnerOf core) && !s.fenced.contains (.core (partnerOf core))

/-- Another group's matrix instruction has entered the array's stream and waits there (R191). -/
def State.streamTaken (s : State) : Bool :=
  s.cur.wait != .matrix && s.groups.any fun g =>
    g.live && g.key != s.cur.key && g.stop == .running && g.wait == .matrix && g.place.coreIx == s.cur.place.coreIx

/-- A matrix instruction (R187, R201, R348): lacking on a stack core; MXPAIR for a group whose team does not own the array;
no issue while the array is slaved or an earlier matrix instruction waits in its stream. -/
def matrix (srcs : Srcs) (body : Nat → State → Res) : State → Out :=
  lacking (fun s => s.cur.place.onStack)
    (scalar srcs fun s =>
      let ix := s.cur.place.coreIx
      if !(s.teamOf s.cur).arrays.contains ix then failAt causeMxpair 0
      else if s.slaved ix || s.streamTaken then stall s .sx
      else body ix s)

def State.updBank (s : State) (core : Nat) (b : Fin 2) (f : Bank → Bank) : State :=
  let c := s.core core; s.setCore { c with a := c.a.set b (f c.a[b]) }

def State.setW (s : State) (core : Nat) (b : Fin 2) (w : WBank) : State :=
  let c := s.core core; s.setCore { c with w := c.w.set b w }

/-- The other weight bank. -/
def other (b : Fin 2) : Fin 2 := 1 - b

/-- The standby bank as the array's stream will have it after the swaps accepted so far. -/
def State.standby (s : State) (core : Nat) : Fin 2 :=
  let swaps := s.work.filter fun w => w.kind.isSwap && w.kind.inStream core
  if swaps.length % 2 = 0 then other (s.core core).act else (s.core core).act

/-- A bank carries the pair link once the loads accepted so far have filled it (R195). -/
def State.linked (s : State) (core : Nat) (b : Fin 2) : Bool :=
  match (s.work.filter fun w => w.kind.loads core b).getLast? with
  | some w => w.kind.paired
  | none => (s.core core).w[b].link

/-- An exchange takes effect, on the partner too where it is linked (R195). -/
def State.swapNow (s : State) (core : Nat) (link : Bool) : State :=
  let c := s.core core
  let s := s.setCore { c with act := other c.act }
  if link then let d := s.core (partnerOf core); s.setCore { d with act := other d.act } else s

/-- Every MXSWAP that stands first in its array's stream takes effect (R191, R195); n bounds their number. -/
def State.settleArray (n : Nat) (core : Nat) (s : State) : State :=
  match n with
  | 0 => s
  | k + 1 =>
    match s.work.find? fun w => w.kind.isSwap && w.kind.arrayOf == some core with
    | none => s
    | some x =>
      if !(s.arrayWork core x.id).isEmpty || (x.kind.paired && !(s.arrayWork (partnerOf core) x.id).isEmpty) then s
      else State.settleArray k core ((s.swapNow core x.kind.paired).finishWork x)

/-- The swaps of a pair's two streams take effect until none can: one of them may stand behind a linked one of the other's (R195). -/
def State.settlePair (n : Nat) (core : Nat) (s : State) : State :=
  match n with
  | 0 => s
  | k + 1 =>
    let t := (s.settleArray s.work.length core).settleArray s.work.length (partnerOf core)
    if t.work.length = s.work.length then t else State.settlePair k core t

def State.settleBoth (s : State) (core : Nat) : State := s.settlePair s.work.length core

/-! ## MXSHAPE, MXLDW, MXSWAP, MXZERO -/

/-- MXSHAPE (R193). -/
def execMxshape (a b c : Fin 64) (s : State) : Out :=
  matrix [(10, a), (11, b), (12, c)] (fun _ s => do
    ensure ((s.rs a).toNat < 8) (named causeMxfmt 10)
    .ok (s.setCur (s.cur.setK (Fin.ofNat 8 (s.rs a).toNat) (s.rs c ++ s.rs b)))) s

/-- MXLDW (R194). -/
def execMxldw (a b c : Fin 64) (fl : Fin 13) (s : State) : Out :=
  matrix [(10, a), (11, b), (12, c)] (fun ix s => do
    let d := (s.rs b).toNat; let first := bits d 15 0; let count := bits d 31 16; let pair := bit d 32
    ensure (bits d 63 33 == 0) (named causeMxfmt 11)
    let (s, t, h, p) ← s.readHead (s.rs a) 10
    let rows := if count = 0 then h.rows - first else count
    ensure (rows != 0 && first + rows ≤ h.rows && rows * h.pitch ≤ 2 ^ 19) (named causeMxfmt 11)
    ensure ((s.rs c).toNat % 8 == 0) (namedAt causeMxfmt 12 (s.rs c))
    let tc ← taggedOf .read (s.rs c) 12
    let (s, v, q) ← s.readScales 12 tc 0 fun o => if o then blocks32 h.cols else blocks32 rows
    ensure (!pair || s.partnerOwned ix) (named causeMxpair 11)
    let (s, runs) ← s.sides [{ acc := .read, slot := 10, tag := t, pieces := [(h.off + first * h.pitch, rows * h.pitch)] }]
    let new : WBank := { loaded := true, fmt := h.fmt, z := h.z, rows := rows, cols := h.cols, pitch := h.pitch, scales := v.vals, orient := v.orient, link := pair, poison := p || q }
    s.acceptWork fl (.weight ix (s.standby ix) (s.standby (partnerOf ix)) new (runs.flatten.flatten.map fun r => (r.2.1, r.2.2)) pair)) s

/-- WEIGHT_LOAD_COMPLETE (R191, R194, R195): the bank holds every row, the follower's too for a paired load, and the swaps
that waited for it take effect. -/
def execWeightLoadComplete (id : Nat) (s : State) : Out :=
  match s.findWork id with
  | none => .next s
  | some x =>
    match x.kind with
    | .weight core bank pbank new src pair =>
      let before (c : Nat) (b : Fin 2) := (s.arrayWork c id).any fun w => w.kind.isSwap || w.kind.readsWeights c b || w.kind.loads c b
      if before core bank || (pair && before (partnerOf core) pbank) then .next s
      else if src.any fun r => s.runHeld core r.1 r.2 then .next (src.foldl (fun t r => t.noteRun core r.1 r.2) s)
      else
        let bad := src.any fun r => s.poisonedAt r.1 r.2
        let w : WBank := { new with
          data := src.flatMap fun r => readCells s.mem r.1 r.2
          poison := new.poison || bad }
        let t := src.foldl (fun t r => t.notePoison r.1 r.2 x.ctx) s
        let t := (t.sramRight (weightKey core bank) (2 ^ 20)).setW core bank w
        let t := if pair then (t.sramRight (weightKey (partnerOf core) pbank) (2 ^ 20)).setW (partnerOf core) pbank w else t
        .next ((t.finishWork x).settleBoth core)
    | _ => .next s

/-- MXSWAP (R195). -/
def execMxswap (fl : Fin 13) (s : State) : Out :=
  matrix [] (fun ix s => do
    let b := s.standby ix
    ensure ((s.core ix).w[b].loaded || s.work.any fun w => w.kind.loads ix b) (named causeMxfmt 0)
    (s.acceptWork fl (.swap ix (s.linked ix b))).map fun t => t.settleBoth ix) s

/-- A bank becomes idle, with the partner's bank of a paired chain. -/
def State.closeBank (s : State) (core : Nat) (b : Fin 2) : State :=
  let paired := (s.core core).a[b].paired
  let s := s.updBank core b fun _ => {}
  if paired then s.updBank (partnerOf core) b fun _ => {} else s

/-- MXZERO (R196): its effect waits for the earlier MXMULs on the bank (R191). -/
def execMxzero (c : Fin 64) (s : State) : Out :=
  matrix [(12, c)] (fun ix s => do
    let d := (s.rs c).toNat; let b : Fin 2 := Fin.ofNat 2 (d % 2); let pair := bit d 1
    ensure (d < 4) (named causeMxfmt 12)
    ensure (!pair || s.partnerOwned ix) (named causeMxpair 12)
    if s.work.any fun w => w.kind.mulOn ix b || (pair && w.kind.mulOn (partnerOf ix) b) then stall s .matrix
    else
      let new : Bank := { isOpen := true, paired := pair, lead := ix }
      let s := (s.closeBank ix b).updBank ix b fun _ => new
      .ok (if pair then s.updBank (partnerOf ix) b fun _ => new else s)) s

/-! ## MXMUL -/

/-- A shape record (R193). -/
structure Shape where
  eoff : Nat
  pair : Bool
  order : Bool
  west : Bool
  k : Nat
  n : Nat
  m : Nat
  deriving DecidableEq, Repr

/-- The record, where it is valid. -/
def parseShape (r : Nat) : Option Shape :=
  let x : Shape := { eoff := bits r 79 64, pair := bit r 50, order := bit r 49, west := bit r 48, k := bits r 47 32, n := bits r 17 8, m := bits r 7 0 }
  if bits r 127 80 != 0 || bits r 63 51 != 0 || bits r 31 18 != 0 || x.m == 0 || 128 < x.m || x.n == 0
      || (if x.pair then 512 else 256) < x.n || x.k == 0 || 4096 < x.k then none
  else some x

/-- Residues of a cell after a product sum is added (R51). -/
def Cell.add (c : Cell) (p : Int) : Cell :=
  let m (x n : Nat) : Nat := ((x + p) % n).toNat
  { c with a := m c.a 65535, b := m c.b 65536, c := m c.c 32767, k := m c.k 251 }

def Bank.cell (b : Bank) (i j : Nat) : Cell :=
  (b.cells.find? fun c => c.row == i && c.col == j).getD { row := i, col := j, a := 0, b := 0, c := 0, k := 0 }

/-- Products added to the cells of m rows and n columns. -/
def Bank.addAll (b : Bank) (m n : Nat) (p : Nat → Nat → Int) : Bank :=
  { b with cells := ((List.range m).flatMap fun i => (List.range n).map fun j => (b.cell i j).add (p i j)) ++
      b.cells.filter fun c => !(c.row < m && c.col < n) }

/-- The sum of a cell, and whether its check residue agrees (R53). -/
def Cell.sum (c : Cell) : Int × Bool :=
  let a := if c.a = 65535 then 0 else c.a
  let cc := if c.c = 32767 then 0 else c.c
  let k1 := (a + 65535 - c.b % 65535) % 65535
  let y := c.b + 65536 * k1
  let k2 := (cc + 32767 - y % 32767) % 32767 * 16384 % 32767
  let x : Int := (y + 4294901760 * k2 : Nat)
  let x := if 70365522984960 ≤ x then x - 140731045969920 else x
  (x, x % 251 == (c.k : Int))

/-- A bank of a chain, or its partner's bank of a paired one, is poisoned (R201, R377). -/
def State.chainPoison (s : State) (core : Nat) (b : Fin 2) : Bool :=
  let k := (s.core core).a[b]; k.poison || (k.paired && (s.core (partnerOf core)).a[b].poison)

/-- The first mismatching cell of a chain's banks: array, row, column. Row-major order over the two banks of a paired chain takes a row of
the leader's array, then the same row of the partner's (log 57, DESIGN CHOICE: the manual does not say how the two banks follow each
other). -/
def State.mismatch (s : State) (core : Nat) (b : Fin 2) : Option (Nat × Nat × Nat) :=
  let k := (s.core core).a[b]
  let bad (arr : Nat) (x : Bank) := x.cells.filterMap fun c => if c.sum.2 then none else some (arr, c.row, c.col)
  let all := bad 0 k ++ (if k.paired then bad 1 (s.core (partnerOf core)).a[b] else [])
  let before (p q : Nat × Nat × Nat) : Bool :=
    decide (p.2.1 < q.2.1) || (p.2.1 == q.2.1 && (decide (p.1 < q.1) || (p.1 == q.1 && decide (p.2.2 ≤ q.2.2))))
  all.foldl (fun m x => match m with | none => some x | some y => some (if before y x then y else x)) none

/-- CHECK of a bank (R53, R259, R377). -/
def bankCheck (b : Fin 2) (at_ : Option (Nat × Nat × Nat)) : FaultInfo :=
  let (arr, row, col) := at_.getD (0, 0, 0)
  { cause := causeCheck, hw := true, detail := BitVec.ofNat 64 (b.val + arr * 2 + row * 2 ^ 8 + col * 2 ^ 16) }

/-- The group stops with a CHECK of the matrix residues, which counts towards the core's fence (R379, R386). -/
def State.matrixCheck (s : State) (core : Nat) (f : FaultInfo) : Res :=
  let s := if s.cur.lq.isEmpty then
      ({ s with errors := s.errors ++ [(UnitRef.core core, 3, s.ns)] } : State).count (coreDie core) fun h => { h with matrix := h.matrix + 1 }
    else s
  .error (.hold (s.scalarFault f))

/-- The resident operand's parts of an MXMUL (R201): core, weight bank, first edge index, edge count. -/
def residentParts (s : State) (ix : Nat) (h : Shape) : List (Nat × WBank × Nat × Nat) :=
  let w (c : Nat) := (s.core c).w[(s.core c).act]
  if h.west then [(ix, w ix, h.eoff, h.m)]
  else (ix, w ix, h.eoff, min h.n 256) ::
    (if h.pair && 256 < h.n then [(partnerOf ix, w (partnerOf ix), h.eoff + 256, h.n - 256)] else [])

/-- MXMUL (R197-R200): the checks in their order, then the chain latches its shape and scales and counts its steps. A paired MXMUL asks
the pair link of the partner's active bank too, on either edge (log 58, DESIGN CHOICE). -/
def execMxmul (a b c : Fin 64) (fl : Fin 13) (s : State) : Out :=
  matrix [(10, a), (11, b), (12, c)] (fun ix s => do
    let db := (s.rs b).toNat; let dc := (s.rs c).toNat; let bank : Fin 2 := Fin.ofNat 2 (bits db 3 3)
    let koff := bits db 31 16; let skoff := bits dc 31 16; let seoff := bits dc 47 32
    let chain := (s.core ix).a[bank]
    match s.cur.poisonedOther [(11, shapeReg (bits db 2 0))] with
    | some (slot, o) => .error (.hold ((s.noteReg 0xFFFFFFFF (shapeReg (bits db 2 0) + 64)).scalarFault (poisonFault slot o)))
    | none =>
    if chain.isOpen && s.chainPoison ix bank then s.matrixCheck ix (bankCheck bank (s.mismatch ix bank))
    else match (if bits db 63 32 != 0 || bits db 15 4 != 0 || bits dc 63 48 != 0 || bits dc 15 8 != 0 then none
                else parseShape (s.cur.k[Fin.ofNat 8 (bits db 2 0)]).toNat) with
    | none => failAt causeMxfmt 11
    | some h =>
      ensure chain.isOpen (named causeMxfmt 11)
      ensure (h.pair == chain.paired && (!chain.paired || (chain.lead == ix && s.partnerOwned ix))) (named causeMxpair 11)
      let act := (s.core ix).act; let pact := (s.core (partnerOf ix)).act
      if s.swapping ix || (h.pair && s.swapping (partnerOf ix)) ||
          s.work.any fun w => w.kind.loads ix act || (h.pair && w.kind.loads (partnerOf ix) pact) then
        stall s .matrix
      else do
        let res := (s.core ix).w[act]
        ensure res.loaded (named causeMxfmt 11)
        ensure (!h.pair || (res.link && (s.core (partnerOf ix)).w[pact].link)) (named causeMxpair 11)
        ensure (match chain.latch with | some l => l.m == h.m && l.n == h.n | none => true) (named causeMxfmt 11)
        let (s, t, hd, p) ← s.readHead (s.rs a) 10
        ensure (hd.fmt == bits dc 7 0 && !hd.z) (namedAt causeMxfmt 10 (s.rs a))
        let (s, sv, q) ← s.readScales 10 t 64 fun o => if o then blocks32 hd.cols else blocks32 hd.rows
        let parts := residentParts s ix h
        ensure (parts.all fun (_, w, e, n) =>
          koff + h.k ≤ (if h.order then w.cols else w.rows) && e + n ≤ (if h.order then w.rows else w.cols)) (named causeMxscale 11)
        let sedge := if h.west then h.n else h.m
        ensure (skoff + h.k ≤ (if h.west then hd.rows else hd.cols)) (namedAt causeMxscale 10 (s.rs a))
        ensure (seoff + sedge ≤ (if h.west then hd.cols else hd.rows)) (namedAt causeMxfmt 10 (s.rs a))
        let vec (w : WBank) : ScaleVec := { orient := w.orient, vals := w.scales }
        ensure (parts.all fun (_, w, _, _) => (vec w).constAlong !h.order) (named causeMxscale 11)
        ensure (sv.constAlong h.west) (namedAt causeMxscale 10 (s.rs a))
        ensure (chain.steps + h.k ≤ 2 ^ 24) (named causeMxfmt 11)
        let rsc := parts.flatMap fun (_, w, e, n) => (List.range n).map fun i => (vec w).at (!h.order) (e + i)
        let ssc := (List.range sedge).map fun i => sv.at h.west (seoff + i)
        let sr := if h.west then rsc else ssc; let sc := if h.west then ssc else rsc
        ensure (match chain.latch with | some l => l.rows == sr | none => true) (named causeMxscale (if h.west then 11 else 10))
        ensure (match chain.latch with | some l => l.cols == sc | none => true) (named causeMxscale (if h.west then 10 else 11))
        let (r0, nr) := if h.west then (skoff, h.k) else (seoff, h.m)
        let (s, runs) ← s.sides [{ acc := .read, slot := 10, tag := t, pieces := [(hd.off + r0 * hd.pitch, nr * hd.pitch)] }]
        let s ← s.acceptWork fl (.mxmul ix bank h.pair h.m h.n h.k h.eoff koff seoff skoff h.west h.order act hd.fmt hd.pitch
          (runs.flatten.flatten.map fun r => (r.2.1, r.2.2)))
        let upd (x : Bank) : Bank :=
          { x with latch := some { m := h.m, n := h.n, rows := sr, cols := sc }, steps := x.steps + h.k, poison := x.poison || p || q }
        let s := s.updBank ix bank upd
        .ok (if h.pair then s.updBank (partnerOf ix) bank upd else s)) s

/-- MXMUL_COMPLETE (R199): every product enters its cell; a step count that crosses a multiple of 2^23 makes the bank's check
due (R377); the swaps that waited take effect. -/
def execMxmulComplete (id : Nat) (s : State) : Out :=
  match s.findWork id with
  | none => .next s
  | some x =>
    match x.kind with
    | .mxmul core bank pair m n k eoff koff seoff skoff west order wb fmt pitch rows =>
      if s.work.any fun w => w.id < id && w.kind.mulOn core bank then .next s
      else if rows.any fun r => s.runHeld core r.1 r.2 then .next (rows.foldl (fun t r => t.noteRun core r.1 r.2) s)
      else
        let data := rows.flatMap fun r => readCells s.mem r.1 r.2
        let nr := if west then k else m
        let cols := if west then seoff + n else skoff + k
        let str := (splitRows pitch nr data).map (rowOperands fmt false cols)
        let resRows (c : Nat) : List (List Int) :=
          let w := (s.core c).w[if c == core then wb else (s.core c).act]
          (splitRows w.pitch w.rows w.data).map (rowOperands w.fmt w.z w.cols)
        let resident (rs : List (List Int)) (e st : Nat) : Int :=
          if order then elemAt rs (eoff + e) (koff + st) else elemAt rs (koff + st) (eoff + e)
        let lead := resRows core; let foll := if pair && !west then resRows (partnerOf core) else lead
        let product (rs : List (List Int)) (i j st : Nat) : Int :=
          if west then resident rs i st * elemAt str st (seoff + j) else elemAt str i (skoff + st) * resident rs j st
        let total (rs : List (List Int)) (i j : Nat) : Int := (List.range k).foldl (fun (z : Int) st => z + product rs i j st) 0
        let weak (c : Nat) (b : Fin 2) := (s.core c).w[b].poison
        let bad := rows.any (fun r => s.poisonedAt r.1 r.2) || weak core wb ||
          (pair && !west && weak (partnerOf core) (s.core (partnerOf core)).act)
        let later := s.work.foldl (fun z w => match w.kind with
          | .mxmul c b _ _ _ k' _ _ _ _ _ _ _ _ _ _ => if c == core && b == bank && id < w.id then z + k' else z
          | _ => z) 0
        let done := (s.core core).a[bank].steps - later
        let crossed := (done - k) / 2 ^ 23 != done / 2 ^ 23
        let t := rows.foldl (fun t r => t.notePoison r.1 r.2 x.ctx) s
        let t := t.notePoison (weightKey core wb) (2 ^ 20) x.ctx
        let t := if pair && !west then t.notePoison (weightKey (partnerOf core) (s.core (partnerOf core)).act) (2 ^ 20) x.ctx else t
        let mark (b : Bank) : Bank := { b with poison := b.poison || bad, due := b.due || crossed }
        let t := t.updBank core bank fun b => mark (b.addAll m (min n 256) (total lead))
        let t := if pair then t.updBank (partnerOf core) bank fun b => mark (b.addAll m (n - 256) fun i j => total foll i (j + 256)) else t
        .next ((t.finishWork x).settleBoth core)
    | _ => .next s

/-- ACCUMULATOR_CHECK (R377): the cells of a bank whose check is due are read; a mismatch poisons the bank and writes a
HWCHECK event. -/
def execAccumulatorCheck (core bank : Nat) (s : State) : Out :=
  let b : Fin 2 := Fin.ofNat 2 bank; let k := (s.core core).a[b]
  if !k.isOpen || !k.due then .next s
  else
    let t := s.updBank core b fun x => { x with due := false }
    if k.cells.all fun c => c.sum.2 then .next t
    else
      let place : Place := { die := core / 12, cluster := core / 4 % 3, core := core % 4 }
      .next ((t.updBank core b fun x => { x with poison := true }).logEvent
        { kind := 0x0003, unit := s.unitOf place, data := leBytes 8 0 })

/-! ## MXDRAIN and MXSTAT -/

/-- The drain descriptor (R202). -/
structure DrainDesc where
  wmen : Bool
  slot : Fin 8
  pitch : Nat
  qfmt : Nat
  pair : Bool
  ls : Bool
  form : Nat
  bank : Fin 2
  deriving DecidableEq, Repr

def parseDrain (d : Nat) : DrainDesc :=
  { wmen := bit d 35, slot := Fin.ofNat 8 (bits d 34 32), pitch := bits d 31 16 * 16, qfmt := bits d 15 8, pair := bit d 4, ls := bit d 3,
    form := bits d 2 1, bank := Fin.ofNat 2 (bits d 0 0) }

/-- Bytes of a result row (R202). -/
def DrainDesc.rowBytes (d : DrainDesc) (n : Nat) : Nat :=
  match d.form with
  | 0 => 4 * n
  | 1 => 2 * n
  | 2 => n * qBits d.qfmt / 8
  | _ => 8 * n

/-- The descriptor's own restrictions (R202, R203). -/
def drainBad (w : Nat) (d : DrainDesc) (n : Nat) : Bool :=
  bits w 63 36 != 0 || bits w 7 5 != 0 || d.pitch == 0 || (if d.form == 2 then !qFmtOk d.qfmt else d.qfmt != 0)
  || (d.form == 2 && n % (if d.qfmt == 0x21 then 4 else if d.qfmt == 0x22 then 1 else 2) != 0)
  || (d.form == 3 && (d.ls || d.wmen)) || d.pitch < d.rowBytes n

/-- A positive normal FP32 value as significand and exponent (R27). -/
def normalF32 (x : Nat) : Option (Nat × Int) :=
  if x < 2 ^ 23 || 0x7F800000 ≤ x then none
  else match decodeF f32 false x with | .fin _ m e => some (m, e) | _ => none

/-- One drained element (R54): its bits or code, its watermark value as FP32, its saturation. -/
def drainElem (d : DrainDesc) (sout : Nat) (ls : Nat × Int) (sr sc : Nat) (x : Int) : Int × Nat × Nat :=
  let neg : Bool := x < 0; let num := x.natAbs * scaleInt sr * scaleInt sc * ls.1; let exp := scaleExp sr + scaleExp sc + ls.2
  let v : Exact := .fin neg num 1 exp false
  match d.form with
  | 0 => let r := (roundF f32 0 false v).1; (r, r, 0)
  | 1 => let r := (roundF bf16 0 false v).1; (r, r * 2 ^ 16, 0)
  | 2 =>
    let (q, n) := quantFin neg num (scaleInt sout) (exp - scaleExp sout) (qMax (qBits d.qfmt))
    (q, (roundF f32 0 false v).1, n)
  | _ => (x, 0, 0)

/-- The bytes of a drained row. -/
def drainBytes (d : DrainDesc) (xs : List Int) : List Byte :=
  match d.form with
  | 0 => xs.flatMap fun x => leBytes 4 x.toNat
  | 1 => xs.flatMap fun x => leBytes 2 x.toNat
  | 2 => leBytes (d.rowBytes xs.length) (qPack (qBits d.qfmt) xs)
  | _ => xs.flatMap fun x => leBytes 8 (x % 2 ^ 64).toNat

/-- Bytes laid over the runs that hold a piece. -/
def layRuns (rs : List Run) (bs : List Byte) : List (Nat × List Byte) := rs.map fun r => (r.2.1, (bs.drop r.1).take r.2.2)

/-- Accepted with the stream held until completion, for an armed rescale trap (R208). -/
def State.acceptHeld (s : State) (fl : Fin 13) (k : WorkKind) : Res := do
  let t ← s.raiseFlag (flagOf fl)
  let id := t.nextId
  .error (.hold ((t.addWork (flagOf fl) k).waiting (.engine id)))

/-- Statistics of a list of contributed values and a saturation count, added to a core's slot (R204, R207, R210). -/
def State.contributeAll (s : State) (core : Nat) (slot : Fin 8) (values : List Nat) (sat : Nat) : State :=
  let base := s.baseExp (s.launchOf s.cur).ctx (s.boundId core (s.launchOf s.cur).ctx slot)
  let st := values.foldl (fun (st : Stats) x => st.add base x) {}
  s.toSlot core slot { st with sat := satAdd 32 st.sat sat }

/-- MXDRAIN (R202-R204): the checks; the wait for the bank's MXMULs; the scan, with CHECK inside it; acceptance. -/
def execMxdrain (a b c : Fin 64) (fl : Fin 13) (s : State) : Out :=
  matrix [(10, a), (11, b), (12, c)] (fun ix s => do
    let w := (s.rs b).toNat; let d := parseDrain w; let sout := (s.rs c).toNat
    let chain := (s.core ix).a[d.bank]
    let wide := if chain.paired then 512 else 256
    let m := (chain.latch.map (·.m)).getD 128; let n := if chain.isOpen then (chain.latch.map (·.n)).getD wide else 0
    ensure ((s.rs a).toNat % 16 == 0) (namedAt causeMxfmt 10 (s.rs a))
    ensure (!drainBad w d n && sout < 2 ^ 16) (named causeMxfmt 11)
    ensure (d.form == 2 || sout == 0) (named causeMxfmt 12)
    ensure chain.isOpen (named causeMxfmt 11)
    ensure (d.pair == chain.paired && chain.lead == ix) (named causeMxpair 11)
    ensure (!(d.form == 2 && scaleBad sout)) (named causeMxfmt 12)
    let ls : Nat × Int ← match (if d.ls then normalF32 s.cur.lscale.toNat else some (1, 0)) with
      | some q => .ok q
      | none => failAt causeMxfmt 11
    ensure (!(d.wmen && s.boundId ix (s.launchOf s.cur).ctx d.slot == 0)) (.fault { cause := causeProt, slot := 11, detail := 1 })
    let t ← taggedOf .write (s.rs a) 10
    let (s, runs) ← s.sides [{ acc := .write, slot := 10, tag := t, pieces := tileRows m (d.rowBytes n) d.pitch }]
    if s.work.any fun w => w.kind.mulOn ix d.bank then stall s .matrix
    else
      let at_ := s.mismatch ix d.bank
      if at_.isSome || s.chainPoison ix d.bank then s.matrixCheck ix (bankCheck d.bank at_)
      else do
        let part := (s.core (partnerOf ix)).a[d.bank]
        let sum (i j : Nat) : Int := if j < 256 then (chain.cell i j).sum.1 else (part.cell i (j - 256)).sum.1
        let sr (i : Nat) : Nat := ((chain.latch.bind fun l => l.rows[i]?).getD 0x3F80).toNat
        let sc (j : Nat) : Nat := ((chain.latch.bind fun l => l.cols[j]?).getD 0x3F80).toNat
        let outs := (List.range m).map fun i => (List.range n).map fun j => drainElem d sout ls (sr i) (sc j) (sum i j)
        let rows := (List.zip (runs.headD []) outs).flatMap fun q => layRuns q.1 (drainBytes d (q.2.map (·.1)))
        let flat := outs.flatten
        let nf := if d.form ≤ 1 then flat.foldl (fun z o => z ||| nfOf f32 o.2.1) 0 else 0
        let sat := flat.foldl (fun z o => z + o.2.2) 0
        let _ ← s.raiseFlag (flagOf fl)
        let s := if d.wmen then s.contributeAll ix d.slot (flat.map fun o => o.2.1) sat else s
        let s := s.closeBank ix d.bank
        let armed := d.form == 2 && s.cur.armed
        if armed then s.acceptHeld fl (.drain rows nf sat armed) else s.acceptWork fl (.drain rows nf sat armed)) s

/-- DRAIN_COMPLETE (R204, R208): every row is written; NFFLAG, and the rescale trap. -/
def execDrainComplete (id : Nat) (s : State) : Out :=
  match s.findWork id with
  | none => .next s
  | some x =>
    match x.kind with
    | .drain rows nf sat armed =>
      let core := ((s.group x.group).getD {}).place.coreIx
      if rows.any fun r => s.runHeld core r.1 r.2.length then .next (rows.foldl (fun t r => t.noteRun core r.1 r.2.length) s)
      else
        let t := rows.foldl (fun (t : State) r => t.writeBytes r.1 r.2) s
        let t := t.finishWork x
        .next (t.updGroup x.group fun g => (g.raiseStatus 0 nf).saturated armed sat)
    | _ => .next s

/-- Array status (R205). -/
def State.arrayStatus (s : State) (core : Nat) : Word :=
  let c := s.core core; let sb := c.w[other c.act]; let ab := c.w[c.act]
  let f (b : Bool) (n : Nat) := if b then 2 ^ n else 0
  BitVec.ofNat 64 (f (c.a[(1 : Fin 2)].isOpen && c.a[(1 : Fin 2)].paired) 59 + f (c.a[(0 : Fin 2)].isOpen && c.a[(0 : Fin 2)].paired) 58 +
    c.a[(1 : Fin 2)].steps * 2 ^ 33 + c.a[(0 : Fin 2)].steps * 2 ^ 8 + f (s.slaved core) 7 + f sb.link 6 + f sb.loaded 5 + f ab.loaded 4 +
    c.act.val * 8 + f c.a[(1 : Fin 2)].isOpen 1 + f c.a[(0 : Fin 2)].isOpen 0)

/-- MXSTAT (R205). -/
def execMxstat (a : Fin 64) (s : State) : Out := matrix [] (fun ix s => .ok (s.ws a (s.arrayStatus ix))) s

end Sys2Proof.Machine
end

