-- ==== Sys2Proof/Machine/Qtile.lean ====
section
/-! DEFINITION. QTILE: an FP32 or BF16 tile quantised into blocks (R206-R208). -/

namespace Sys2Proof.Machine

/-- The tile and quantisation descriptors of QTILE (R206). -/
structure QDesc where
  rows : Nat
  bytes : Nat
  sstride : Nat
  coff : Nat
  sarg : Nat
  policy : Nat
  smode : Nat
  slot : Fin 8
  wmen : Bool
  cc : Bool
  rc : Bool
  bf : Bool
  qfmt : Nat
  deriving DecidableEq, Repr

def parseQ (t q : Word) : QDesc :=
  let d := q.toNat
  { rows := descRows t, bytes := descBytes t, sstride := descSrcStride t, coff := bits d 63 40 * 64, sarg := bits d 39 24, policy := bits d 23 20,
    smode := bits d 17 16, slot := Fin.ofNat 8 (bits d 14 12), wmen := bit d 11, cc := bit d 10, rc := bit d 9, bf := bit d 8, qfmt := bits d 7 0 }

def QDesc.esize (d : QDesc) : Nat := if d.bf then 2 else 4
def QDesc.cols (d : QDesc) : Nat := d.bytes / d.esize
def QDesc.pitch (d : QDesc) : Nat := (d.cols * qBits d.qfmt + 127) / 128 * 16

/-- DATAOFF of a block with n scales (R207). -/
def dataOff (n : Nat) : Nat := 64 + (8 + 2 * n + 63) / 64 * 64

/-- Bytes of the row-blocked or the column-blocked block. -/
def QDesc.size (d : QDesc) (byCols : Bool) : Nat := dataOff (blocks32 (if byCols then d.cols else d.rows)) + d.rows * d.pitch

/-- Step 1 of R207 on the descriptors. -/
def QDesc.bad (d : QDesc) (t q : Word) : Bool :=
  bits q.toNat 19 18 != 0 || bit q.toNat 15 || descDstStride t != 0 || d.rows == 0 || 4096 < d.rows || d.bytes % d.esize != 0
  || d.cols == 0 || 4096 < d.cols || (!d.rc && !d.cc) || d.smode == 3 || (d.smode == 2 && (65536 < d.rows * d.cols || d.sarg != 0))
  || (d.smode != 1 && d.policy != 0) || !qFmtOk d.qfmt

/-- The policy of SMODE 1, as WMSCALE checks it (R214). -/
def QDesc.policyBad (d : QDesc) : Bool := d.smode == 1 && 8 ≤ d.policy

/-- The two blocks overlap. -/
def QDesc.overlap (d : QDesc) (a : Nat) : Bool :=
  d.rc && d.cc && decide (a < a + d.coff + d.size true) && decide (a + d.coff < a + d.size false)

/-- Source value (i, j) of a row's bytes, as FP32 bits. -/
def QDesc.value (d : QDesc) (row : List Byte) (j : Nat) : Nat :=
  let x := ofLeBytes ((row.drop (j * d.esize)).take d.esize); if d.bf then x * 2 ^ 16 else x

/-- The largest finite magnitude among values: integer order is magnitude order (R207, R210). -/
def maxFinite (xs : List Nat) : Nat :=
  xs.foldl (fun m x => let a := x % 2 ^ 31; if a < 0x7F800000 then max m a else m) 0

/-- The bytes before a block's data: header, scale vector, padding (R188, R207). -/
def blockPrefix (d : QDesc) (byCols : Bool) (scales : List Nat) (wmid epoch : Nat) : List Byte :=
  let off := dataOff scales.length
  let h := d.qfmt + d.rows * 2 ^ 16 + d.cols * 2 ^ 32 + d.pitch * 2 ^ 48 + off * 2 ^ 64 + wmid * 2 ^ 96 + epoch % 2 ^ 32 * 2 ^ 128
  let v := leBytes 64 h ++ leBytes 8 (scales.length + if byCols then 2 ^ 16 else 0) ++ scales.flatMap (leBytes 2)
  v ++ List.replicate (off - v.length) 0

/-- QTILE (R206, R207): the checks, the scales, the codes; accepted with its writing to come, and held while the rescale trap
is armed (R208). A poisoned source row poisons its rows of the blocks, and all of a block whose scales were fitted to it. -/
def qtileBody (a b : Fin 64) (c : Fin 32) (fl : Fin 13) (s : State) : Res := do
  let td := s.rs (pairLo c); let qd := s.rs (pairHi c); let d := parseQ td qd; let n := qBits d.qfmt
  let ctx := (s.launchOf s.cur).ctx; let core := s.cur.place.coreIx
  ensure (!d.bad td qd) (named causeMxfmt 12)
  ensure ((s.rs a).toNat % 64 == 0 && !d.overlap (s.rs a).toNat) (namedAt causeMxfmt 10 (s.rs a))
  ensure ((s.rs b).toNat % d.esize == 0) (namedAt causeMxfmt 11 (s.rs b))
  ensure (!(d.smode == 0 && scaleBad d.sarg)) (named causeMxfmt 12)
  ensure (!d.policyBad) (named causeMxfmt 12)
  let s ← if d.smode = 1 then s.recordAt d.sarg 12 else .ok s
  if d.smode = 1 && s.flushing s.cur.key then stall s .sx
  else do
    ensure (!(d.wmen && s.boundId core ctx d.slot == 0)) (.fault { cause := causeProt, slot := 12, detail := 1 })
    let tb ← taggedOf .read (s.rs b) 11
    let ta ← taggedOf .write (s.rs a) 10
    let dst (byCols : Bool) : List Side :=
      if (if byCols then d.cc else d.rc) then
        let off := dataOff (blocks32 (if byCols then d.cols else d.rows)); let at_ := if byCols then d.coff else 0
        [{ acc := .write, slot := 10, tag := ta, pieces := (at_, off) :: (tileRows d.rows ((d.cols * n + 7) / 8) d.pitch).map fun p => (at_ + off + p.1, p.2) }]
      else []
    let (s, runs) ← s.sides ({ acc := .read, slot := 11, tag := tb, pieces := tileRows d.rows d.bytes d.sstride } :: (dst false ++ dst true))
    let src := runs.headD []
    s.runsReach src.flatten
    let s := src.foldl (fun t r => t.noteRuns ctx r) s
    let rowBad := src.map fun r => s.runsPoisoned r
    let x := src.map fun r => let bs := s.runBytes r; (List.range d.cols).map (d.value bs)
    let (wscale, epoch) := if d.smode = 1 then s.recordScale ctx d.sarg d.policy d.qfmt else (d.sarg, 0)
    let fit (vs : List Nat) : Nat := fitF32 false (qMax n) (maxFinite vs) 0
    let scale (byCols : Bool) (k : Nat) : Nat :=
      if d.smode = 2 then
        (if byCols then fit (x.flatMap fun r => (r.drop (32 * k)).take 32) else fit (((x.drop (32 * k)).take 32).flatten))
      else wscale
    let scales (byCols : Bool) : List Nat := (List.range (blocks32 (if byCols then d.cols else d.rows))).map (scale byCols)
    let fitBad := d.smode == 2 && rowBad.any id
    let block (byCols : Bool) (rs : List (List Run)) : List (Nat × List Byte × Bool) × Nat :=
      let vs := scales byCols
      let codes := x.zipIdx.map fun (r, i) => r.zipIdx.map fun (v, j) =>
        quantise (decodeF f32 false v) ((vs[(if byCols then j else i) / 32]?).getD 0) (qMax n)
      let parts := blockPrefix d byCols vs (if d.smode = 1 then d.sarg else 0) epoch ::
        codes.map fun r => leBytes ((d.cols * n + 7) / 8) (qPack n (r.map (·.1)))
      let bad := fitBad :: rowBad.map (· || fitBad)
      ((List.zip rs (List.zip parts bad)).flatMap fun q => (layRuns q.1 q.2.1).map fun w => (w.1, w.2, q.2.2),
        codes.flatten.foldl (fun z q => z + q.2) 0)
    let rb := if d.rc then block false ((runs[1]?).getD []) else ([], 0)
    let cb := if d.cc then block true ((runs[if d.rc then 2 else 1]?).getD []) else ([], 0)
    let sat := rb.2 + cb.2
    let good := (List.zip x rowBad).flatMap fun q => if q.2 then [] else q.1
    let _ ← s.raiseFlag (flagOf fl)
    let s := if d.wmen then s.contributeAll core d.slot good sat else s
    let work : WorkKind := .qtile (rb.1 ++ cb.1) sat s.cur.armed
    if s.cur.armed then s.acceptHeld fl work else s.acceptWork fl work

/-- QTILE (R207); a stack core lacks it (R348). -/
def execQtile (a b : Fin 64) (c : Fin 32) (fl : Fin 13) (s : State) : Out :=
  lacking (fun s => s.cur.place.onStack)
    (scalar [(10, a), (11, b), (12, pairLo c), (12, pairHi c)] (qtileBody a b c fl)) s

/-- QTILE_COMPLETE (R208): the blocks are written; NFFLAG.SAT, and the rescale trap. -/
def execQtileComplete (id : Nat) (s : State) : Out :=
  match s.findWork id with
  | none => .next s
  | some x =>
    match x.kind with
    | .qtile writes sat armed =>
      let core := ((s.group x.group).getD {}).place.coreIx
      if writes.any fun r => s.runHeld core r.1 r.2.1.length then .next (writes.foldl (fun t r => t.noteRun core r.1 r.2.1.length) s)
      else
        let t := writes.foldl (fun (t : State) r => t.putBytes r.1 r.2.1 r.2.2) s
        .next ((t.finishWork x).updGroup x.group fun g => g.saturated armed sat)
    | _ => .next s

end Sys2Proof.Machine
end

