-- ==== Sys2Proof/Machine/ScalarArith.lean ====
section
/-! DEFINITION. Scalar register arithmetic, immediates and constants: majors 0x0 to 0x2 (R93-R96). -/

namespace Sys2Proof.Machine

/-- A source of the register form: the whole register, or its low 32 bits extended (R93). -/
def aluSrc (sgn w : Bool) (x : Word) : Word :=
  if w then (if sgn then (x.setWidth 32).signExtend 64 else (x.setWidth 32).setWidth 64) else x

/-- The result of the register form: the 32-bit form sign-extends (R93). -/
def aluDst (w : Bool) (r : Word) : Word := if w then (r.setWidth 32).signExtend 64 else r

/-- The width n of a form (R93). -/
def aluWidth (w : Bool) : Nat := if w then 32 else 64

/-- Quotients and remainders with the edge results of R35. -/
def signedQuot (x y : Word) : Word := if y = 0 then BitVec.allOnes 64 else BitVec.ofInt 64 (x.toInt.tdiv y.toInt)
def unsignedQuot (x y : Word) : Word := if y = 0 then BitVec.allOnes 64 else BitVec.ofNat 64 (x.toNat / y.toNat)
def signedRem (x y : Word) : Word := if y = 0 then x else BitVec.ofInt 64 (x.toInt.tmod y.toInt)
def unsignedRem (x y : Word) : Word := if y = 0 then x else BitVec.ofNat 64 (x.toNat % y.toNat)

/-- Leading zeros of an n-bit number. -/
def leadingZeros (n x : Nat) : Nat := if x = 0 then n else n - 1 - Nat.log2 x

/-- Trailing zeros of an n-bit number. -/
def trailingZeros : Nat → Nat → Nat
  | 0, _ => 0
  | n + 1, x => if x % 2 = 1 then 0 else trailingZeros n (x / 2) + 1

/-- Ones among the low n bits. -/
def onesIn : Nat → Nat → Nat
  | 0, _ => 0
  | n + 1, x => x % 2 + onesIn n (x / 2)

/-- A scalar arithmetic instruction: a scalar pipeline that disagrees on both executions raises CHECK, class 1, plane 0xFF
(R376). -/
def alu (srcs : Srcs) (body : State → Res) : State → Out :=
  scalar srcs fun s =>
    if s.badLanes.any fun b => b.1 == s.cur.place.coreIx && b.2.1 == 0xFF then
      .error (.hold (({ s with errors := s.errors ++ [(.core s.cur.place.coreIx, 6, s.ns)] } : State).scalarFault
        { cause := causeCheck, hw := true, detail := 2 ^ 56 + 0xFF }))
    else body s

/-- The register form (R93): f gets the two sources and the width. -/
def aluOp (sgn : Bool) (f : Word → Word → Nat → Word) (d a b : Fin 64) (w : Bool) : State → Out :=
  alu [(10, a), (11, b)] fun s =>
    .ok (s.ws d (aluDst w (f (aluSrc sgn w (s.rs a)) (aluSrc sgn w (s.rs b)) (aluWidth w))))

/-- The unary members (R93, R94). -/
def aluUn (f : Nat → Nat → Nat) (d a : Fin 64) (w : Bool) : State → Out :=
  alu [(10, a)] fun s => .ok (s.ws d (BitVec.ofNat 64 (f (aluWidth w) (aluSrc false w (s.rs a)).toNat)))

/-- ADD (R94). -/
def execAdd (d a b : Fin 64) (w : Bool) (s : State) : Out := aluOp false (fun x y _ => x + y) d a b w s

/-- SUB (R94). -/
def execSub (d a b : Fin 64) (w : Bool) (s : State) : Out := aluOp false (fun x y _ => x - y) d a b w s

/-- MUL (R94). -/
def execMul (d a b : Fin 64) (w : Bool) (s : State) : Out := aluOp false (fun x y _ => x * y) d a b w s

/-- MULH (R94). -/
def execMulh (d a b : Fin 64) (w : Bool) (s : State) : Out := aluOp true (fun x y n => BitVec.ofInt 64 (x.toInt * y.toInt / 2 ^ n)) d a b w s

/-- MULHN (R94). -/
def execMulhn (d a b : Fin 64) (w : Bool) (s : State) : Out := aluOp false (fun x y n => BitVec.ofNat 64 (x.toNat * y.toNat / 2 ^ n)) d a b w s

/-- DIV (R94). -/
def execDiv (d a b : Fin 64) (w : Bool) (s : State) : Out := aluOp true (fun x y _ => signedQuot x y) d a b w s

/-- DIVN (R94). -/
def execDivn (d a b : Fin 64) (w : Bool) (s : State) : Out := aluOp false (fun x y _ => unsignedQuot x y) d a b w s

/-- REM (R94). -/
def execRem (d a b : Fin 64) (w : Bool) (s : State) : Out := aluOp true (fun x y _ => signedRem x y) d a b w s

/-- REMN (R94). -/
def execRemn (d a b : Fin 64) (w : Bool) (s : State) : Out := aluOp false (fun x y _ => unsignedRem x y) d a b w s

/-- AND (R94). -/
def execAnd (d a b : Fin 64) (w : Bool) (s : State) : Out := aluOp false (fun x y _ => x &&& y) d a b w s

/-- OR (R94). -/
def execOr (d a b : Fin 64) (w : Bool) (s : State) : Out := aluOp false (fun x y _ => x ||| y) d a b w s

/-- XOR (R94). -/
def execXor (d a b : Fin 64) (w : Bool) (s : State) : Out := aluOp false (fun x y _ => x ^^^ y) d a b w s

/-- ANDN (R94). -/
def execAndn (d a b : Fin 64) (w : Bool) (s : State) : Out := aluOp false (fun x y _ => x &&& ~~~y) d a b w s

/-- SHL (R94). -/
def execShl (d a b : Fin 64) (w : Bool) (s : State) : Out := aluOp false (fun x y n => x <<< (y.toNat % n)) d a b w s

/-- SHR (R94). -/
def execShr (d a b : Fin 64) (w : Bool) (s : State) : Out := aluOp false (fun x y n => x >>> (y.toNat % n)) d a b w s

/-- SAR (R94). -/
def execSar (d a b : Fin 64) (w : Bool) (s : State) : Out := aluOp true (fun x y n => x.sshiftRight (y.toNat % n)) d a b w s

/-- MIN (R94). -/
def execMin (d a b : Fin 64) (w : Bool) (s : State) : Out := aluOp true (fun x y _ => if x.toInt < y.toInt then x else y) d a b w s

/-- MAX (R94). -/
def execMax (d a b : Fin 64) (w : Bool) (s : State) : Out := aluOp true (fun x y _ => if x.toInt < y.toInt then y else x) d a b w s

/-- MINN (R94). -/
def execMinn (d a b : Fin 64) (w : Bool) (s : State) : Out := aluOp false (fun x y _ => if x.toNat < y.toNat then x else y) d a b w s

/-- MAXN (R94). -/
def execMaxn (d a b : Fin 64) (w : Bool) (s : State) : Out := aluOp false (fun x y _ => if x.toNat < y.toNat then y else x) d a b w s

/-- SLT (R94). -/
def execSlt (d a b : Fin 64) (w : Bool) (s : State) : Out := aluOp true (fun x y _ => if x.toInt < y.toInt then 1 else 0) d a b w s

/-- SLTN (R94). -/
def execSltn (d a b : Fin 64) (w : Bool) (s : State) : Out := aluOp false (fun x y _ => if x.toNat < y.toNat then 1 else 0) d a b w s

/-- SEQ (R94). -/
def execSeq (d a b : Fin 64) (w : Bool) (s : State) : Out := aluOp false (fun x y _ => if x = y then 1 else 0) d a b w s

/-- CLZ (R94). -/
def execClz (d a : Fin 64) (w : Bool) (s : State) : Out := aluUn leadingZeros d a w s

/-- CTZ (R94). -/
def execCtz (d a : Fin 64) (w : Bool) (s : State) : Out := aluUn trailingZeros d a w s

/-- POPC (R94). -/
def execPopc (d a : Fin 64) (w : Bool) (s : State) : Out := aluUn onesIn d a w s

/-- The immediate form (R95). -/
def aluImm (f : Word → Word) (d a : Fin 64) : State → Out := alu [(10, a)] fun s => .ok (s.ws d (f (s.rs a)))

/-- ADDI (R95). -/
def execAddi (d a : Fin 64) (imm : BitVec 13) (s : State) : Out := aluImm (fun x => x + sext64 imm) d a s

/-- ANDI (R95). -/
def execAndi (d a : Fin 64) (imm : BitVec 13) (s : State) : Out := aluImm (fun x => x &&& sext64 imm) d a s

/-- ORI (R95). -/
def execOri (d a : Fin 64) (imm : BitVec 13) (s : State) : Out := aluImm (fun x => x ||| sext64 imm) d a s

/-- XORI (R95). -/
def execXori (d a : Fin 64) (imm : BitVec 13) (s : State) : Out := aluImm (fun x => x ^^^ sext64 imm) d a s

/-- SLTI (R95). -/
def execSlti (d a : Fin 64) (imm : BitVec 13) (s : State) : Out := aluImm (fun x => if x.toInt < (sext64 imm).toInt then 1 else 0) d a s

/-- SHLI (R95). -/
def execShli (d a cnt : Fin 64) (s : State) : Out := aluImm (fun x => x <<< cnt.val) d a s

/-- SHRI (R95). -/
def execShri (d a cnt : Fin 64) (s : State) : Out := aluImm (fun x => x >>> cnt.val) d a s

/-- SARI (R95). -/
def execSari (d a cnt : Fin 64) (s : State) : Out := aluImm (fun x => x.sshiftRight cnt.val) d a s

/-- LI (R96). -/
def execLi (d : Fin 64) (imm : BitVec 20) (s : State) : Out := alu [] (fun s => .ok (s.ws d (sext64 imm))) s

/-- LIS (R96): sd is read as well. -/
def execLis (d : Fin 64) (imm : BitVec 20) (s : State) : Out :=
  alu [(9, d)] (fun s => .ok (s.ws d ((s.rs d <<< 20) ||| imm.setWidth 64))) s

/-- LPC (R96): the address of the LPC word plus a word offset. -/
def execLpc (d : Fin 64) (imm : BitVec 20) (s : State) : Out :=
  alu [] (fun s => .ok (s.ws d (s.cur.spc + sext64 imm * 4))) s

end Sys2Proof.Machine
end

