-- ==== Sys2Proof/Machine/Dispatch.lean ====
section
/-! DEFINITION. The meaning of every instruction and event, one arm per row of spec/opcode_table.json. -/

namespace Sys2Proof.Machine

/-- What an instruction or an event does to the machine. -/
def exec (i : Instr) (s : State) : Host.Outcome State Fault Refusal :=
  match i with
  | .add d a b w => Sys2Proof.Machine.execAdd d a b w s
  | .sub d a b w => Sys2Proof.Machine.execSub d a b w s
  | .mul d a b w => Sys2Proof.Machine.execMul d a b w s
  | .mulh d a b w => Sys2Proof.Machine.execMulh d a b w s
  | .mulhn d a b w => Sys2Proof.Machine.execMulhn d a b w s
  | .div d a b w => Sys2Proof.Machine.execDiv d a b w s
  | .divn d a b w => Sys2Proof.Machine.execDivn d a b w s
  | .rem d a b w => Sys2Proof.Machine.execRem d a b w s
  | .remn d a b w => Sys2Proof.Machine.execRemn d a b w s
  | .and d a b w => Sys2Proof.Machine.execAnd d a b w s
  | .or d a b w => Sys2Proof.Machine.execOr d a b w s
  | .xor d a b w => Sys2Proof.Machine.execXor d a b w s
  | .andn d a b w => Sys2Proof.Machine.execAndn d a b w s
  | .shl d a b w => Sys2Proof.Machine.execShl d a b w s
  | .shr d a b w => Sys2Proof.Machine.execShr d a b w s
  | .sar d a b w => Sys2Proof.Machine.execSar d a b w s
  | .min d a b w => Sys2Proof.Machine.execMin d a b w s
  | .max d a b w => Sys2Proof.Machine.execMax d a b w s
  | .minn d a b w => Sys2Proof.Machine.execMinn d a b w s
  | .maxn d a b w => Sys2Proof.Machine.execMaxn d a b w s
  | .slt d a b w => Sys2Proof.Machine.execSlt d a b w s
  | .sltn d a b w => Sys2Proof.Machine.execSltn d a b w s
  | .seq d a b w => Sys2Proof.Machine.execSeq d a b w s
  | .clz d a w => Sys2Proof.Machine.execClz d a w s
  | .ctz d a w => Sys2Proof.Machine.execCtz d a w s
  | .popc d a w => Sys2Proof.Machine.execPopc d a w s
  | .addi d a imm => Sys2Proof.Machine.execAddi d a imm s
  | .andi d a imm => Sys2Proof.Machine.execAndi d a imm s
  | .ori d a imm => Sys2Proof.Machine.execOri d a imm s
  | .xori d a imm => Sys2Proof.Machine.execXori d a imm s
  | .shli d a cnt => Sys2Proof.Machine.execShli d a cnt s
  | .shri d a cnt => Sys2Proof.Machine.execShri d a cnt s
  | .sari d a cnt => Sys2Proof.Machine.execSari d a cnt s
  | .slti d a imm => Sys2Proof.Machine.execSlti d a imm s
  | .li d imm => Sys2Proof.Machine.execLi d imm s
  | .lis d imm => Sys2Proof.Machine.execLis d imm s
  | .lpc d imm => Sys2Proof.Machine.execLpc d imm s
  | .beq a b off => Sys2Proof.Machine.execBeq a b off s
  | .bne a b off => Sys2Proof.Machine.execBne a b off s
  | .blt a b off => Sys2Proof.Machine.execBlt a b off s
  | .bge a b off => Sys2Proof.Machine.execBge a b off s
  | .bltn a b off => Sys2Proof.Machine.execBltn a b off s
  | .bgen a b off => Sys2Proof.Machine.execBgen a b off s
  | .jmp off => Sys2Proof.Machine.execJmp off s
  | .call off => Sys2Proof.Machine.execCall off s
  | .jr a => Sys2Proof.Machine.execJr a s
  | .ret => Sys2Proof.Machine.execRet s
  | .sld d n a imm => Sys2Proof.Machine.execSld d n a imm s
  | .sldw d n a imm => Sys2Proof.Machine.execSldw d n a imm s
  | .sst d n a imm => Sys2Proof.Machine.execSst d n a imm s
  | .sstw d n a imm => Sys2Proof.Machine.execSstw d n a imm s
  | .slds d lvl a imm => Sys2Proof.Machine.execSlds d lvl a imm s
  | .ssts d lvl a imm => Sys2Proof.Machine.execSsts d lvl a imm s
  | .bld n a imm => Sys2Proof.Machine.execBld n a imm s
  | .badj n a imm => Sys2Proof.Machine.execBadj n a imm s
  | .lq off => Sys2Proof.Machine.execLq off s
  | .lqr a => Sys2Proof.Machine.execLqr a s
  | .lwait => Sys2Proof.Machine.execLwait s
  | .bany p off => Sys2Proof.Machine.execBany p off s
  | .ball p off => Sys2Proof.Machine.execBall p off s
  | .bnone p off => Sys2Proof.Machine.execBnone p off s
  | .mvp d p => Sys2Proof.Machine.execMvp d p s
  | .mvps p a => Sys2Proof.Machine.execMvps p a s
  | .fwait mask => Sys2Proof.Machine.execFwait mask s
  | .mxshape a b c => Sys2Proof.Machine.execMxshape a b c s
  | .mxldw a b c fl => Sys2Proof.Machine.execMxldw a b c fl s
  | .mxswap fl => Sys2Proof.Machine.execMxswap fl s
  | .mxzero c => Sys2Proof.Machine.execMxzero c s
  | .mxmul a b c fl => Sys2Proof.Machine.execMxmul a b c fl s
  | .mxdrain a b c fl => Sys2Proof.Machine.execMxdrain a b c fl s
  | .mxstat a => Sys2Proof.Machine.execMxstat a s
  | .tmov a b c fl => Sys2Proof.Machine.execTmov a b c fl s
  | .tmova a b c fl => Sys2Proof.Machine.execTmova a b c fl s
  | .bseal a => Sys2Proof.Machine.execBseal a s
  | .bwait b => Sys2Proof.Machine.execBwait b s
  | .seal a b fl => Sys2Proof.Machine.execSeal a b fl s
  | .unseal a b fl => Sys2Proof.Machine.execUnseal a b fl s
  | .home a b c fl => Sys2Proof.Machine.execHome a b c fl s
  | .nmrun a b c fl => Sys2Proof.Machine.execNmrun a b c fl s
  | .rbulk a b c fl => Sys2Proof.Machine.execRbulk a b c fl s
  | .rquiet => Sys2Proof.Machine.execRquiet s
  | .bar c => Sys2Proof.Machine.execBar c s
  | .arrset a b fl => Sys2Proof.Machine.execArrset a b fl s
  | .arrwait a b c => Sys2Proof.Machine.execArrwait a b c s
  | .fence c => Sys2Proof.Machine.execFence c s
  | .waita a b c => Sys2Proof.Machine.execWaita a b c s
  | .qtile a b c fl => Sys2Proof.Machine.execQtile a b c fl s
  | .wmbind b c => Sys2Proof.Machine.execWmbind b c s
  | .wmflush b fl => Sys2Proof.Machine.execWmflush b fl s
  | .wmrd a b c => Sys2Proof.Machine.execWmrd a b c s
  | .wmscale a b c => Sys2Proof.Machine.execWmscale a b c s
  | .wmclose b fl => Sys2Proof.Machine.execWmclose b fl s
  | .wmreset b fl => Sys2Proof.Machine.execWmreset b fl s
  | .qtake a b => Sys2Proof.Machine.execQtake a b s
  | .qemit b c => Sys2Proof.Machine.execQemit b c s
  | .qdone b => Sys2Proof.Machine.execQdone b s
  | .crd d cr => Sys2Proof.Machine.execCrd d cr s
  | .cwr a cr => Sys2Proof.Machine.execCwr a cr s
  | .trap imm => Sys2Proof.Machine.execTrap imm s
  | .eret => Sys2Proof.Machine.execEret s
  | .yield => Sys2Proof.Machine.execYield s
  | .sleep a => Sys2Proof.Machine.execSleep a s
  | .exit => Sys2Proof.Machine.execExit s
  | .nop => Sys2Proof.Machine.execNop s
  | .brk imm => Sys2Proof.Machine.execBrk imm s
  | .iadd w => Sys2Proof.Machine.execIadd w s
  | .isub w => Sys2Proof.Machine.execIsub w s
  | .imul w => Sys2Proof.Machine.execImul w s
  | .imulh w => Sys2Proof.Machine.execImulh w s
  | .imad w => Sys2Proof.Machine.execImad w s
  | .imin w => Sys2Proof.Machine.execImin w s
  | .imax w => Sys2Proof.Machine.execImax w s
  | .iabs w => Sys2Proof.Machine.execIabs w s
  | .ineg w => Sys2Proof.Machine.execIneg w s
  | .idot4 w => Sys2Proof.Machine.execIdot4 w s
  | .idiv w => Sys2Proof.Machine.execIdiv w s
  | .irem w => Sys2Proof.Machine.execIrem w s
  | .laneAnd w => Sys2Proof.Machine.execLaneAnd w s
  | .laneOr w => Sys2Proof.Machine.execLaneOr w s
  | .laneXor w => Sys2Proof.Machine.execLaneXor w s
  | .not w => Sys2Proof.Machine.execNot w s
  | .laneAndn w => Sys2Proof.Machine.execLaneAndn w s
  | .bmux3 w => Sys2Proof.Machine.execBmux3 w s
  | .laneShl w => Sys2Proof.Machine.execLaneShl w s
  | .laneShr w => Sys2Proof.Machine.execLaneShr w s
  | .laneSar w => Sys2Proof.Machine.execLaneSar w s
  | .bfe w => Sys2Proof.Machine.execBfe w s
  | .bfi w => Sys2Proof.Machine.execBfi w s
  | .lanePopc w => Sys2Proof.Machine.execLanePopc w s
  | .laneClz w => Sys2Proof.Machine.execLaneClz w s
  | .brev w => Sys2Proof.Machine.execBrev w s
  | .icmp w => Sys2Proof.Machine.execIcmp w s
  | .sel w => Sys2Proof.Machine.execSel w s
  | .mov w => Sys2Proof.Machine.execMov w s
  | .movid w => Sys2Proof.Machine.execMovid w s
  | .fadd w => Sys2Proof.Machine.execFadd w s
  | .fsub w => Sys2Proof.Machine.execFsub w s
  | .fmul w => Sys2Proof.Machine.execFmul w s
  | .ffma w => Sys2Proof.Machine.execFfma w s
  | .fmin w => Sys2Proof.Machine.execFmin w s
  | .fmax w => Sys2Proof.Machine.execFmax w s
  | .fabs w => Sys2Proof.Machine.execFabs w s
  | .fneg w => Sys2Proof.Machine.execFneg w s
  | .fcmp w => Sys2Proof.Machine.execFcmp w s
  | .frcp w => Sys2Proof.Machine.execFrcp w s
  | .frsq w => Sys2Proof.Machine.execFrsq w s
  | .fsqrt w => Sys2Proof.Machine.execFsqrt w s
  | .fdiv w => Sys2Proof.Machine.execFdiv w s
  | .fexp2 w => Sys2Proof.Machine.execFexp2 w s
  | .flog2 w => Sys2Proof.Machine.execFlog2 w s
  | .fsin w => Sys2Proof.Machine.execFsin w s
  | .fcos w => Sys2Proof.Machine.execFcos w s
  | .ftanh w => Sys2Proof.Machine.execFtanh w s
  | .ffrc w => Sys2Proof.Machine.execFfrc w s
  | .frnd w => Sys2Proof.Machine.execFrnd w s
  | .fclass w => Sys2Proof.Machine.execFclass w s
  | .fscl w => Sys2Proof.Machine.execFscl w s
  | .fexpo w => Sys2Proof.Machine.execFexpo w s
  | .cvt w => Sys2Proof.Machine.execCvt w s
  | .qcvt w => Sys2Proof.Machine.execQcvt w s
  | .dqcvt w => Sys2Proof.Machine.execDqcvt w s
  | .pack w => Sys2Proof.Machine.execPack w s
  | .unpack w => Sys2Proof.Machine.execUnpack w s
  | .xperm w => Sys2Proof.Machine.execXperm w s
  | .gmask w => Sys2Proof.Machine.execGmask w s
  | .gtest w => Sys2Proof.Machine.execGtest w s
  | .fold w => Sys2Proof.Machine.execFold w s
  | .scan w => Sys2Proof.Machine.execScan w s
  | .pset w => Sys2Proof.Machine.execPset w s
  | .pmov w => Sys2Proof.Machine.execPmov w s
  | .gpeer w => Sys2Proof.Machine.execGpeer w s
  | .ld w => Sys2Proof.Machine.execLd w s
  | .st w => Sys2Proof.Machine.execSt w s
  | .lds w => Sys2Proof.Machine.execLds w s
  | .sts w => Sys2Proof.Machine.execSts w s
  | .atom w => Sys2Proof.Machine.execAtom w s
  | .atoms w => Sys2Proof.Machine.execAtoms w s
  | .bkcmd w => Sys2Proof.Machine.execBkcmd w s
  | .accrd w => Sys2Proof.Machine.execAccrd w s
  | .radd w => Sys2Proof.Machine.execRadd w s
  | .rmin w => Sys2Proof.Machine.execRmin w s
  | .rmax w => Sys2Proof.Machine.execRmax w s
  | .ror w => Sys2Proof.Machine.execRor w s
  | .ronce w => Sys2Proof.Machine.execRonce w s
  | .rarrive w => Sys2Proof.Machine.execRarrive w s
  | .rread w => Sys2Proof.Machine.execRread w s
  | .raddf w => Sys2Proof.Machine.execRaddf w s
  | .clauseStart g => Sys2Proof.Machine.execClauseStart g s
  | .laneMemoryComplete id => Sys2Proof.Machine.execLaneMemoryComplete id s
  | .copyLanded id => Sys2Proof.Machine.execCopyLanded id s
  | .weightLoadComplete id => Sys2Proof.Machine.execWeightLoadComplete id s
  | .mxmulComplete id => Sys2Proof.Machine.execMxmulComplete id s
  | .drainComplete id => Sys2Proof.Machine.execDrainComplete id s
  | .qtileComplete id => Sys2Proof.Machine.execQtileComplete id s
  | .sealComplete id => Sys2Proof.Machine.execSealComplete id s
  | .homeComplete id => Sys2Proof.Machine.execHomeComplete id s
  | .nmrunGroupStart id => Sys2Proof.Machine.execNmrunGroupStart id s
  | .returnTrapMigrate g => Sys2Proof.Machine.execReturnTrapMigrate g s
  | .groupEnd g => Sys2Proof.Machine.execGroupEnd g s
  | .barrierRelease g => Sys2Proof.Machine.execBarrierRelease g s
  | .waitaWake g => Sys2Proof.Machine.execWaitaWake g s
  | .waitaPoll g => Sys2Proof.Machine.execWaitaPoll g s
  | .sleepEnd g => Sys2Proof.Machine.execSleepEnd g s
  | .timer g => Sys2Proof.Machine.execTimer g s
  | .userTrapEntry g => Sys2Proof.Machine.execUserTrapEntry g s
  | .faultRecordWrite g => Sys2Proof.Machine.execFaultRecordWrite g s
  | .faultQueueRetry ctx => Sys2Proof.Machine.execFaultQueueRetry ctx s
  | .watchdog team => Sys2Proof.Machine.execWatchdog team s
  | .pageRequestSend die => Sys2Proof.Machine.execPageRequestSend die s
  | .pageRequestResponse pasid idx ok => Sys2Proof.Machine.execPageRequestResponse pasid idx ok s
  | .zeroOnAllocate ctx va => Sys2Proof.Machine.execZeroOnAllocate ctx va s
  | .replicaFill die ctx granule => Sys2Proof.Machine.execReplicaFill die ctx granule s
  | .atsInvalidate pasid addr len => Sys2Proof.Machine.execAtsInvalidate pasid addr len s
  | .hostAtomicCompletion id ok => Sys2Proof.Machine.execHostAtomicCompletion id ok s
  | .bar2Read off len => Sys2Proof.Machine.execBar2Read off len s
  | .bar2Write off data => Sys2Proof.Machine.execBar2Write off data s
  | .barAtomicOp bar off => Sys2Proof.Machine.execBarAtomicOp bar off s
  | .queueEnable q prio => Sys2Proof.Machine.execQueueEnable q prio s
  | .queueDisable q prio => Sys2Proof.Machine.execQueueDisable q prio s
  | .qtailWrite q tail => Sys2Proof.Machine.execQtailWrite q tail s
  | .parameterBlockLoad => Sys2Proof.Machine.execParameterBlockLoad s
  | .evtailWrite tail => Sys2Proof.Machine.execEvtailWrite tail s
  | .registerWrite off val => Sys2Proof.Machine.execRegisterWrite off val s
  | .launch e p => Sys2Proof.Machine.execLaunch e p s
  | .copy e src dst bytes ctx => Sys2Proof.Machine.execCopy e src dst bytes ctx s
  | .signal e va val add => Sys2Proof.Machine.execSignal e va val add s
  | .wait e va val => Sys2Proof.Machine.execWait e va val s
  | .queueWaitSatisfied q => Sys2Proof.Machine.execQueueWaitSatisfied q s
  | .ctxcreate e p => Sys2Proof.Machine.execCtxcreate e p s
  | .ctxdestroy e ctx => Sys2Proof.Machine.execCtxdestroy e ctx s
  | .wmalloc e ctx count basexp => Sys2Proof.Machine.execWmalloc e ctx count basexp s
  | .wmfree e ctx first count => Sys2Proof.Machine.execWmfree e ctx first count s
  | .tlbinv e ctx va len => Sys2Proof.Machine.execTlbinv e ctx va len s
  | .calload e va => Sys2Proof.Machine.execCalload e va s
  | .health e va => Sys2Proof.Machine.execHealth e va s
  | .retry e ctx seq => Sys2Proof.Machine.execRetry e ctx seq s
  | .terminate e ctx seq => Sys2Proof.Machine.execTerminate e ctx seq s
  | .release e ctx unit => Sys2Proof.Machine.execRelease e ctx unit s
  | .launchEnd l => Sys2Proof.Machine.execLaunchEnd l s
  | .teamPlace die => Sys2Proof.Machine.execTeamPlace die s
  | .placementWaitExpiry team => Sys2Proof.Machine.execPlacementWaitExpiry team s
  | .stageArbiter die => Sys2Proof.Machine.execStageArbiter die s
  | .teamPark team => Sys2Proof.Machine.execTeamPark team s
  | .teamSave team => Sys2Proof.Machine.execTeamSave team s
  | .savePointTimeout team => Sys2Proof.Machine.execSavePointTimeout team s
  | .drainBudgetExpiry team => Sys2Proof.Machine.execDrainBudgetExpiry team s
  | .teamRestore team => Sys2Proof.Machine.execTeamRestore team s
  | .operationPacket p => Sys2Proof.Machine.execOperationPacket p s
  | .rbulkLine p => Sys2Proof.Machine.execRbulkLine p s
  | .rreadReply p => Sys2Proof.Machine.execRreadReply p s
  | .acknowledgement p => Sys2Proof.Machine.execAcknowledgement p s
  | .denial p => Sys2Proof.Machine.execDenial p s
  | .ackSend die => Sys2Proof.Machine.execAckSend die s
  | .watermarkFlush p => Sys2Proof.Machine.execWatermarkFlush p s
  | .beacon p => Sys2Proof.Machine.execBeacon p s
  | .drainMarker fibre p => Sys2Proof.Machine.execDrainMarker fibre p s
  | .fabricPacketDiscard fibre => Sys2Proof.Machine.execFabricPacketDiscard fibre s
  | .relayHold engine p => Sys2Proof.Machine.execRelayHold engine p s
  | .relayForward id fibre => Sys2Proof.Machine.execRelayForward id fibre s
  | .relayTimeout id => Sys2Proof.Machine.execRelayTimeout id s
  | .deferredApply stack bank => Sys2Proof.Machine.execDeferredApply stack bank s
  | .retransmit id => Sys2Proof.Machine.execRetransmit id s
  | .slotStart => Sys2Proof.Machine.execSlotStart s
  | .peerUnreachable pkg => Sys2Proof.Machine.execPeerUnreachable pkg s
  | .calenderDrain => Sys2Proof.Machine.execCalenderDrain s
  | .calenderDark => Sys2Proof.Machine.execCalenderDark s
  | .calenderRelock => Sys2Proof.Machine.execCalenderRelock s
  | .calenderResume => Sys2Proof.Machine.execCalenderResume s
  | .lossOfLight fibre module => Sys2Proof.Machine.execLossOfLight fibre module s
  | .lightReturn fibre module => Sys2Proof.Machine.execLightReturn fibre module s
  | .restripe fibre => Sys2Proof.Machine.execRestripe fibre s
  | .flitReplay die link => Sys2Proof.Machine.execFlitReplay die link s
  | .linkRetrainEnd die link ok => Sys2Proof.Machine.execLinkRetrainEnd die link ok s
  | .accumulatorCheck core bank => Sys2Proof.Machine.execAccumulatorCheck core bank s
  | .unitFence u trigger => Sys2Proof.Machine.execUnitFence u trigger s
  | .heartbeatLoss u kind => Sys2Proof.Machine.execHeartbeatLoss u kind s
  | .patrolScrub unit => Sys2Proof.Machine.execPatrolScrub unit s
  | .correctedSummary die => Sys2Proof.Machine.execCorrectedSummary die s
  | .discardSummary => Sys2Proof.Machine.execDiscardSummary s
  | .canaryRead die canaries => Sys2Proof.Machine.execCanaryRead die canaries s
  | .replan die canaries => Sys2Proof.Machine.execReplan die canaries s
  | .powerCapStep down => Sys2Proof.Machine.execPowerCapStep down s
  | .perBankRefresh stack channel bank => Sys2Proof.Machine.execPerBankRefresh stack channel bank s
  | .burstRollback stack channel => Sys2Proof.Machine.execBurstRollback stack channel s
  | .rowHoldTimeout stack row => Sys2Proof.Machine.execRowHoldTimeout stack row s
  | .coldReset failed => Sys2Proof.Machine.execColdReset failed s
  | .getVersion => Sys2Proof.Machine.execGetVersion s
  | .getCapabilities req => Sys2Proof.Machine.execGetCapabilities req s
  | .negotiateAlgorithms req => Sys2Proof.Machine.execNegotiateAlgorithms req s
  | .getDigests req => Sys2Proof.Machine.execGetDigests req s
  | .getCertificate slot off len => Sys2Proof.Machine.execGetCertificate slot off len s
  | .challenge slot req => Sys2Proof.Machine.execChallenge slot req s
  | .getMeasurements index req => Sys2Proof.Machine.execGetMeasurements index req s
  | .keyExchange slot req => Sys2Proof.Machine.execKeyExchange slot req s
  | .finish req => Sys2Proof.Machine.execFinish req s
  | .heartbeat => Sys2Proof.Machine.execHeartbeat s
  | .endSession => Sys2Proof.Machine.execEndSession s
  | .spdmUnsupportedRequest code => Sys2Proof.Machine.execSpdmUnsupportedRequest code s
  | .fibreLock fibre => Sys2Proof.Machine.execFibreLock fibre s
  | .refreshEnd stack channel bank => Sys2Proof.Machine.execRefreshEnd stack channel bank s
  | .windowClaim team => Sys2Proof.Machine.execWindowClaim team s
  | .translationCompletion pasid addr result => Sys2Proof.Machine.execTranslationCompletion pasid addr result s
  | .doeDiscovery index => Sys2Proof.Machine.execDoeDiscovery index s
  | .outstandingPageRequestAllocation n => Sys2Proof.Machine.execOutstandingPageRequestAllocation n s

end Sys2Proof.Machine
end

