-- ==== Sys2Proof/Machine/Turns.lean ====
section
/-! DEFINITION. One turn of the machine: a stream issues, an event happens, time passes, or the hardware is upset (log 2,
log 3; R375-R378). -/

namespace Sys2Proof.Machine

/-- The instruction is a step of the device, not a word of a stream. -/
def isEvent (i : Instr) : Bool := (laneOf i).isNone && (encodeScalar i).isNone

/-- The first byte of the ECC unit that holds a byte (R378). -/
def eccUnit (k : Nat) : Nat := k / eccSize k * eccSize k

/-- A bit of one channel of a cell inverted. -/
def Cell.flip (c : Cell) (chan bit : Nat) : Cell :=
  match chan with
  | 0 => { c with a := c.a ^^^ 2 ^ bit }
  | 1 => { c with b := c.b ^^^ 2 ^ bit }
  | 2 => { c with c := c.c ^^^ 2 ^ bit }
  | _ => { c with k := c.k ^^^ 2 ^ bit }

/-- A cell of a bank changed; a cell not listed holds zero. -/
def Bank.updCell (b : Bank) (row col : Nat) (f : Cell → Cell) : Bank :=
  if b.cells.any fun c => c.row == row && c.col == col then
    { b with cells := b.cells.map fun c => if c.row == row && c.col == col then f c else c }
  else { b with cells := b.cells ++ [f { row := row, col := col, a := 0, b := 0, c := 0, k := 0 }] }

/-- One bit of stored data is upset (R375): memory corrects every error within one 16-bit symbol of a burst, SRAM one bit of a word; a
second symbol or bit makes the unit poison. A bit that is upset twice is right again. -/
def State.upset (s : State) (key bit : Nat) : State :=
  let u := eccUnit key
  let place := if eccSize key = 64 then (key - u) / 2 else 8 * (key - u) + bit
  match s.soft.find? (·.1 == u) with
  | none => { s with soft := (u, place) :: s.soft }
  | some e =>
    if e.2 = place then (if eccSize key = 64 then s else { s with soft := s.soft.filter (·.1 != u) })
    else { s with soft := s.soft.filter (·.1 != u), poisoned := u :: s.poisoned.filter (· != u) }

/-- Bits of the register that an operand code names: 0-63 v, 64-127 s, 128-135 p, 144-159 b, 160-167 k; none for a constant (R10). -/
def regBits (code : Nat) : Nat :=
  if code < 64 then 32 else if code = 64 || code = 128 then 0 else if code < 128 then 64 else if code < 136 then 32
  else if 144 ≤ code && code < 160 then 256 else if 160 ≤ code && code < 168 then 128 else 0

/-- One bit of a register is upset (R375): a second bit of the same 64-bit word of the register file marks the registers that the word
holds as poisoned, where the poison arose being a register (R376); the answer says whether that happened. A p-register has a word of its
own (log 62). -/
def Group.upset (g : Group) (code thread bit : Nat) : Group × Bool :=
  let word := if code < 64 then thread / 2 else bit / 64
  let place := if code < 64 then thread % 2 * 32 + bit else bit
  if regBits code ≤ bit then (g, false)
  else match g.softReg.find? fun e => e.1 == code && e.2.1 == word with
    | none => ({ g with softReg := (code, word, place) :: g.softReg }, false)
    | some e =>
      let g := { g with softReg := g.softReg.filter fun x => !(x.1 == code && x.2.1 == word) }
      if e.2.2 = place then (g, false)
      else if code < 64 then
        ({ g with poisonV := (code, 2 * word, 0) :: (code, 2 * word + 1, 0) :: g.poisonV.filter fun x => !(x.1 == code && x.2.1 / 2 == word) }, true)
      else ({ g with poisonS := (code - 64, 0) :: g.poisonS.filter fun x => x.1 != code - 64 }, true)

/-- The correctable bits of an SRAM after one more upset, and whether that made a word uncorrectable (R375): a second bit of the same
64-bit word. -/
def upsetWord (soft : List Nat) (bit : Nat) : List Nat × Bool :=
  if soft.contains bit then (soft.filter (· != bit), false)
  else if soft.any fun x => x / 64 == bit / 64 then (soft.filter fun x => x / 64 != bit / 64, true)
  else (bit :: soft, false)

/-- A word with an uncorrectable error gets its name among the poisoned units, so that its read is told of (R378). -/
def State.upsetIf (s : State) (bad : Bool) (k : Nat) : State := if bad then s.sramError k else s

/-- One bit of a weight bank is upset: a word with two wrong bits poisons the bank. -/
def State.upsetWeight (s : State) (core : Nat) (bank : Fin 2) (bit : Nat) : State :=
  let c := s.core core; let w := c.w[bank]; let (soft, bad) := upsetWord w.soft bit
  (s.setCore { c with w := c.w.set bank { w with soft := soft, poison := w.poison || bad } }).upsetIf bad (weightKey core bank + bit / 64 * 8)

/-- One bit of the nth cached translation is upset. -/
def State.upsetTlb (s : State) (n bit : Nat) : State :=
  match s.tlb[n]? with
  | none => s
  | some t =>
    let (soft, bad) := upsetWord t.soft bit
    ({ s with tlb := s.tlb.set n { t with soft := soft, bad := t.bad || bad } } : State).upsetIf bad (tlbKey t)

/-- One bit of an entry of a group's lane queue is upset. -/
def State.upsetQueue (s : State) (group pos bit : Nat) : State :=
  match (s.group group).bind fun g => g.lq[pos]? with
  | none => s
  | some e =>
    let (soft, bad) := upsetWord e.soft bit
    (s.updGroup group fun g => { g with lq := g.lq.set pos { e with soft := soft, bad := e.bad || bad } }).upsetIf bad (queueKey group)

/-- One bit of a group's register is upset. -/
def State.upsetReg (s : State) (group code thread bit : Nat) : State :=
  (s.updGroup group fun g => (g.upset code thread bit).1).upsetIf ((s.group group).any fun g => (g.upset code thread bit).2)
    (regKey group code + (if code < 64 then thread / 2 else bit / 64) * 8)

/-- What an in-fibre does with a received packet (R368-R370): one for another package goes to the relay buffer of its engine. -/
def arrivalOf (pkgid fibre : Nat) (p : Packet) : State → Out :=
  if p.dpkg != pkgid then execRelayHold (fibre / 12) p
  else match p.kind with
    | 1 => execOperationPacket p
    | 2 => execRbulkLine p
    | 3 => execRreadReply p
    | 4 => execAcknowledgement p
    | 5 => execDenial p
    | 6 => execWatermarkFlush p
    | 7 => execBeacon p
    | _ => execDrainMarker fibre p

/-- The link layer of an in-fibre keeps the first intact copy of each beat (R387); a packet's beats come together. It remembers the numbers
of as many packets as a replay may bring again. -/
def Fibre.hears (x : Fibre) (beat now : Nat) : Fibre := { x with got := (beat :: x.got).take 2048, heard := now }

/-- In a drain, the in-fibre has brought no marker and counts as drained after a cycle without light; what it brings later is discarded
(R389, R390). -/
def State.countsDrained (s : State) (fibre : Nat) : Bool :=
  match s.calPhase with
  | .drain since => !(s.fibre fibre).markerIn && max since (s.fibre fibre).heard + 128000 ≤ s.ns
  | _ => false

/-- Bytes of a packet received on an in-fibre of a die that is not fenced (R379, R369): a second copy of beats already received intact is
dropped, a packet that R369 refuses is discarded and logged and its beats may come again intact (R387), and another arrives. -/
def State.receiveBytes (s : State) (fibre beat : Nat) (bytes : List Byte) : Out :=
  let x := s.fibre fibre
  if 96 ≤ fibre || x.inDown || s.fenced.contains (.die (fibre / 12)) || s.countsDrained fibre || x.got.contains beat then .next s
  else
    match parsePacket bytes with
    | some p => arrivalOf s.pkgid fibre p (s.setFibre (x.hears beat s.ns))
    | none => execFabricPacketDiscard fibre (s.setFibre { x with heard := s.ns })

/-- One turn; ex is the meaning of instructions. A scalar stream that has a user trap to take takes it (R114); a stream that is not
ready lets its turn pass. A lane that disagrees in no
thread has been masked by its second execution and is only counted (R376). -/
def State.turn (ex : Instr → State → Out) (t : Turn) (s : State) : Out :=
  match t with
  | .scalar key => (match s.group key with
    | some g =>
      if s.trapTakeable g then ex (.userTrapEntry key) s
      else if s.scalarReady ex g then runScalar ex key (s.noteScalar key) else .next s
    | none => .next s)
  | .lane key => (match s.group key with
    | some g => if s.laneReady g then runLane ex g s else .next s
    | none => .next s)
  | .event i => if isEvent i then ex i s else .next s
  | .elapse cycles ns => .next { s with now := s.now + cycles, ns := s.ns + ns }
  | .poison key => .next { s with poisoned := eccUnit key :: s.poisoned.filter (· != eccUnit key) }
  | .upset key bit => .next (s.upset key bit)
  | .upsetReg key code thread bit => .next (s.upsetReg key code thread bit)
  | .upsetTlb n bit => .next (s.upsetTlb n bit)
  | .upsetQueue key pos bit => .next (s.upsetQueue key pos bit)
  | .upsetWeight core bank bit => .next (s.upsetWeight core bank bit)
  | .badLane core plane thr =>
    if thr = 0 then .next (s.count (coreDie core) fun h => { h with laneBeater := h.laneBeater + 1 })
    else .next { s with badLanes := (core, plane, thr) :: s.badLanes }
  | .badBeater lvl arr bank masked =>
    .next (if masked then s.count (arrayDie lvl arr) fun h => { h with laneBeater := h.laneBeater + 1 }
      else { s with badBeaters := (lvl, arr, bank) :: s.badBeaters })
  | .resizeBar2 log => .next (if 30 ≤ log && log ≤ 40 then { s with bar2Log := log } else s)
  | .askTranslation ctx addr => .next (if s.ctxs.any (·.num == ctx) then { s with hostOut := s.hostOut ++ [.translationRequest (s.pasidOf ctx) addr] } else s)
  | .linkError bit => .next { s with hostOut := s.hostOut ++ [.aer true bit] }
  | .wire fibre beat bytes => s.receiveBytes fibre beat bytes
  | .cellFlip core bank row col chan bit =>
    let c := s.core core
    .next (s.setCore { c with a := c.a.set bank (c.a[bank].updCell row col fun x => x.flip chan bit) })

end Sys2Proof.Machine
end

