-- ==== Sys2Proof/Machine/Policy.lean ====
section
/-! DEFINITION. Who moves next (log 2), and how a word is placed to be the next instruction (log 1). -/

namespace Sys2Proof.Machine

/-- The turn of one group that may go on: of its two streams, the one that did not issue last comes first (R250). -/
def State.groupTurn (ex : Instr → State → Out) (s : State) (g : Group) : Option Turn :=
  let sc := s.scalarReady ex g; let la := s.laneReady g && (g.lq.head?.any (fun e => !e.started) || s.laneIsNext g)
  if sc && (!la || g.laneLast) then some (.scalar g.key) else if la then some (.lane g.key) else none

/-! ## Events that may be due -/

/-- An event, as what it does. -/
abbrev Event := State → Out

/-- Of one group: traps, sleep, waits, records, moves and its end. -/
def State.groupEvents (s : State) (g : Group) : List Event :=
  if !g.live then []
  else
    (if s.trapTakeable g then [execUserTrapEntry g.key] else []) ++
    (if s.residentRuns g && s.timerDue g && !g.traps.timer then [execTimer g.key] else []) ++
    (if s.residentRuns g && (g.lq.head?.any fun e => e.hdr.isNone) then [execClauseStart g.key] else []) ++
    (match g.wait with
      | .sleep till => if s.residentRuns g && till ≤ s.cycle g then [execSleepEnd g.key] else []
      | .exit => [execGroupEnd g.key]
      | .bar _ false => [execBarrierRelease g.key]
      | .waita _ (some _) _ _ false => [execWaitaWake g.key]
      | .waita _ .none _ _ false => [execWaitaPoll g.key]
      | _ => []) ++
    (match g.stop with
      | .faulted _ _ => [execFaultRecordWrite g.key]
      | .returned => [execReturnTrapMigrate g.key]
      | .zeroing page => [execZeroOnAllocate (s.launchOf g).ctx page]
      | _ => [])

/-- The completion of a piece of work. -/
def Work.event (w : Work) : List Event :=
  match w.kind with
  | .laneMem .. | .burst .. => [execLaneMemoryComplete w.id]
  | .hostAtomic .. => [execHostAtomicCompletion w.id true]
  | .copy .. => [execCopyLanded w.id]
  | .weight .. | .swap .. => [execWeightLoadComplete w.id]
  | .mxmul .. => [execMxmulComplete w.id]
  | .drain .. => [execDrainComplete w.id]
  | .qtile .. => [execQtileComplete w.id]
  | .sealing .. => [execSealComplete w.id]
  | .home .. => [execHomeComplete w.id]
  | .nmrun _ => [execNmrunGroupStart w.id]
  | .record .. => [fun s => .next (s.applyRecords s.work.length w.group)]
  | .remote _ | .bulk .. | .flush _ => []

/-- Of one team. -/
def Team.events (t : Team) : List Event :=
  (match t.status with
    | .waiting _ => [execPlacementWaitExpiry t.key]
    | .resident => [execWatchdog t.key, execTeamSave t.key, execSavePointTimeout t.key, execDrainBudgetExpiry t.key, execTeamPark t.key]
    | .saved _ => [execPlacementWaitExpiry t.key, execTeamRestore t.key]) ++ (if t.claiming.isEmpty then [] else [execWindowClaim t.key])

/-- Of one queue: its next entry, its open ones that wait, a WAIT that holds it; ex is the meaning of instructions. -/
def State.queueEvents (ex : Instr → State → Out) (s : State) (x : Queue) : List Event :=
  (match s.nextEntry x.q with
    | some h => (match h.cmd with | some i => [ex i] | none => [fun s => .next (s.qtailWrite x.q x.tail)])
    | none => []) ++
  ((x.open_.filter fun e => e.waits.isSome).filterMap (·.cmd)).map ex ++ (if x.waiting.isSome then [execQueueWaitSatisfied x.q] else [])

/-- The arrival of a packet in flight, or the zeroing of the pages that it waits for. -/
def State.packetEvents (s : State) (p : Packet) : List Event :=
  (match p.kind with
    | 1 => [execOperationPacket p]
    | 2 => [execRbulkLine p]
    | 3 => [execRreadReply p]
    | 4 => [execAcknowledgement p]
    | 5 => [execDenial p]
    | _ => [execWatermarkFlush p]) ++
  (match s.packetCtx p with
    | some c => (if p.kind = 2 then [p.addr, p.ext] else [p.addr]).map fun a =>
        execZeroOnAllocate c.num (if p.virt || p.kind == 3 then a.toNat % 2 ^ 57 else c.shbase + a.toNat)
    | none => [])

/-- Of the fabric. -/
def State.fabricEvents (s : State) : List Event :=
  (match s.calPhase with
    | .none => []
    | .accepted _ => [execCalenderDrain]
    | .drain _ => [execCalenderDark]
    | .dark since => if since + 1000000 ≤ s.ns then [execCalenderRelock] else []
    | .relock _ => [execCalenderResume]) ++
  (s.fibres.filter fun x => x.restripe.isSome).map (fun x => execRestripe x.fibre) ++ [execSlotStart] ++
  s.reach.map (fun r => execPeerUnreachable r.pkg) ++
  s.relays.flatMap (fun r =>
    execRelayTimeout r.id :: (((List.range 96).find? fun f => s.lit f == some r.pkt.dpkg && s.inTime f r.pkt).toList.map fun f => execRelayForward r.id f)) ++
  [fun s => .next s.sendHeld, execDiscardSummary] ++ (List.range 8).map execCorrectedSummary

/-- The unit that an error counts against. -/
def errorUnit (e : UnitRef × Nat × Nat) : UnitRef :=
  match e.1 with
  | .beater lvl arr _ => if e.2.1 = 5 then bankUnit lvl arr else e.1
  | u => u

/-- Of the hardware: units to fence, rows held too long, refreshes that end. -/
def State.unitEvents (s : State) : List Event :=
  ((s.errors.map errorUnit).dedup.filter fun u => s.triggered u && !s.fenced.contains u).map (fun u => execUnitFence u 0) ++
  s.rows.map (fun r => execRowHoldTimeout r.stack r.row) ++ s.bursts.map (fun b => execBurstRollback b.stack b.channel) ++ s.refresh.map (fun r => execRefreshEnd r.1 r.2.1 r.2.2.1)

/-- Of the dies: page requests, acknowledgements, the stage arbiter, placement. -/
def dieEvents : List Event :=
  (List.range 8).flatMap fun d => [execPageRequestSend d, execAckSend d, execStageArbiter d, execTeamPlace d]

/-- Matrix banks whose step count has crossed a multiple of 2^23 (R377). -/
def State.bankEvents (s : State) : List Event :=
  s.cores.flatMap fun c => (List.finRange 2).filterMap fun b => if c.a[b].due then some (execAccumulatorCheck c.ix b.val) else none

/-- Every event that the machine may take by itself, in the order in which it looks at them (log 2). -/
def State.due (ex : Instr → State → Out) (s : State) : List Event :=
  s.unitEvents ++ s.groups.flatMap s.groupEvents ++ s.bankEvents ++ s.work.flatMap Work.event ++ s.inflight.flatMap s.packetEvents ++
  s.deferred.map (fun d => execDeferredApply d.1 d.2.1) ++ s.remotes.map (fun r => execRetransmit r.id) ++ s.fabricEvents ++
  s.ctxs.map (fun c => execFaultQueueRetry c.num) ++ s.atsWaits.map (fun w => execAtsInvalidate w.1 w.2.1 0) ++ [execHostPending, fun s => .next s.pumpAll] ++
  s.teams.flatMap Team.events ++ s.launches.map (fun l => execLaunchEnd l.key) ++ dieEvents ++ s.queues.flatMap (s.queueEvents ex)

/-- What an event does now, if it does anything. -/
def State.effect (s : State) (f : Event) : Option Out :=
  match f s with
  | .next t => if t = s then none else some (.next t)
  | o => some o

/-- What happens next while the agenda is empty: the first event that does something, else a ready group in turn (R248, R249), else
time passes. -/
def State.onward (ex : Instr → State → Out) (s : State) : Out :=
  match (s.due ex).findSome? s.effect with
  | some o => o
  | none => State.turn ex (((s.others ++ [s.cur]).findSome? (s.groupTurn ex)).getD (.elapse 0 0)) s

/-- The next turn, from the agenda where it names one. -/
def State.advance (ex : Instr → State → Out) (s : State) : Out :=
  match s.agenda with
  | t :: r => State.turn ex t { s with agenda := r }
  | [] => s.onward ex

/-- The cycle that a turn takes has passed, and the watchdogs and the waits of parked teams have been looked after (R264, R310; log 3). -/
def afterTick : Out → Out
  | .next s => .next s.tick.watch.watchParked
  | .fault f => .fault f
  | .refused r => .refused r

/-- The current group made a resident group whose next instruction is the given word: code at virtual address 0, a started
clause for a lane word (log 1). -/
def State.placeWord (s : State) (nbits w : Nat) : State :=
  let lane := 32 < nbits
  let entry : LqEntry :=
    { idx := 0, spc := 0, started := true
      hdr := some { count := 0, wait := 0, flagA := some 0, flagB := some 1, yieldHint := false } }
  let bs := if lane then leBytes 12 w else leBytes 4 w
  { s with
    cur := { s.cur with live := true, key := 0, team := 0, spc := 0, lq := if lane then [entry] else [], wait := .none, stop := .running }
    teams := { key := 0, launch := 0, status := .resident } :: s.teams
    launches := { key := 0, ctx := 0, scode := 0, ssize := 0x8000, lbase := 0x8000, lsize := 0x8000 } :: s.launches
    tlb := { die := s.cur.place.die, ctx := 0, va := 0, size := 16, pa := 0, r := true, x := true } :: s.tlb
    mem := writeCells s.mem (if lane then 0x800C else 0) bs
    agenda := (if lane then Turn.lane 0 else Turn.scalar 0) :: s.agenda }

end Sys2Proof.Machine
end

