-- ==== Sys2Proof/Machine/Step.lean ====
section
/-! DEFINITION. One step of the machine, and the placing of a word to be run by the next step. -/

namespace Sys2Proof.Machine

/-- One step: the next turn, then one cycle passes. -/
def step (s : State) : Host.Outcome State Fault Refusal := afterTick (s.advance exec)

/-- The state with an instruction word where the next step fetches it (log 1). -/
def State.withFetchWord (s : State) (nbits w : Nat) : State := s.placeWord nbits w

end Sys2Proof.Machine
end

