-- ==== Sys2Proof/Laws/State.lean ====
section
/-! SUPPORT. What each named update of the state leaves alone, field by field, and what it sets. -/

namespace Sys2Proof.Machine

variable (s : State)

/-! ### State.setCur -/
@[simp] theorem State.setCur_others (g : Group) : (s.setCur g).others = s.others := rfl
@[simp] theorem State.setCur_teams (g : Group) : (s.setCur g).teams = s.teams := rfl
@[simp] theorem State.setCur_launches (g : Group) : (s.setCur g).launches = s.launches := rfl
@[simp] theorem State.setCur_ctxs (g : Group) : (s.setCur g).ctxs = s.ctxs := rfl
@[simp] theorem State.setCur_cores (g : Group) : (s.setCur g).cores = s.cores := rfl
@[simp] theorem State.setCur_mem (g : Group) : (s.setCur g).mem = s.mem := rfl
@[simp] theorem State.setCur_poisoned (g : Group) : (s.setCur g).poisoned = s.poisoned := rfl
@[simp] theorem State.setCur_poisonSeen (g : Group) : (s.setCur g).poisonSeen = s.poisonSeen := rfl
@[simp] theorem State.setCur_soft (g : Group) : (s.setCur g).soft = s.soft := rfl
@[simp] theorem State.setCur_now (g : Group) : (s.setCur g).now = s.now := rfl
@[simp] theorem State.setCur_ns (g : Group) : (s.setCur g).ns = s.ns := rfl
@[simp] theorem State.setCur_agenda (g : Group) : (s.setCur g).agenda = s.agenda := rfl
@[simp] theorem State.setCur_work (g : Group) : (s.setCur g).work = s.work := rfl
@[simp] theorem State.setCur_nextId (g : Group) : (s.setCur g).nextId = s.nextId := rfl
@[simp] theorem State.setCur_tlb (g : Group) : (s.setCur g).tlb = s.tlb := rfl
@[simp] theorem State.setCur_merges (g : Group) : (s.setCur g).merges = s.merges := rfl
@[simp] theorem State.setCur_prgQueue (g : Group) : (s.setCur g).prgQueue = s.prgQueue := rfl
@[simp] theorem State.setCur_prgOut (g : Group) : (s.setCur g).prgOut = s.prgOut := rfl
@[simp] theorem State.setCur_allowance (g : Group) : (s.setCur g).allowance = s.allowance := rfl
@[simp] theorem State.setCur_replicas (g : Group) : (s.setCur g).replicas = s.replicas := rfl
@[simp] theorem State.setCur_pool (g : Group) : (s.setCur g).pool = s.pool := rfl
@[simp] theorem State.setCur_poolTaken (g : Group) : (s.setCur g).poolTaken = s.poolTaken := rfl
@[simp] theorem State.setCur_remotes (g : Group) : (s.setCur g).remotes = s.remotes := rfl
@[simp] theorem State.setCur_inflight (g : Group) : (s.setCur g).inflight = s.inflight := rfl
@[simp] theorem State.setCur_outbox (g : Group) : (s.setCur g).outbox = s.outbox := rfl
@[simp] theorem State.setCur_windows (g : Group) : (s.setCur g).windows = s.windows := rfl
@[simp] theorem State.setCur_acks (g : Group) : (s.setCur g).acks = s.acks := rfl
@[simp] theorem State.setCur_deferred (g : Group) : (s.setCur g).deferred = s.deferred := rfl
@[simp] theorem State.setCur_rows (g : Group) : (s.setCur g).rows = s.rows := rfl
@[simp] theorem State.setCur_refresh (g : Group) : (s.setCur g).refresh = s.refresh := rfl
@[simp] theorem State.setCur_bursts (g : Group) : (s.setCur g).bursts = s.bursts := rfl
@[simp] theorem State.setCur_arbiters (g : Group) : (s.setCur g).arbiters = s.arbiters := rfl
@[simp] theorem State.setCur_outTails (g : Group) : (s.setCur g).outTails = s.outTails := rfl
@[simp] theorem State.setCur_faultSeq (g : Group) : (s.setCur g).faultSeq = s.faultSeq := rfl
@[simp] theorem State.setCur_launchOrder (g : Group) : (s.setCur g).launchOrder = s.launchOrder := rfl
@[simp] theorem State.setCur_queues (g : Group) : (s.setCur g).queues = s.queues := rfl
@[simp] theorem State.setCur_ctxPasid (g : Group) : (s.setCur g).ctxPasid = s.ctxPasid := rfl
@[simp] theorem State.setCur_bar2win (g : Group) : (s.setCur g).bar2win = s.bar2win := rfl
@[simp] theorem State.setCur_bar2Log (g : Group) : (s.setCur g).bar2Log = s.bar2Log := rfl
@[simp] theorem State.setCur_msixTable (g : Group) : (s.setCur g).msixTable = s.msixTable := rfl
@[simp] theorem State.setCur_msixPending (g : Group) : (s.setCur g).msixPending = s.msixPending := rfl
@[simp] theorem State.setCur_hostOut (g : Group) : (s.setCur g).hostOut = s.hostOut := rfl
@[simp] theorem State.setCur_ats (g : Group) : (s.setCur g).ats = s.ats := rfl
@[simp] theorem State.setCur_atsWaits (g : Group) : (s.setCur g).atsWaits = s.atsWaits := rfl
@[simp] theorem State.setCur_log (g : Group) : (s.setCur g).log = s.log := rfl
@[simp] theorem State.setCur_evHead (g : Group) : (s.setCur g).evHead = s.evHead := rfl
@[simp] theorem State.setCur_evTail (g : Group) : (s.setCur g).evTail = s.evTail := rfl
@[simp] theorem State.setCur_evDrop (g : Group) : (s.setCur g).evDrop = s.evDrop := rfl
@[simp] theorem State.setCur_evHeld (g : Group) : (s.setCur g).evHeld = s.evHeld := rfl
@[simp] theorem State.setCur_health (g : Group) : (s.setCur g).health = s.health := rfl
@[simp] theorem State.setCur_params (g : Group) : (s.setCur g).params = s.params := rfl
@[simp] theorem State.setCur_pbAddr (g : Group) : (s.setCur g).pbAddr = s.pbAddr := rfl
@[simp] theorem State.setCur_spdm (g : Group) : (s.setCur g).spdm = s.spdm := rfl
@[simp] theorem State.setCur_fenced (g : Group) : (s.setCur g).fenced = s.fenced := rfl
@[simp] theorem State.setCur_errors (g : Group) : (s.setCur g).errors = s.errors := rfl
@[simp] theorem State.setCur_badLanes (g : Group) : (s.setCur g).badLanes = s.badLanes := rfl
@[simp] theorem State.setCur_badBeaters (g : Group) : (s.setCur g).badBeaters = s.badBeaters := rfl
@[simp] theorem State.setCur_beaterChecks (g : Group) : (s.setCur g).beaterChecks = s.beaterChecks := rfl
@[simp] theorem State.setCur_links (g : Group) : (s.setCur g).links = s.links := rfl
@[simp] theorem State.setCur_cal (g : Group) : (s.setCur g).cal = s.cal := rfl
@[simp] theorem State.setCur_calNew (g : Group) : (s.setCur g).calNew = s.calNew := rfl
@[simp] theorem State.setCur_calPhase (g : Group) : (s.setCur g).calPhase = s.calPhase := rfl
@[simp] theorem State.setCur_calOld (g : Group) : (s.setCur g).calOld = s.calOld := rfl
@[simp] theorem State.setCur_heldOut (g : Group) : (s.setCur g).heldOut = s.heldOut := rfl
@[simp] theorem State.setCur_slotsDone (g : Group) : (s.setCur g).slotsDone = s.slotsDone := rfl
@[simp] theorem State.setCur_reach (g : Group) : (s.setCur g).reach = s.reach := rfl
@[simp] theorem State.setCur_relays (g : Group) : (s.setCur g).relays = s.relays := rfl
@[simp] theorem State.setCur_fibres (g : Group) : (s.setCur g).fibres = s.fibres := rfl
@[simp] theorem State.setCur_discards (g : Group) : (s.setCur g).discards = s.discards := rfl
@[simp] theorem State.setCur_discardFibre (g : Group) : (s.setCur g).discardFibre = s.discardFibre := rfl
@[simp] theorem State.setCur_discardMs (g : Group) : (s.setCur g).discardMs = s.discardMs := rfl
@[simp] theorem State.setCur_clockStep (g : Group) : (s.setCur g).clockStep = s.clockStep := rfl
@[simp] theorem State.setCur_ceiling (g : Group) : (s.setCur g).ceiling = s.ceiling := rfl
@[simp] theorem State.setCur_padLeft (g : Group) : (s.setCur g).padLeft = s.padLeft := rfl
@[simp] theorem State.setCur_replies (g : Group) : (s.setCur g).replies = s.replies := rfl
@[simp] theorem State.setCur_hostPending (g : Group) : (s.setCur g).hostPending = s.hostPending := rfl
@[simp] theorem State.setCur_laneSlots (g : Group) : (s.setCur g).laneSlots = s.laneSlots := rfl
@[simp] theorem State.setCur_fresh (g : Group) : (s.setCur g).fresh = s.fresh := rfl

/-! ### State.retire -/
@[simp] theorem State.retire_others (a : Word) : (s.retire a).others = s.others := rfl
@[simp] theorem State.retire_teams (a : Word) : (s.retire a).teams = s.teams := rfl
@[simp] theorem State.retire_launches (a : Word) : (s.retire a).launches = s.launches := rfl
@[simp] theorem State.retire_ctxs (a : Word) : (s.retire a).ctxs = s.ctxs := rfl
@[simp] theorem State.retire_cores (a : Word) : (s.retire a).cores = s.cores := rfl
@[simp] theorem State.retire_mem (a : Word) : (s.retire a).mem = s.mem := rfl
@[simp] theorem State.retire_poisoned (a : Word) : (s.retire a).poisoned = s.poisoned := rfl
@[simp] theorem State.retire_poisonSeen (a : Word) : (s.retire a).poisonSeen = s.poisonSeen := rfl
@[simp] theorem State.retire_soft (a : Word) : (s.retire a).soft = s.soft := rfl
@[simp] theorem State.retire_now (a : Word) : (s.retire a).now = s.now := rfl
@[simp] theorem State.retire_ns (a : Word) : (s.retire a).ns = s.ns := rfl
@[simp] theorem State.retire_agenda (a : Word) : (s.retire a).agenda = s.agenda := rfl
@[simp] theorem State.retire_work (a : Word) : (s.retire a).work = s.work := rfl
@[simp] theorem State.retire_nextId (a : Word) : (s.retire a).nextId = s.nextId := rfl
@[simp] theorem State.retire_tlb (a : Word) : (s.retire a).tlb = s.tlb := rfl
@[simp] theorem State.retire_merges (a : Word) : (s.retire a).merges = s.merges := rfl
@[simp] theorem State.retire_prgQueue (a : Word) : (s.retire a).prgQueue = s.prgQueue := rfl
@[simp] theorem State.retire_prgOut (a : Word) : (s.retire a).prgOut = s.prgOut := rfl
@[simp] theorem State.retire_allowance (a : Word) : (s.retire a).allowance = s.allowance := rfl
@[simp] theorem State.retire_replicas (a : Word) : (s.retire a).replicas = s.replicas := rfl
@[simp] theorem State.retire_pool (a : Word) : (s.retire a).pool = s.pool := rfl
@[simp] theorem State.retire_poolTaken (a : Word) : (s.retire a).poolTaken = s.poolTaken := rfl
@[simp] theorem State.retire_remotes (a : Word) : (s.retire a).remotes = s.remotes := rfl
@[simp] theorem State.retire_inflight (a : Word) : (s.retire a).inflight = s.inflight := rfl
@[simp] theorem State.retire_outbox (a : Word) : (s.retire a).outbox = s.outbox := rfl
@[simp] theorem State.retire_windows (a : Word) : (s.retire a).windows = s.windows := rfl
@[simp] theorem State.retire_acks (a : Word) : (s.retire a).acks = s.acks := rfl
@[simp] theorem State.retire_deferred (a : Word) : (s.retire a).deferred = s.deferred := rfl
@[simp] theorem State.retire_rows (a : Word) : (s.retire a).rows = s.rows := rfl
@[simp] theorem State.retire_refresh (a : Word) : (s.retire a).refresh = s.refresh := rfl
@[simp] theorem State.retire_bursts (a : Word) : (s.retire a).bursts = s.bursts := rfl
@[simp] theorem State.retire_arbiters (a : Word) : (s.retire a).arbiters = s.arbiters := rfl
@[simp] theorem State.retire_outTails (a : Word) : (s.retire a).outTails = s.outTails := rfl
@[simp] theorem State.retire_faultSeq (a : Word) : (s.retire a).faultSeq = s.faultSeq := rfl
@[simp] theorem State.retire_launchOrder (a : Word) : (s.retire a).launchOrder = s.launchOrder := rfl
@[simp] theorem State.retire_queues (a : Word) : (s.retire a).queues = s.queues := rfl
@[simp] theorem State.retire_ctxPasid (a : Word) : (s.retire a).ctxPasid = s.ctxPasid := rfl
@[simp] theorem State.retire_bar2win (a : Word) : (s.retire a).bar2win = s.bar2win := rfl
@[simp] theorem State.retire_bar2Log (a : Word) : (s.retire a).bar2Log = s.bar2Log := rfl
@[simp] theorem State.retire_msixTable (a : Word) : (s.retire a).msixTable = s.msixTable := rfl
@[simp] theorem State.retire_msixPending (a : Word) : (s.retire a).msixPending = s.msixPending := rfl
@[simp] theorem State.retire_hostOut (a : Word) : (s.retire a).hostOut = s.hostOut := rfl
@[simp] theorem State.retire_ats (a : Word) : (s.retire a).ats = s.ats := rfl
@[simp] theorem State.retire_atsWaits (a : Word) : (s.retire a).atsWaits = s.atsWaits := rfl
@[simp] theorem State.retire_log (a : Word) : (s.retire a).log = s.log := rfl
@[simp] theorem State.retire_evHead (a : Word) : (s.retire a).evHead = s.evHead := rfl
@[simp] theorem State.retire_evTail (a : Word) : (s.retire a).evTail = s.evTail := rfl
@[simp] theorem State.retire_evDrop (a : Word) : (s.retire a).evDrop = s.evDrop := rfl
@[simp] theorem State.retire_evHeld (a : Word) : (s.retire a).evHeld = s.evHeld := rfl
@[simp] theorem State.retire_health (a : Word) : (s.retire a).health = s.health := rfl
@[simp] theorem State.retire_params (a : Word) : (s.retire a).params = s.params := rfl
@[simp] theorem State.retire_pbAddr (a : Word) : (s.retire a).pbAddr = s.pbAddr := rfl
@[simp] theorem State.retire_spdm (a : Word) : (s.retire a).spdm = s.spdm := rfl
@[simp] theorem State.retire_fenced (a : Word) : (s.retire a).fenced = s.fenced := rfl
@[simp] theorem State.retire_errors (a : Word) : (s.retire a).errors = s.errors := rfl
@[simp] theorem State.retire_badLanes (a : Word) : (s.retire a).badLanes = s.badLanes := rfl
@[simp] theorem State.retire_badBeaters (a : Word) : (s.retire a).badBeaters = s.badBeaters := rfl
@[simp] theorem State.retire_beaterChecks (a : Word) : (s.retire a).beaterChecks = s.beaterChecks := rfl
@[simp] theorem State.retire_links (a : Word) : (s.retire a).links = s.links := rfl
@[simp] theorem State.retire_cal (a : Word) : (s.retire a).cal = s.cal := rfl
@[simp] theorem State.retire_calNew (a : Word) : (s.retire a).calNew = s.calNew := rfl
@[simp] theorem State.retire_calPhase (a : Word) : (s.retire a).calPhase = s.calPhase := rfl
@[simp] theorem State.retire_calOld (a : Word) : (s.retire a).calOld = s.calOld := rfl
@[simp] theorem State.retire_heldOut (a : Word) : (s.retire a).heldOut = s.heldOut := rfl
@[simp] theorem State.retire_slotsDone (a : Word) : (s.retire a).slotsDone = s.slotsDone := rfl
@[simp] theorem State.retire_reach (a : Word) : (s.retire a).reach = s.reach := rfl
@[simp] theorem State.retire_relays (a : Word) : (s.retire a).relays = s.relays := rfl
@[simp] theorem State.retire_fibres (a : Word) : (s.retire a).fibres = s.fibres := rfl
@[simp] theorem State.retire_discards (a : Word) : (s.retire a).discards = s.discards := rfl
@[simp] theorem State.retire_discardFibre (a : Word) : (s.retire a).discardFibre = s.discardFibre := rfl
@[simp] theorem State.retire_discardMs (a : Word) : (s.retire a).discardMs = s.discardMs := rfl
@[simp] theorem State.retire_clockStep (a : Word) : (s.retire a).clockStep = s.clockStep := rfl
@[simp] theorem State.retire_ceiling (a : Word) : (s.retire a).ceiling = s.ceiling := rfl
@[simp] theorem State.retire_padLeft (a : Word) : (s.retire a).padLeft = s.padLeft := rfl
@[simp] theorem State.retire_replies (a : Word) : (s.retire a).replies = s.replies := rfl
@[simp] theorem State.retire_hostPending (a : Word) : (s.retire a).hostPending = s.hostPending := rfl
@[simp] theorem State.retire_laneSlots (a : Word) : (s.retire a).laneSlots = s.laneSlots := rfl
@[simp] theorem State.retire_fresh (a : Word) : (s.retire a).fresh = s.fresh := rfl

/-! ### State.waiting -/
@[simp] theorem State.waiting_others (w : Wait) : (s.waiting w).others = s.others := rfl
@[simp] theorem State.waiting_teams (w : Wait) : (s.waiting w).teams = s.teams := rfl
@[simp] theorem State.waiting_launches (w : Wait) : (s.waiting w).launches = s.launches := rfl
@[simp] theorem State.waiting_ctxs (w : Wait) : (s.waiting w).ctxs = s.ctxs := rfl
@[simp] theorem State.waiting_cores (w : Wait) : (s.waiting w).cores = s.cores := rfl
@[simp] theorem State.waiting_mem (w : Wait) : (s.waiting w).mem = s.mem := rfl
@[simp] theorem State.waiting_poisoned (w : Wait) : (s.waiting w).poisoned = s.poisoned := rfl
@[simp] theorem State.waiting_poisonSeen (w : Wait) : (s.waiting w).poisonSeen = s.poisonSeen := rfl
@[simp] theorem State.waiting_soft (w : Wait) : (s.waiting w).soft = s.soft := rfl
@[simp] theorem State.waiting_now (w : Wait) : (s.waiting w).now = s.now := rfl
@[simp] theorem State.waiting_ns (w : Wait) : (s.waiting w).ns = s.ns := rfl
@[simp] theorem State.waiting_agenda (w : Wait) : (s.waiting w).agenda = s.agenda := rfl
@[simp] theorem State.waiting_work (w : Wait) : (s.waiting w).work = s.work := rfl
@[simp] theorem State.waiting_nextId (w : Wait) : (s.waiting w).nextId = s.nextId := rfl
@[simp] theorem State.waiting_tlb (w : Wait) : (s.waiting w).tlb = s.tlb := rfl
@[simp] theorem State.waiting_merges (w : Wait) : (s.waiting w).merges = s.merges := rfl
@[simp] theorem State.waiting_prgQueue (w : Wait) : (s.waiting w).prgQueue = s.prgQueue := rfl
@[simp] theorem State.waiting_prgOut (w : Wait) : (s.waiting w).prgOut = s.prgOut := rfl
@[simp] theorem State.waiting_allowance (w : Wait) : (s.waiting w).allowance = s.allowance := rfl
@[simp] theorem State.waiting_replicas (w : Wait) : (s.waiting w).replicas = s.replicas := rfl
@[simp] theorem State.waiting_pool (w : Wait) : (s.waiting w).pool = s.pool := rfl
@[simp] theorem State.waiting_poolTaken (w : Wait) : (s.waiting w).poolTaken = s.poolTaken := rfl
@[simp] theorem State.waiting_remotes (w : Wait) : (s.waiting w).remotes = s.remotes := rfl
@[simp] theorem State.waiting_inflight (w : Wait) : (s.waiting w).inflight = s.inflight := rfl
@[simp] theorem State.waiting_outbox (w : Wait) : (s.waiting w).outbox = s.outbox := rfl
@[simp] theorem State.waiting_windows (w : Wait) : (s.waiting w).windows = s.windows := rfl
@[simp] theorem State.waiting_acks (w : Wait) : (s.waiting w).acks = s.acks := rfl
@[simp] theorem State.waiting_deferred (w : Wait) : (s.waiting w).deferred = s.deferred := rfl
@[simp] theorem State.waiting_rows (w : Wait) : (s.waiting w).rows = s.rows := rfl
@[simp] theorem State.waiting_refresh (w : Wait) : (s.waiting w).refresh = s.refresh := rfl
@[simp] theorem State.waiting_bursts (w : Wait) : (s.waiting w).bursts = s.bursts := rfl
@[simp] theorem State.waiting_arbiters (w : Wait) : (s.waiting w).arbiters = s.arbiters := rfl
@[simp] theorem State.waiting_outTails (w : Wait) : (s.waiting w).outTails = s.outTails := rfl
@[simp] theorem State.waiting_faultSeq (w : Wait) : (s.waiting w).faultSeq = s.faultSeq := rfl
@[simp] theorem State.waiting_launchOrder (w : Wait) : (s.waiting w).launchOrder = s.launchOrder := rfl
@[simp] theorem State.waiting_queues (w : Wait) : (s.waiting w).queues = s.queues := rfl
@[simp] theorem State.waiting_ctxPasid (w : Wait) : (s.waiting w).ctxPasid = s.ctxPasid := rfl
@[simp] theorem State.waiting_bar2win (w : Wait) : (s.waiting w).bar2win = s.bar2win := rfl
@[simp] theorem State.waiting_bar2Log (w : Wait) : (s.waiting w).bar2Log = s.bar2Log := rfl
@[simp] theorem State.waiting_msixTable (w : Wait) : (s.waiting w).msixTable = s.msixTable := rfl
@[simp] theorem State.waiting_msixPending (w : Wait) : (s.waiting w).msixPending = s.msixPending := rfl
@[simp] theorem State.waiting_hostOut (w : Wait) : (s.waiting w).hostOut = s.hostOut := rfl
@[simp] theorem State.waiting_ats (w : Wait) : (s.waiting w).ats = s.ats := rfl
@[simp] theorem State.waiting_atsWaits (w : Wait) : (s.waiting w).atsWaits = s.atsWaits := rfl
@[simp] theorem State.waiting_log (w : Wait) : (s.waiting w).log = s.log := rfl
@[simp] theorem State.waiting_evHead (w : Wait) : (s.waiting w).evHead = s.evHead := rfl
@[simp] theorem State.waiting_evTail (w : Wait) : (s.waiting w).evTail = s.evTail := rfl
@[simp] theorem State.waiting_evDrop (w : Wait) : (s.waiting w).evDrop = s.evDrop := rfl
@[simp] theorem State.waiting_evHeld (w : Wait) : (s.waiting w).evHeld = s.evHeld := rfl
@[simp] theorem State.waiting_health (w : Wait) : (s.waiting w).health = s.health := rfl
@[simp] theorem State.waiting_params (w : Wait) : (s.waiting w).params = s.params := rfl
@[simp] theorem State.waiting_pbAddr (w : Wait) : (s.waiting w).pbAddr = s.pbAddr := rfl
@[simp] theorem State.waiting_spdm (w : Wait) : (s.waiting w).spdm = s.spdm := rfl
@[simp] theorem State.waiting_fenced (w : Wait) : (s.waiting w).fenced = s.fenced := rfl
@[simp] theorem State.waiting_errors (w : Wait) : (s.waiting w).errors = s.errors := rfl
@[simp] theorem State.waiting_badLanes (w : Wait) : (s.waiting w).badLanes = s.badLanes := rfl
@[simp] theorem State.waiting_badBeaters (w : Wait) : (s.waiting w).badBeaters = s.badBeaters := rfl
@[simp] theorem State.waiting_beaterChecks (w : Wait) : (s.waiting w).beaterChecks = s.beaterChecks := rfl
@[simp] theorem State.waiting_links (w : Wait) : (s.waiting w).links = s.links := rfl
@[simp] theorem State.waiting_cal (w : Wait) : (s.waiting w).cal = s.cal := rfl
@[simp] theorem State.waiting_calNew (w : Wait) : (s.waiting w).calNew = s.calNew := rfl
@[simp] theorem State.waiting_calPhase (w : Wait) : (s.waiting w).calPhase = s.calPhase := rfl
@[simp] theorem State.waiting_calOld (w : Wait) : (s.waiting w).calOld = s.calOld := rfl
@[simp] theorem State.waiting_heldOut (w : Wait) : (s.waiting w).heldOut = s.heldOut := rfl
@[simp] theorem State.waiting_slotsDone (w : Wait) : (s.waiting w).slotsDone = s.slotsDone := rfl
@[simp] theorem State.waiting_reach (w : Wait) : (s.waiting w).reach = s.reach := rfl
@[simp] theorem State.waiting_relays (w : Wait) : (s.waiting w).relays = s.relays := rfl
@[simp] theorem State.waiting_fibres (w : Wait) : (s.waiting w).fibres = s.fibres := rfl
@[simp] theorem State.waiting_discards (w : Wait) : (s.waiting w).discards = s.discards := rfl
@[simp] theorem State.waiting_discardFibre (w : Wait) : (s.waiting w).discardFibre = s.discardFibre := rfl
@[simp] theorem State.waiting_discardMs (w : Wait) : (s.waiting w).discardMs = s.discardMs := rfl
@[simp] theorem State.waiting_clockStep (w : Wait) : (s.waiting w).clockStep = s.clockStep := rfl
@[simp] theorem State.waiting_ceiling (w : Wait) : (s.waiting w).ceiling = s.ceiling := rfl
@[simp] theorem State.waiting_padLeft (w : Wait) : (s.waiting w).padLeft = s.padLeft := rfl
@[simp] theorem State.waiting_replies (w : Wait) : (s.waiting w).replies = s.replies := rfl
@[simp] theorem State.waiting_hostPending (w : Wait) : (s.waiting w).hostPending = s.hostPending := rfl
@[simp] theorem State.waiting_laneSlots (w : Wait) : (s.waiting w).laneSlots = s.laneSlots := rfl
@[simp] theorem State.waiting_fresh (w : Wait) : (s.waiting w).fresh = s.fresh := rfl

/-! ### State.ws -/
@[simp] theorem State.ws_others (d : Fin 64) (x : Word) : (s.ws d x).others = s.others := rfl
@[simp] theorem State.ws_teams (d : Fin 64) (x : Word) : (s.ws d x).teams = s.teams := rfl
@[simp] theorem State.ws_launches (d : Fin 64) (x : Word) : (s.ws d x).launches = s.launches := rfl
@[simp] theorem State.ws_ctxs (d : Fin 64) (x : Word) : (s.ws d x).ctxs = s.ctxs := rfl
@[simp] theorem State.ws_cores (d : Fin 64) (x : Word) : (s.ws d x).cores = s.cores := rfl
@[simp] theorem State.ws_mem (d : Fin 64) (x : Word) : (s.ws d x).mem = s.mem := rfl
@[simp] theorem State.ws_poisoned (d : Fin 64) (x : Word) : (s.ws d x).poisoned = s.poisoned := rfl
@[simp] theorem State.ws_poisonSeen (d : Fin 64) (x : Word) : (s.ws d x).poisonSeen = s.poisonSeen := rfl
@[simp] theorem State.ws_soft (d : Fin 64) (x : Word) : (s.ws d x).soft = s.soft := rfl
@[simp] theorem State.ws_now (d : Fin 64) (x : Word) : (s.ws d x).now = s.now := rfl
@[simp] theorem State.ws_ns (d : Fin 64) (x : Word) : (s.ws d x).ns = s.ns := rfl
@[simp] theorem State.ws_agenda (d : Fin 64) (x : Word) : (s.ws d x).agenda = s.agenda := rfl
@[simp] theorem State.ws_work (d : Fin 64) (x : Word) : (s.ws d x).work = s.work := rfl
@[simp] theorem State.ws_nextId (d : Fin 64) (x : Word) : (s.ws d x).nextId = s.nextId := rfl
@[simp] theorem State.ws_tlb (d : Fin 64) (x : Word) : (s.ws d x).tlb = s.tlb := rfl
@[simp] theorem State.ws_merges (d : Fin 64) (x : Word) : (s.ws d x).merges = s.merges := rfl
@[simp] theorem State.ws_prgQueue (d : Fin 64) (x : Word) : (s.ws d x).prgQueue = s.prgQueue := rfl
@[simp] theorem State.ws_prgOut (d : Fin 64) (x : Word) : (s.ws d x).prgOut = s.prgOut := rfl
@[simp] theorem State.ws_allowance (d : Fin 64) (x : Word) : (s.ws d x).allowance = s.allowance := rfl
@[simp] theorem State.ws_replicas (d : Fin 64) (x : Word) : (s.ws d x).replicas = s.replicas := rfl
@[simp] theorem State.ws_pool (d : Fin 64) (x : Word) : (s.ws d x).pool = s.pool := rfl
@[simp] theorem State.ws_poolTaken (d : Fin 64) (x : Word) : (s.ws d x).poolTaken = s.poolTaken := rfl
@[simp] theorem State.ws_remotes (d : Fin 64) (x : Word) : (s.ws d x).remotes = s.remotes := rfl
@[simp] theorem State.ws_inflight (d : Fin 64) (x : Word) : (s.ws d x).inflight = s.inflight := rfl
@[simp] theorem State.ws_outbox (d : Fin 64) (x : Word) : (s.ws d x).outbox = s.outbox := rfl
@[simp] theorem State.ws_windows (d : Fin 64) (x : Word) : (s.ws d x).windows = s.windows := rfl
@[simp] theorem State.ws_acks (d : Fin 64) (x : Word) : (s.ws d x).acks = s.acks := rfl
@[simp] theorem State.ws_deferred (d : Fin 64) (x : Word) : (s.ws d x).deferred = s.deferred := rfl
@[simp] theorem State.ws_rows (d : Fin 64) (x : Word) : (s.ws d x).rows = s.rows := rfl
@[simp] theorem State.ws_refresh (d : Fin 64) (x : Word) : (s.ws d x).refresh = s.refresh := rfl
@[simp] theorem State.ws_bursts (d : Fin 64) (x : Word) : (s.ws d x).bursts = s.bursts := rfl
@[simp] theorem State.ws_arbiters (d : Fin 64) (x : Word) : (s.ws d x).arbiters = s.arbiters := rfl
@[simp] theorem State.ws_outTails (d : Fin 64) (x : Word) : (s.ws d x).outTails = s.outTails := rfl
@[simp] theorem State.ws_faultSeq (d : Fin 64) (x : Word) : (s.ws d x).faultSeq = s.faultSeq := rfl
@[simp] theorem State.ws_launchOrder (d : Fin 64) (x : Word) : (s.ws d x).launchOrder = s.launchOrder := rfl
@[simp] theorem State.ws_queues (d : Fin 64) (x : Word) : (s.ws d x).queues = s.queues := rfl
@[simp] theorem State.ws_ctxPasid (d : Fin 64) (x : Word) : (s.ws d x).ctxPasid = s.ctxPasid := rfl
@[simp] theorem State.ws_bar2win (d : Fin 64) (x : Word) : (s.ws d x).bar2win = s.bar2win := rfl
@[simp] theorem State.ws_bar2Log (d : Fin 64) (x : Word) : (s.ws d x).bar2Log = s.bar2Log := rfl
@[simp] theorem State.ws_msixTable (d : Fin 64) (x : Word) : (s.ws d x).msixTable = s.msixTable := rfl
@[simp] theorem State.ws_msixPending (d : Fin 64) (x : Word) : (s.ws d x).msixPending = s.msixPending := rfl
@[simp] theorem State.ws_hostOut (d : Fin 64) (x : Word) : (s.ws d x).hostOut = s.hostOut := rfl
@[simp] theorem State.ws_ats (d : Fin 64) (x : Word) : (s.ws d x).ats = s.ats := rfl
@[simp] theorem State.ws_atsWaits (d : Fin 64) (x : Word) : (s.ws d x).atsWaits = s.atsWaits := rfl
@[simp] theorem State.ws_log (d : Fin 64) (x : Word) : (s.ws d x).log = s.log := rfl
@[simp] theorem State.ws_evHead (d : Fin 64) (x : Word) : (s.ws d x).evHead = s.evHead := rfl
@[simp] theorem State.ws_evTail (d : Fin 64) (x : Word) : (s.ws d x).evTail = s.evTail := rfl
@[simp] theorem State.ws_evDrop (d : Fin 64) (x : Word) : (s.ws d x).evDrop = s.evDrop := rfl
@[simp] theorem State.ws_evHeld (d : Fin 64) (x : Word) : (s.ws d x).evHeld = s.evHeld := rfl
@[simp] theorem State.ws_health (d : Fin 64) (x : Word) : (s.ws d x).health = s.health := rfl
@[simp] theorem State.ws_params (d : Fin 64) (x : Word) : (s.ws d x).params = s.params := rfl
@[simp] theorem State.ws_pbAddr (d : Fin 64) (x : Word) : (s.ws d x).pbAddr = s.pbAddr := rfl
@[simp] theorem State.ws_spdm (d : Fin 64) (x : Word) : (s.ws d x).spdm = s.spdm := rfl
@[simp] theorem State.ws_fenced (d : Fin 64) (x : Word) : (s.ws d x).fenced = s.fenced := rfl
@[simp] theorem State.ws_errors (d : Fin 64) (x : Word) : (s.ws d x).errors = s.errors := rfl
@[simp] theorem State.ws_badLanes (d : Fin 64) (x : Word) : (s.ws d x).badLanes = s.badLanes := rfl
@[simp] theorem State.ws_badBeaters (d : Fin 64) (x : Word) : (s.ws d x).badBeaters = s.badBeaters := rfl
@[simp] theorem State.ws_beaterChecks (d : Fin 64) (x : Word) : (s.ws d x).beaterChecks = s.beaterChecks := rfl
@[simp] theorem State.ws_links (d : Fin 64) (x : Word) : (s.ws d x).links = s.links := rfl
@[simp] theorem State.ws_cal (d : Fin 64) (x : Word) : (s.ws d x).cal = s.cal := rfl
@[simp] theorem State.ws_calNew (d : Fin 64) (x : Word) : (s.ws d x).calNew = s.calNew := rfl
@[simp] theorem State.ws_calPhase (d : Fin 64) (x : Word) : (s.ws d x).calPhase = s.calPhase := rfl
@[simp] theorem State.ws_calOld (d : Fin 64) (x : Word) : (s.ws d x).calOld = s.calOld := rfl
@[simp] theorem State.ws_heldOut (d : Fin 64) (x : Word) : (s.ws d x).heldOut = s.heldOut := rfl
@[simp] theorem State.ws_slotsDone (d : Fin 64) (x : Word) : (s.ws d x).slotsDone = s.slotsDone := rfl
@[simp] theorem State.ws_reach (d : Fin 64) (x : Word) : (s.ws d x).reach = s.reach := rfl
@[simp] theorem State.ws_relays (d : Fin 64) (x : Word) : (s.ws d x).relays = s.relays := rfl
@[simp] theorem State.ws_fibres (d : Fin 64) (x : Word) : (s.ws d x).fibres = s.fibres := rfl
@[simp] theorem State.ws_discards (d : Fin 64) (x : Word) : (s.ws d x).discards = s.discards := rfl
@[simp] theorem State.ws_discardFibre (d : Fin 64) (x : Word) : (s.ws d x).discardFibre = s.discardFibre := rfl
@[simp] theorem State.ws_discardMs (d : Fin 64) (x : Word) : (s.ws d x).discardMs = s.discardMs := rfl
@[simp] theorem State.ws_clockStep (d : Fin 64) (x : Word) : (s.ws d x).clockStep = s.clockStep := rfl
@[simp] theorem State.ws_ceiling (d : Fin 64) (x : Word) : (s.ws d x).ceiling = s.ceiling := rfl
@[simp] theorem State.ws_padLeft (d : Fin 64) (x : Word) : (s.ws d x).padLeft = s.padLeft := rfl
@[simp] theorem State.ws_replies (d : Fin 64) (x : Word) : (s.ws d x).replies = s.replies := rfl
@[simp] theorem State.ws_hostPending (d : Fin 64) (x : Word) : (s.ws d x).hostPending = s.hostPending := rfl
@[simp] theorem State.ws_laneSlots (d : Fin 64) (x : Word) : (s.ws d x).laneSlots = s.laneSlots := rfl
@[simp] theorem State.ws_fresh (d : Fin 64) (x : Word) : (s.ws d x).fresh = s.fresh := rfl

/-! ### State.useFree -/
@[simp] theorem State.useFree_cur : (s.useFree).cur = s.cur := rfl
@[simp] theorem State.useFree_others : (s.useFree).others = s.others := rfl
@[simp] theorem State.useFree_teams : (s.useFree).teams = s.teams := rfl
@[simp] theorem State.useFree_launches : (s.useFree).launches = s.launches := rfl
@[simp] theorem State.useFree_ctxs : (s.useFree).ctxs = s.ctxs := rfl
@[simp] theorem State.useFree_cores : (s.useFree).cores = s.cores := rfl
@[simp] theorem State.useFree_mem : (s.useFree).mem = s.mem := rfl
@[simp] theorem State.useFree_poisoned : (s.useFree).poisoned = s.poisoned := rfl
@[simp] theorem State.useFree_poisonSeen : (s.useFree).poisonSeen = s.poisonSeen := rfl
@[simp] theorem State.useFree_soft : (s.useFree).soft = s.soft := rfl
@[simp] theorem State.useFree_now : (s.useFree).now = s.now := rfl
@[simp] theorem State.useFree_ns : (s.useFree).ns = s.ns := rfl
@[simp] theorem State.useFree_agenda : (s.useFree).agenda = s.agenda := rfl
@[simp] theorem State.useFree_work : (s.useFree).work = s.work := rfl
@[simp] theorem State.useFree_nextId : (s.useFree).nextId = s.nextId := rfl
@[simp] theorem State.useFree_tlb : (s.useFree).tlb = s.tlb := rfl
@[simp] theorem State.useFree_merges : (s.useFree).merges = s.merges := rfl
@[simp] theorem State.useFree_prgQueue : (s.useFree).prgQueue = s.prgQueue := rfl
@[simp] theorem State.useFree_prgOut : (s.useFree).prgOut = s.prgOut := rfl
@[simp] theorem State.useFree_allowance : (s.useFree).allowance = s.allowance := rfl
@[simp] theorem State.useFree_replicas : (s.useFree).replicas = s.replicas := rfl
@[simp] theorem State.useFree_pool : (s.useFree).pool = s.pool := rfl
@[simp] theorem State.useFree_poolTaken : (s.useFree).poolTaken = s.poolTaken := rfl
@[simp] theorem State.useFree_remotes : (s.useFree).remotes = s.remotes := rfl
@[simp] theorem State.useFree_inflight : (s.useFree).inflight = s.inflight := rfl
@[simp] theorem State.useFree_outbox : (s.useFree).outbox = s.outbox := rfl
@[simp] theorem State.useFree_windows : (s.useFree).windows = s.windows := rfl
@[simp] theorem State.useFree_acks : (s.useFree).acks = s.acks := rfl
@[simp] theorem State.useFree_deferred : (s.useFree).deferred = s.deferred := rfl
@[simp] theorem State.useFree_rows : (s.useFree).rows = s.rows := rfl
@[simp] theorem State.useFree_refresh : (s.useFree).refresh = s.refresh := rfl
@[simp] theorem State.useFree_bursts : (s.useFree).bursts = s.bursts := rfl
@[simp] theorem State.useFree_arbiters : (s.useFree).arbiters = s.arbiters := rfl
@[simp] theorem State.useFree_outTails : (s.useFree).outTails = s.outTails := rfl
@[simp] theorem State.useFree_faultSeq : (s.useFree).faultSeq = s.faultSeq := rfl
@[simp] theorem State.useFree_launchOrder : (s.useFree).launchOrder = s.launchOrder := rfl
@[simp] theorem State.useFree_queues : (s.useFree).queues = s.queues := rfl
@[simp] theorem State.useFree_ctxPasid : (s.useFree).ctxPasid = s.ctxPasid := rfl
@[simp] theorem State.useFree_bar2win : (s.useFree).bar2win = s.bar2win := rfl
@[simp] theorem State.useFree_bar2Log : (s.useFree).bar2Log = s.bar2Log := rfl
@[simp] theorem State.useFree_msixTable : (s.useFree).msixTable = s.msixTable := rfl
@[simp] theorem State.useFree_msixPending : (s.useFree).msixPending = s.msixPending := rfl
@[simp] theorem State.useFree_hostOut : (s.useFree).hostOut = s.hostOut := rfl
@[simp] theorem State.useFree_ats : (s.useFree).ats = s.ats := rfl
@[simp] theorem State.useFree_atsWaits : (s.useFree).atsWaits = s.atsWaits := rfl
@[simp] theorem State.useFree_log : (s.useFree).log = s.log := rfl
@[simp] theorem State.useFree_evHead : (s.useFree).evHead = s.evHead := rfl
@[simp] theorem State.useFree_evTail : (s.useFree).evTail = s.evTail := rfl
@[simp] theorem State.useFree_evDrop : (s.useFree).evDrop = s.evDrop := rfl
@[simp] theorem State.useFree_evHeld : (s.useFree).evHeld = s.evHeld := rfl
@[simp] theorem State.useFree_health : (s.useFree).health = s.health := rfl
@[simp] theorem State.useFree_params : (s.useFree).params = s.params := rfl
@[simp] theorem State.useFree_pbAddr : (s.useFree).pbAddr = s.pbAddr := rfl
@[simp] theorem State.useFree_spdm : (s.useFree).spdm = s.spdm := rfl
@[simp] theorem State.useFree_fenced : (s.useFree).fenced = s.fenced := rfl
@[simp] theorem State.useFree_errors : (s.useFree).errors = s.errors := rfl
@[simp] theorem State.useFree_badLanes : (s.useFree).badLanes = s.badLanes := rfl
@[simp] theorem State.useFree_badBeaters : (s.useFree).badBeaters = s.badBeaters := rfl
@[simp] theorem State.useFree_beaterChecks : (s.useFree).beaterChecks = s.beaterChecks := rfl
@[simp] theorem State.useFree_links : (s.useFree).links = s.links := rfl
@[simp] theorem State.useFree_cal : (s.useFree).cal = s.cal := rfl
@[simp] theorem State.useFree_calNew : (s.useFree).calNew = s.calNew := rfl
@[simp] theorem State.useFree_calPhase : (s.useFree).calPhase = s.calPhase := rfl
@[simp] theorem State.useFree_calOld : (s.useFree).calOld = s.calOld := rfl
@[simp] theorem State.useFree_heldOut : (s.useFree).heldOut = s.heldOut := rfl
@[simp] theorem State.useFree_slotsDone : (s.useFree).slotsDone = s.slotsDone := rfl
@[simp] theorem State.useFree_reach : (s.useFree).reach = s.reach := rfl
@[simp] theorem State.useFree_relays : (s.useFree).relays = s.relays := rfl
@[simp] theorem State.useFree_fibres : (s.useFree).fibres = s.fibres := rfl
@[simp] theorem State.useFree_discards : (s.useFree).discards = s.discards := rfl
@[simp] theorem State.useFree_discardFibre : (s.useFree).discardFibre = s.discardFibre := rfl
@[simp] theorem State.useFree_discardMs : (s.useFree).discardMs = s.discardMs := rfl
@[simp] theorem State.useFree_clockStep : (s.useFree).clockStep = s.clockStep := rfl
@[simp] theorem State.useFree_ceiling : (s.useFree).ceiling = s.ceiling := rfl
@[simp] theorem State.useFree_padLeft : (s.useFree).padLeft = s.padLeft := rfl
@[simp] theorem State.useFree_replies : (s.useFree).replies = s.replies := rfl
@[simp] theorem State.useFree_hostPending : (s.useFree).hostPending = s.hostPending := rfl
@[simp] theorem State.useFree_laneSlots : (s.useFree).laneSlots = s.laneSlots := rfl

/-! ### State.tick -/
@[simp] theorem State.tick_cur : (s.tick).cur = s.cur := rfl
@[simp] theorem State.tick_others : (s.tick).others = s.others := rfl
@[simp] theorem State.tick_teams : (s.tick).teams = s.teams := rfl
@[simp] theorem State.tick_launches : (s.tick).launches = s.launches := rfl
@[simp] theorem State.tick_ctxs : (s.tick).ctxs = s.ctxs := rfl
@[simp] theorem State.tick_cores : (s.tick).cores = s.cores := rfl
@[simp] theorem State.tick_mem : (s.tick).mem = s.mem := rfl
@[simp] theorem State.tick_poisoned : (s.tick).poisoned = s.poisoned := rfl
@[simp] theorem State.tick_poisonSeen : (s.tick).poisonSeen = s.poisonSeen := rfl
@[simp] theorem State.tick_soft : (s.tick).soft = s.soft := rfl
@[simp] theorem State.tick_agenda : (s.tick).agenda = s.agenda := rfl
@[simp] theorem State.tick_work : (s.tick).work = s.work := rfl
@[simp] theorem State.tick_nextId : (s.tick).nextId = s.nextId := rfl
@[simp] theorem State.tick_tlb : (s.tick).tlb = s.tlb := rfl
@[simp] theorem State.tick_merges : (s.tick).merges = s.merges := rfl
@[simp] theorem State.tick_prgQueue : (s.tick).prgQueue = s.prgQueue := rfl
@[simp] theorem State.tick_prgOut : (s.tick).prgOut = s.prgOut := rfl
@[simp] theorem State.tick_allowance : (s.tick).allowance = s.allowance := rfl
@[simp] theorem State.tick_replicas : (s.tick).replicas = s.replicas := rfl
@[simp] theorem State.tick_pool : (s.tick).pool = s.pool := rfl
@[simp] theorem State.tick_poolTaken : (s.tick).poolTaken = s.poolTaken := rfl
@[simp] theorem State.tick_remotes : (s.tick).remotes = s.remotes := rfl
@[simp] theorem State.tick_inflight : (s.tick).inflight = s.inflight := rfl
@[simp] theorem State.tick_outbox : (s.tick).outbox = s.outbox := rfl
@[simp] theorem State.tick_windows : (s.tick).windows = s.windows := rfl
@[simp] theorem State.tick_acks : (s.tick).acks = s.acks := rfl
@[simp] theorem State.tick_deferred : (s.tick).deferred = s.deferred := rfl
@[simp] theorem State.tick_rows : (s.tick).rows = s.rows := rfl
@[simp] theorem State.tick_refresh : (s.tick).refresh = s.refresh := rfl
@[simp] theorem State.tick_bursts : (s.tick).bursts = s.bursts := rfl
@[simp] theorem State.tick_arbiters : (s.tick).arbiters = s.arbiters := rfl
@[simp] theorem State.tick_outTails : (s.tick).outTails = s.outTails := rfl
@[simp] theorem State.tick_faultSeq : (s.tick).faultSeq = s.faultSeq := rfl
@[simp] theorem State.tick_launchOrder : (s.tick).launchOrder = s.launchOrder := rfl
@[simp] theorem State.tick_queues : (s.tick).queues = s.queues := rfl
@[simp] theorem State.tick_ctxPasid : (s.tick).ctxPasid = s.ctxPasid := rfl
@[simp] theorem State.tick_bar2win : (s.tick).bar2win = s.bar2win := rfl
@[simp] theorem State.tick_bar2Log : (s.tick).bar2Log = s.bar2Log := rfl
@[simp] theorem State.tick_msixTable : (s.tick).msixTable = s.msixTable := rfl
@[simp] theorem State.tick_msixPending : (s.tick).msixPending = s.msixPending := rfl
@[simp] theorem State.tick_hostOut : (s.tick).hostOut = s.hostOut := rfl
@[simp] theorem State.tick_ats : (s.tick).ats = s.ats := rfl
@[simp] theorem State.tick_atsWaits : (s.tick).atsWaits = s.atsWaits := rfl
@[simp] theorem State.tick_log : (s.tick).log = s.log := rfl
@[simp] theorem State.tick_evHead : (s.tick).evHead = s.evHead := rfl
@[simp] theorem State.tick_evTail : (s.tick).evTail = s.evTail := rfl
@[simp] theorem State.tick_evDrop : (s.tick).evDrop = s.evDrop := rfl
@[simp] theorem State.tick_evHeld : (s.tick).evHeld = s.evHeld := rfl
@[simp] theorem State.tick_health : (s.tick).health = s.health := rfl
@[simp] theorem State.tick_params : (s.tick).params = s.params := rfl
@[simp] theorem State.tick_pbAddr : (s.tick).pbAddr = s.pbAddr := rfl
@[simp] theorem State.tick_spdm : (s.tick).spdm = s.spdm := rfl
@[simp] theorem State.tick_fenced : (s.tick).fenced = s.fenced := rfl
@[simp] theorem State.tick_errors : (s.tick).errors = s.errors := rfl
@[simp] theorem State.tick_badLanes : (s.tick).badLanes = s.badLanes := rfl
@[simp] theorem State.tick_badBeaters : (s.tick).badBeaters = s.badBeaters := rfl
@[simp] theorem State.tick_beaterChecks : (s.tick).beaterChecks = s.beaterChecks := rfl
@[simp] theorem State.tick_links : (s.tick).links = s.links := rfl
@[simp] theorem State.tick_cal : (s.tick).cal = s.cal := rfl
@[simp] theorem State.tick_calNew : (s.tick).calNew = s.calNew := rfl
@[simp] theorem State.tick_calPhase : (s.tick).calPhase = s.calPhase := rfl
@[simp] theorem State.tick_calOld : (s.tick).calOld = s.calOld := rfl
@[simp] theorem State.tick_heldOut : (s.tick).heldOut = s.heldOut := rfl
@[simp] theorem State.tick_slotsDone : (s.tick).slotsDone = s.slotsDone := rfl
@[simp] theorem State.tick_reach : (s.tick).reach = s.reach := rfl
@[simp] theorem State.tick_relays : (s.tick).relays = s.relays := rfl
@[simp] theorem State.tick_fibres : (s.tick).fibres = s.fibres := rfl
@[simp] theorem State.tick_discards : (s.tick).discards = s.discards := rfl
@[simp] theorem State.tick_discardFibre : (s.tick).discardFibre = s.discardFibre := rfl
@[simp] theorem State.tick_discardMs : (s.tick).discardMs = s.discardMs := rfl
@[simp] theorem State.tick_clockStep : (s.tick).clockStep = s.clockStep := rfl
@[simp] theorem State.tick_ceiling : (s.tick).ceiling = s.ceiling := rfl
@[simp] theorem State.tick_padLeft : (s.tick).padLeft = s.padLeft := rfl
@[simp] theorem State.tick_replies : (s.tick).replies = s.replies := rfl
@[simp] theorem State.tick_hostPending : (s.tick).hostPending = s.hostPending := rfl
@[simp] theorem State.tick_laneSlots : (s.tick).laneSlots = s.laneSlots := rfl
@[simp] theorem State.tick_fresh : (s.tick).fresh = s.fresh := rfl

/-! ### State.updGroup -/
@[simp] theorem State.updGroup_teams (k : Nat) (f : Group → Group) : (s.updGroup k f).teams = s.teams := rfl
@[simp] theorem State.updGroup_launches (k : Nat) (f : Group → Group) : (s.updGroup k f).launches = s.launches := rfl
@[simp] theorem State.updGroup_ctxs (k : Nat) (f : Group → Group) : (s.updGroup k f).ctxs = s.ctxs := rfl
@[simp] theorem State.updGroup_cores (k : Nat) (f : Group → Group) : (s.updGroup k f).cores = s.cores := rfl
@[simp] theorem State.updGroup_mem (k : Nat) (f : Group → Group) : (s.updGroup k f).mem = s.mem := rfl
@[simp] theorem State.updGroup_poisoned (k : Nat) (f : Group → Group) : (s.updGroup k f).poisoned = s.poisoned := rfl
@[simp] theorem State.updGroup_poisonSeen (k : Nat) (f : Group → Group) : (s.updGroup k f).poisonSeen = s.poisonSeen := rfl
@[simp] theorem State.updGroup_soft (k : Nat) (f : Group → Group) : (s.updGroup k f).soft = s.soft := rfl
@[simp] theorem State.updGroup_now (k : Nat) (f : Group → Group) : (s.updGroup k f).now = s.now := rfl
@[simp] theorem State.updGroup_ns (k : Nat) (f : Group → Group) : (s.updGroup k f).ns = s.ns := rfl
@[simp] theorem State.updGroup_agenda (k : Nat) (f : Group → Group) : (s.updGroup k f).agenda = s.agenda := rfl
@[simp] theorem State.updGroup_work (k : Nat) (f : Group → Group) : (s.updGroup k f).work = s.work := rfl
@[simp] theorem State.updGroup_nextId (k : Nat) (f : Group → Group) : (s.updGroup k f).nextId = s.nextId := rfl
@[simp] theorem State.updGroup_tlb (k : Nat) (f : Group → Group) : (s.updGroup k f).tlb = s.tlb := rfl
@[simp] theorem State.updGroup_merges (k : Nat) (f : Group → Group) : (s.updGroup k f).merges = s.merges := rfl
@[simp] theorem State.updGroup_prgQueue (k : Nat) (f : Group → Group) : (s.updGroup k f).prgQueue = s.prgQueue := rfl
@[simp] theorem State.updGroup_prgOut (k : Nat) (f : Group → Group) : (s.updGroup k f).prgOut = s.prgOut := rfl
@[simp] theorem State.updGroup_allowance (k : Nat) (f : Group → Group) : (s.updGroup k f).allowance = s.allowance := rfl
@[simp] theorem State.updGroup_replicas (k : Nat) (f : Group → Group) : (s.updGroup k f).replicas = s.replicas := rfl
@[simp] theorem State.updGroup_pool (k : Nat) (f : Group → Group) : (s.updGroup k f).pool = s.pool := rfl
@[simp] theorem State.updGroup_poolTaken (k : Nat) (f : Group → Group) : (s.updGroup k f).poolTaken = s.poolTaken := rfl
@[simp] theorem State.updGroup_remotes (k : Nat) (f : Group → Group) : (s.updGroup k f).remotes = s.remotes := rfl
@[simp] theorem State.updGroup_inflight (k : Nat) (f : Group → Group) : (s.updGroup k f).inflight = s.inflight := rfl
@[simp] theorem State.updGroup_outbox (k : Nat) (f : Group → Group) : (s.updGroup k f).outbox = s.outbox := rfl
@[simp] theorem State.updGroup_windows (k : Nat) (f : Group → Group) : (s.updGroup k f).windows = s.windows := rfl
@[simp] theorem State.updGroup_acks (k : Nat) (f : Group → Group) : (s.updGroup k f).acks = s.acks := rfl
@[simp] theorem State.updGroup_deferred (k : Nat) (f : Group → Group) : (s.updGroup k f).deferred = s.deferred := rfl
@[simp] theorem State.updGroup_rows (k : Nat) (f : Group → Group) : (s.updGroup k f).rows = s.rows := rfl
@[simp] theorem State.updGroup_refresh (k : Nat) (f : Group → Group) : (s.updGroup k f).refresh = s.refresh := rfl
@[simp] theorem State.updGroup_bursts (k : Nat) (f : Group → Group) : (s.updGroup k f).bursts = s.bursts := rfl
@[simp] theorem State.updGroup_arbiters (k : Nat) (f : Group → Group) : (s.updGroup k f).arbiters = s.arbiters := rfl
@[simp] theorem State.updGroup_outTails (k : Nat) (f : Group → Group) : (s.updGroup k f).outTails = s.outTails := rfl
@[simp] theorem State.updGroup_faultSeq (k : Nat) (f : Group → Group) : (s.updGroup k f).faultSeq = s.faultSeq := rfl
@[simp] theorem State.updGroup_launchOrder (k : Nat) (f : Group → Group) : (s.updGroup k f).launchOrder = s.launchOrder := rfl
@[simp] theorem State.updGroup_queues (k : Nat) (f : Group → Group) : (s.updGroup k f).queues = s.queues := rfl
@[simp] theorem State.updGroup_ctxPasid (k : Nat) (f : Group → Group) : (s.updGroup k f).ctxPasid = s.ctxPasid := rfl
@[simp] theorem State.updGroup_bar2win (k : Nat) (f : Group → Group) : (s.updGroup k f).bar2win = s.bar2win := rfl
@[simp] theorem State.updGroup_bar2Log (k : Nat) (f : Group → Group) : (s.updGroup k f).bar2Log = s.bar2Log := rfl
@[simp] theorem State.updGroup_msixTable (k : Nat) (f : Group → Group) : (s.updGroup k f).msixTable = s.msixTable := rfl
@[simp] theorem State.updGroup_msixPending (k : Nat) (f : Group → Group) : (s.updGroup k f).msixPending = s.msixPending := rfl
@[simp] theorem State.updGroup_hostOut (k : Nat) (f : Group → Group) : (s.updGroup k f).hostOut = s.hostOut := rfl
@[simp] theorem State.updGroup_ats (k : Nat) (f : Group → Group) : (s.updGroup k f).ats = s.ats := rfl
@[simp] theorem State.updGroup_atsWaits (k : Nat) (f : Group → Group) : (s.updGroup k f).atsWaits = s.atsWaits := rfl
@[simp] theorem State.updGroup_log (k : Nat) (f : Group → Group) : (s.updGroup k f).log = s.log := rfl
@[simp] theorem State.updGroup_evHead (k : Nat) (f : Group → Group) : (s.updGroup k f).evHead = s.evHead := rfl
@[simp] theorem State.updGroup_evTail (k : Nat) (f : Group → Group) : (s.updGroup k f).evTail = s.evTail := rfl
@[simp] theorem State.updGroup_evDrop (k : Nat) (f : Group → Group) : (s.updGroup k f).evDrop = s.evDrop := rfl
@[simp] theorem State.updGroup_evHeld (k : Nat) (f : Group → Group) : (s.updGroup k f).evHeld = s.evHeld := rfl
@[simp] theorem State.updGroup_health (k : Nat) (f : Group → Group) : (s.updGroup k f).health = s.health := rfl
@[simp] theorem State.updGroup_params (k : Nat) (f : Group → Group) : (s.updGroup k f).params = s.params := rfl
@[simp] theorem State.updGroup_pbAddr (k : Nat) (f : Group → Group) : (s.updGroup k f).pbAddr = s.pbAddr := rfl
@[simp] theorem State.updGroup_spdm (k : Nat) (f : Group → Group) : (s.updGroup k f).spdm = s.spdm := rfl
@[simp] theorem State.updGroup_fenced (k : Nat) (f : Group → Group) : (s.updGroup k f).fenced = s.fenced := rfl
@[simp] theorem State.updGroup_errors (k : Nat) (f : Group → Group) : (s.updGroup k f).errors = s.errors := rfl
@[simp] theorem State.updGroup_badLanes (k : Nat) (f : Group → Group) : (s.updGroup k f).badLanes = s.badLanes := rfl
@[simp] theorem State.updGroup_badBeaters (k : Nat) (f : Group → Group) : (s.updGroup k f).badBeaters = s.badBeaters := rfl
@[simp] theorem State.updGroup_beaterChecks (k : Nat) (f : Group → Group) : (s.updGroup k f).beaterChecks = s.beaterChecks := rfl
@[simp] theorem State.updGroup_links (k : Nat) (f : Group → Group) : (s.updGroup k f).links = s.links := rfl
@[simp] theorem State.updGroup_cal (k : Nat) (f : Group → Group) : (s.updGroup k f).cal = s.cal := rfl
@[simp] theorem State.updGroup_calNew (k : Nat) (f : Group → Group) : (s.updGroup k f).calNew = s.calNew := rfl
@[simp] theorem State.updGroup_calPhase (k : Nat) (f : Group → Group) : (s.updGroup k f).calPhase = s.calPhase := rfl
@[simp] theorem State.updGroup_calOld (k : Nat) (f : Group → Group) : (s.updGroup k f).calOld = s.calOld := rfl
@[simp] theorem State.updGroup_heldOut (k : Nat) (f : Group → Group) : (s.updGroup k f).heldOut = s.heldOut := rfl
@[simp] theorem State.updGroup_slotsDone (k : Nat) (f : Group → Group) : (s.updGroup k f).slotsDone = s.slotsDone := rfl
@[simp] theorem State.updGroup_reach (k : Nat) (f : Group → Group) : (s.updGroup k f).reach = s.reach := rfl
@[simp] theorem State.updGroup_relays (k : Nat) (f : Group → Group) : (s.updGroup k f).relays = s.relays := rfl
@[simp] theorem State.updGroup_fibres (k : Nat) (f : Group → Group) : (s.updGroup k f).fibres = s.fibres := rfl
@[simp] theorem State.updGroup_discards (k : Nat) (f : Group → Group) : (s.updGroup k f).discards = s.discards := rfl
@[simp] theorem State.updGroup_discardFibre (k : Nat) (f : Group → Group) : (s.updGroup k f).discardFibre = s.discardFibre := rfl
@[simp] theorem State.updGroup_discardMs (k : Nat) (f : Group → Group) : (s.updGroup k f).discardMs = s.discardMs := rfl
@[simp] theorem State.updGroup_clockStep (k : Nat) (f : Group → Group) : (s.updGroup k f).clockStep = s.clockStep := rfl
@[simp] theorem State.updGroup_ceiling (k : Nat) (f : Group → Group) : (s.updGroup k f).ceiling = s.ceiling := rfl
@[simp] theorem State.updGroup_padLeft (k : Nat) (f : Group → Group) : (s.updGroup k f).padLeft = s.padLeft := rfl
@[simp] theorem State.updGroup_replies (k : Nat) (f : Group → Group) : (s.updGroup k f).replies = s.replies := rfl
@[simp] theorem State.updGroup_hostPending (k : Nat) (f : Group → Group) : (s.updGroup k f).hostPending = s.hostPending := rfl
@[simp] theorem State.updGroup_laneSlots (k : Nat) (f : Group → Group) : (s.updGroup k f).laneSlots = s.laneSlots := rfl
@[simp] theorem State.updGroup_fresh (k : Nat) (f : Group → Group) : (s.updGroup k f).fresh = s.fresh := rfl

/-! ### State.updTeam -/
@[simp] theorem State.updTeam_cur (k : Nat) (f : Team → Team) : (s.updTeam k f).cur = s.cur := rfl
@[simp] theorem State.updTeam_others (k : Nat) (f : Team → Team) : (s.updTeam k f).others = s.others := rfl
@[simp] theorem State.updTeam_launches (k : Nat) (f : Team → Team) : (s.updTeam k f).launches = s.launches := rfl
@[simp] theorem State.updTeam_ctxs (k : Nat) (f : Team → Team) : (s.updTeam k f).ctxs = s.ctxs := rfl
@[simp] theorem State.updTeam_cores (k : Nat) (f : Team → Team) : (s.updTeam k f).cores = s.cores := rfl
@[simp] theorem State.updTeam_mem (k : Nat) (f : Team → Team) : (s.updTeam k f).mem = s.mem := rfl
@[simp] theorem State.updTeam_poisoned (k : Nat) (f : Team → Team) : (s.updTeam k f).poisoned = s.poisoned := rfl
@[simp] theorem State.updTeam_poisonSeen (k : Nat) (f : Team → Team) : (s.updTeam k f).poisonSeen = s.poisonSeen := rfl
@[simp] theorem State.updTeam_soft (k : Nat) (f : Team → Team) : (s.updTeam k f).soft = s.soft := rfl
@[simp] theorem State.updTeam_now (k : Nat) (f : Team → Team) : (s.updTeam k f).now = s.now := rfl
@[simp] theorem State.updTeam_ns (k : Nat) (f : Team → Team) : (s.updTeam k f).ns = s.ns := rfl
@[simp] theorem State.updTeam_agenda (k : Nat) (f : Team → Team) : (s.updTeam k f).agenda = s.agenda := rfl
@[simp] theorem State.updTeam_work (k : Nat) (f : Team → Team) : (s.updTeam k f).work = s.work := rfl
@[simp] theorem State.updTeam_nextId (k : Nat) (f : Team → Team) : (s.updTeam k f).nextId = s.nextId := rfl
@[simp] theorem State.updTeam_tlb (k : Nat) (f : Team → Team) : (s.updTeam k f).tlb = s.tlb := rfl
@[simp] theorem State.updTeam_merges (k : Nat) (f : Team → Team) : (s.updTeam k f).merges = s.merges := rfl
@[simp] theorem State.updTeam_prgQueue (k : Nat) (f : Team → Team) : (s.updTeam k f).prgQueue = s.prgQueue := rfl
@[simp] theorem State.updTeam_prgOut (k : Nat) (f : Team → Team) : (s.updTeam k f).prgOut = s.prgOut := rfl
@[simp] theorem State.updTeam_allowance (k : Nat) (f : Team → Team) : (s.updTeam k f).allowance = s.allowance := rfl
@[simp] theorem State.updTeam_replicas (k : Nat) (f : Team → Team) : (s.updTeam k f).replicas = s.replicas := rfl
@[simp] theorem State.updTeam_pool (k : Nat) (f : Team → Team) : (s.updTeam k f).pool = s.pool := rfl
@[simp] theorem State.updTeam_poolTaken (k : Nat) (f : Team → Team) : (s.updTeam k f).poolTaken = s.poolTaken := rfl
@[simp] theorem State.updTeam_remotes (k : Nat) (f : Team → Team) : (s.updTeam k f).remotes = s.remotes := rfl
@[simp] theorem State.updTeam_inflight (k : Nat) (f : Team → Team) : (s.updTeam k f).inflight = s.inflight := rfl
@[simp] theorem State.updTeam_outbox (k : Nat) (f : Team → Team) : (s.updTeam k f).outbox = s.outbox := rfl
@[simp] theorem State.updTeam_windows (k : Nat) (f : Team → Team) : (s.updTeam k f).windows = s.windows := rfl
@[simp] theorem State.updTeam_acks (k : Nat) (f : Team → Team) : (s.updTeam k f).acks = s.acks := rfl
@[simp] theorem State.updTeam_deferred (k : Nat) (f : Team → Team) : (s.updTeam k f).deferred = s.deferred := rfl
@[simp] theorem State.updTeam_rows (k : Nat) (f : Team → Team) : (s.updTeam k f).rows = s.rows := rfl
@[simp] theorem State.updTeam_refresh (k : Nat) (f : Team → Team) : (s.updTeam k f).refresh = s.refresh := rfl
@[simp] theorem State.updTeam_bursts (k : Nat) (f : Team → Team) : (s.updTeam k f).bursts = s.bursts := rfl
@[simp] theorem State.updTeam_arbiters (k : Nat) (f : Team → Team) : (s.updTeam k f).arbiters = s.arbiters := rfl
@[simp] theorem State.updTeam_outTails (k : Nat) (f : Team → Team) : (s.updTeam k f).outTails = s.outTails := rfl
@[simp] theorem State.updTeam_faultSeq (k : Nat) (f : Team → Team) : (s.updTeam k f).faultSeq = s.faultSeq := rfl
@[simp] theorem State.updTeam_launchOrder (k : Nat) (f : Team → Team) : (s.updTeam k f).launchOrder = s.launchOrder := rfl
@[simp] theorem State.updTeam_queues (k : Nat) (f : Team → Team) : (s.updTeam k f).queues = s.queues := rfl
@[simp] theorem State.updTeam_ctxPasid (k : Nat) (f : Team → Team) : (s.updTeam k f).ctxPasid = s.ctxPasid := rfl
@[simp] theorem State.updTeam_bar2win (k : Nat) (f : Team → Team) : (s.updTeam k f).bar2win = s.bar2win := rfl
@[simp] theorem State.updTeam_bar2Log (k : Nat) (f : Team → Team) : (s.updTeam k f).bar2Log = s.bar2Log := rfl
@[simp] theorem State.updTeam_msixTable (k : Nat) (f : Team → Team) : (s.updTeam k f).msixTable = s.msixTable := rfl
@[simp] theorem State.updTeam_msixPending (k : Nat) (f : Team → Team) : (s.updTeam k f).msixPending = s.msixPending := rfl
@[simp] theorem State.updTeam_hostOut (k : Nat) (f : Team → Team) : (s.updTeam k f).hostOut = s.hostOut := rfl
@[simp] theorem State.updTeam_ats (k : Nat) (f : Team → Team) : (s.updTeam k f).ats = s.ats := rfl
@[simp] theorem State.updTeam_atsWaits (k : Nat) (f : Team → Team) : (s.updTeam k f).atsWaits = s.atsWaits := rfl
@[simp] theorem State.updTeam_log (k : Nat) (f : Team → Team) : (s.updTeam k f).log = s.log := rfl
@[simp] theorem State.updTeam_evHead (k : Nat) (f : Team → Team) : (s.updTeam k f).evHead = s.evHead := rfl
@[simp] theorem State.updTeam_evTail (k : Nat) (f : Team → Team) : (s.updTeam k f).evTail = s.evTail := rfl
@[simp] theorem State.updTeam_evDrop (k : Nat) (f : Team → Team) : (s.updTeam k f).evDrop = s.evDrop := rfl
@[simp] theorem State.updTeam_evHeld (k : Nat) (f : Team → Team) : (s.updTeam k f).evHeld = s.evHeld := rfl
@[simp] theorem State.updTeam_health (k : Nat) (f : Team → Team) : (s.updTeam k f).health = s.health := rfl
@[simp] theorem State.updTeam_params (k : Nat) (f : Team → Team) : (s.updTeam k f).params = s.params := rfl
@[simp] theorem State.updTeam_pbAddr (k : Nat) (f : Team → Team) : (s.updTeam k f).pbAddr = s.pbAddr := rfl
@[simp] theorem State.updTeam_spdm (k : Nat) (f : Team → Team) : (s.updTeam k f).spdm = s.spdm := rfl
@[simp] theorem State.updTeam_fenced (k : Nat) (f : Team → Team) : (s.updTeam k f).fenced = s.fenced := rfl
@[simp] theorem State.updTeam_errors (k : Nat) (f : Team → Team) : (s.updTeam k f).errors = s.errors := rfl
@[simp] theorem State.updTeam_badLanes (k : Nat) (f : Team → Team) : (s.updTeam k f).badLanes = s.badLanes := rfl
@[simp] theorem State.updTeam_badBeaters (k : Nat) (f : Team → Team) : (s.updTeam k f).badBeaters = s.badBeaters := rfl
@[simp] theorem State.updTeam_beaterChecks (k : Nat) (f : Team → Team) : (s.updTeam k f).beaterChecks = s.beaterChecks := rfl
@[simp] theorem State.updTeam_links (k : Nat) (f : Team → Team) : (s.updTeam k f).links = s.links := rfl
@[simp] theorem State.updTeam_cal (k : Nat) (f : Team → Team) : (s.updTeam k f).cal = s.cal := rfl
@[simp] theorem State.updTeam_calNew (k : Nat) (f : Team → Team) : (s.updTeam k f).calNew = s.calNew := rfl
@[simp] theorem State.updTeam_calPhase (k : Nat) (f : Team → Team) : (s.updTeam k f).calPhase = s.calPhase := rfl
@[simp] theorem State.updTeam_calOld (k : Nat) (f : Team → Team) : (s.updTeam k f).calOld = s.calOld := rfl
@[simp] theorem State.updTeam_heldOut (k : Nat) (f : Team → Team) : (s.updTeam k f).heldOut = s.heldOut := rfl
@[simp] theorem State.updTeam_slotsDone (k : Nat) (f : Team → Team) : (s.updTeam k f).slotsDone = s.slotsDone := rfl
@[simp] theorem State.updTeam_reach (k : Nat) (f : Team → Team) : (s.updTeam k f).reach = s.reach := rfl
@[simp] theorem State.updTeam_relays (k : Nat) (f : Team → Team) : (s.updTeam k f).relays = s.relays := rfl
@[simp] theorem State.updTeam_fibres (k : Nat) (f : Team → Team) : (s.updTeam k f).fibres = s.fibres := rfl
@[simp] theorem State.updTeam_discards (k : Nat) (f : Team → Team) : (s.updTeam k f).discards = s.discards := rfl
@[simp] theorem State.updTeam_discardFibre (k : Nat) (f : Team → Team) : (s.updTeam k f).discardFibre = s.discardFibre := rfl
@[simp] theorem State.updTeam_discardMs (k : Nat) (f : Team → Team) : (s.updTeam k f).discardMs = s.discardMs := rfl
@[simp] theorem State.updTeam_clockStep (k : Nat) (f : Team → Team) : (s.updTeam k f).clockStep = s.clockStep := rfl
@[simp] theorem State.updTeam_ceiling (k : Nat) (f : Team → Team) : (s.updTeam k f).ceiling = s.ceiling := rfl
@[simp] theorem State.updTeam_padLeft (k : Nat) (f : Team → Team) : (s.updTeam k f).padLeft = s.padLeft := rfl
@[simp] theorem State.updTeam_replies (k : Nat) (f : Team → Team) : (s.updTeam k f).replies = s.replies := rfl
@[simp] theorem State.updTeam_hostPending (k : Nat) (f : Team → Team) : (s.updTeam k f).hostPending = s.hostPending := rfl
@[simp] theorem State.updTeam_laneSlots (k : Nat) (f : Team → Team) : (s.updTeam k f).laneSlots = s.laneSlots := rfl
@[simp] theorem State.updTeam_fresh (k : Nat) (f : Team → Team) : (s.updTeam k f).fresh = s.fresh := rfl

/-! ### State.updLaunch -/
@[simp] theorem State.updLaunch_cur (k : Nat) (f : Launch → Launch) : (s.updLaunch k f).cur = s.cur := rfl
@[simp] theorem State.updLaunch_others (k : Nat) (f : Launch → Launch) : (s.updLaunch k f).others = s.others := rfl
@[simp] theorem State.updLaunch_teams (k : Nat) (f : Launch → Launch) : (s.updLaunch k f).teams = s.teams := rfl
@[simp] theorem State.updLaunch_ctxs (k : Nat) (f : Launch → Launch) : (s.updLaunch k f).ctxs = s.ctxs := rfl
@[simp] theorem State.updLaunch_cores (k : Nat) (f : Launch → Launch) : (s.updLaunch k f).cores = s.cores := rfl
@[simp] theorem State.updLaunch_mem (k : Nat) (f : Launch → Launch) : (s.updLaunch k f).mem = s.mem := rfl
@[simp] theorem State.updLaunch_poisoned (k : Nat) (f : Launch → Launch) : (s.updLaunch k f).poisoned = s.poisoned := rfl
@[simp] theorem State.updLaunch_poisonSeen (k : Nat) (f : Launch → Launch) : (s.updLaunch k f).poisonSeen = s.poisonSeen := rfl
@[simp] theorem State.updLaunch_soft (k : Nat) (f : Launch → Launch) : (s.updLaunch k f).soft = s.soft := rfl
@[simp] theorem State.updLaunch_now (k : Nat) (f : Launch → Launch) : (s.updLaunch k f).now = s.now := rfl
@[simp] theorem State.updLaunch_ns (k : Nat) (f : Launch → Launch) : (s.updLaunch k f).ns = s.ns := rfl
@[simp] theorem State.updLaunch_agenda (k : Nat) (f : Launch → Launch) : (s.updLaunch k f).agenda = s.agenda := rfl
@[simp] theorem State.updLaunch_work (k : Nat) (f : Launch → Launch) : (s.updLaunch k f).work = s.work := rfl
@[simp] theorem State.updLaunch_nextId (k : Nat) (f : Launch → Launch) : (s.updLaunch k f).nextId = s.nextId := rfl
@[simp] theorem State.updLaunch_tlb (k : Nat) (f : Launch → Launch) : (s.updLaunch k f).tlb = s.tlb := rfl
@[simp] theorem State.updLaunch_merges (k : Nat) (f : Launch → Launch) : (s.updLaunch k f).merges = s.merges := rfl
@[simp] theorem State.updLaunch_prgQueue (k : Nat) (f : Launch → Launch) : (s.updLaunch k f).prgQueue = s.prgQueue := rfl
@[simp] theorem State.updLaunch_prgOut (k : Nat) (f : Launch → Launch) : (s.updLaunch k f).prgOut = s.prgOut := rfl
@[simp] theorem State.updLaunch_allowance (k : Nat) (f : Launch → Launch) : (s.updLaunch k f).allowance = s.allowance := rfl
@[simp] theorem State.updLaunch_replicas (k : Nat) (f : Launch → Launch) : (s.updLaunch k f).replicas = s.replicas := rfl
@[simp] theorem State.updLaunch_pool (k : Nat) (f : Launch → Launch) : (s.updLaunch k f).pool = s.pool := rfl
@[simp] theorem State.updLaunch_poolTaken (k : Nat) (f : Launch → Launch) : (s.updLaunch k f).poolTaken = s.poolTaken := rfl
@[simp] theorem State.updLaunch_remotes (k : Nat) (f : Launch → Launch) : (s.updLaunch k f).remotes = s.remotes := rfl
@[simp] theorem State.updLaunch_inflight (k : Nat) (f : Launch → Launch) : (s.updLaunch k f).inflight = s.inflight := rfl
@[simp] theorem State.updLaunch_outbox (k : Nat) (f : Launch → Launch) : (s.updLaunch k f).outbox = s.outbox := rfl
@[simp] theorem State.updLaunch_windows (k : Nat) (f : Launch → Launch) : (s.updLaunch k f).windows = s.windows := rfl
@[simp] theorem State.updLaunch_acks (k : Nat) (f : Launch → Launch) : (s.updLaunch k f).acks = s.acks := rfl
@[simp] theorem State.updLaunch_deferred (k : Nat) (f : Launch → Launch) : (s.updLaunch k f).deferred = s.deferred := rfl
@[simp] theorem State.updLaunch_rows (k : Nat) (f : Launch → Launch) : (s.updLaunch k f).rows = s.rows := rfl
@[simp] theorem State.updLaunch_refresh (k : Nat) (f : Launch → Launch) : (s.updLaunch k f).refresh = s.refresh := rfl
@[simp] theorem State.updLaunch_bursts (k : Nat) (f : Launch → Launch) : (s.updLaunch k f).bursts = s.bursts := rfl
@[simp] theorem State.updLaunch_arbiters (k : Nat) (f : Launch → Launch) : (s.updLaunch k f).arbiters = s.arbiters := rfl
@[simp] theorem State.updLaunch_outTails (k : Nat) (f : Launch → Launch) : (s.updLaunch k f).outTails = s.outTails := rfl
@[simp] theorem State.updLaunch_faultSeq (k : Nat) (f : Launch → Launch) : (s.updLaunch k f).faultSeq = s.faultSeq := rfl
@[simp] theorem State.updLaunch_launchOrder (k : Nat) (f : Launch → Launch) : (s.updLaunch k f).launchOrder = s.launchOrder := rfl
@[simp] theorem State.updLaunch_queues (k : Nat) (f : Launch → Launch) : (s.updLaunch k f).queues = s.queues := rfl
@[simp] theorem State.updLaunch_ctxPasid (k : Nat) (f : Launch → Launch) : (s.updLaunch k f).ctxPasid = s.ctxPasid := rfl
@[simp] theorem State.updLaunch_bar2win (k : Nat) (f : Launch → Launch) : (s.updLaunch k f).bar2win = s.bar2win := rfl
@[simp] theorem State.updLaunch_bar2Log (k : Nat) (f : Launch → Launch) : (s.updLaunch k f).bar2Log = s.bar2Log := rfl
@[simp] theorem State.updLaunch_msixTable (k : Nat) (f : Launch → Launch) : (s.updLaunch k f).msixTable = s.msixTable := rfl
@[simp] theorem State.updLaunch_msixPending (k : Nat) (f : Launch → Launch) : (s.updLaunch k f).msixPending = s.msixPending := rfl
@[simp] theorem State.updLaunch_hostOut (k : Nat) (f : Launch → Launch) : (s.updLaunch k f).hostOut = s.hostOut := rfl
@[simp] theorem State.updLaunch_ats (k : Nat) (f : Launch → Launch) : (s.updLaunch k f).ats = s.ats := rfl
@[simp] theorem State.updLaunch_atsWaits (k : Nat) (f : Launch → Launch) : (s.updLaunch k f).atsWaits = s.atsWaits := rfl
@[simp] theorem State.updLaunch_log (k : Nat) (f : Launch → Launch) : (s.updLaunch k f).log = s.log := rfl
@[simp] theorem State.updLaunch_evHead (k : Nat) (f : Launch → Launch) : (s.updLaunch k f).evHead = s.evHead := rfl
@[simp] theorem State.updLaunch_evTail (k : Nat) (f : Launch → Launch) : (s.updLaunch k f).evTail = s.evTail := rfl
@[simp] theorem State.updLaunch_evDrop (k : Nat) (f : Launch → Launch) : (s.updLaunch k f).evDrop = s.evDrop := rfl
@[simp] theorem State.updLaunch_evHeld (k : Nat) (f : Launch → Launch) : (s.updLaunch k f).evHeld = s.evHeld := rfl
@[simp] theorem State.updLaunch_health (k : Nat) (f : Launch → Launch) : (s.updLaunch k f).health = s.health := rfl
@[simp] theorem State.updLaunch_params (k : Nat) (f : Launch → Launch) : (s.updLaunch k f).params = s.params := rfl
@[simp] theorem State.updLaunch_pbAddr (k : Nat) (f : Launch → Launch) : (s.updLaunch k f).pbAddr = s.pbAddr := rfl
@[simp] theorem State.updLaunch_spdm (k : Nat) (f : Launch → Launch) : (s.updLaunch k f).spdm = s.spdm := rfl
@[simp] theorem State.updLaunch_fenced (k : Nat) (f : Launch → Launch) : (s.updLaunch k f).fenced = s.fenced := rfl
@[simp] theorem State.updLaunch_errors (k : Nat) (f : Launch → Launch) : (s.updLaunch k f).errors = s.errors := rfl
@[simp] theorem State.updLaunch_badLanes (k : Nat) (f : Launch → Launch) : (s.updLaunch k f).badLanes = s.badLanes := rfl
@[simp] theorem State.updLaunch_badBeaters (k : Nat) (f : Launch → Launch) : (s.updLaunch k f).badBeaters = s.badBeaters := rfl
@[simp] theorem State.updLaunch_beaterChecks (k : Nat) (f : Launch → Launch) : (s.updLaunch k f).beaterChecks = s.beaterChecks := rfl
@[simp] theorem State.updLaunch_links (k : Nat) (f : Launch → Launch) : (s.updLaunch k f).links = s.links := rfl
@[simp] theorem State.updLaunch_cal (k : Nat) (f : Launch → Launch) : (s.updLaunch k f).cal = s.cal := rfl
@[simp] theorem State.updLaunch_calNew (k : Nat) (f : Launch → Launch) : (s.updLaunch k f).calNew = s.calNew := rfl
@[simp] theorem State.updLaunch_calPhase (k : Nat) (f : Launch → Launch) : (s.updLaunch k f).calPhase = s.calPhase := rfl
@[simp] theorem State.updLaunch_calOld (k : Nat) (f : Launch → Launch) : (s.updLaunch k f).calOld = s.calOld := rfl
@[simp] theorem State.updLaunch_heldOut (k : Nat) (f : Launch → Launch) : (s.updLaunch k f).heldOut = s.heldOut := rfl
@[simp] theorem State.updLaunch_slotsDone (k : Nat) (f : Launch → Launch) : (s.updLaunch k f).slotsDone = s.slotsDone := rfl
@[simp] theorem State.updLaunch_reach (k : Nat) (f : Launch → Launch) : (s.updLaunch k f).reach = s.reach := rfl
@[simp] theorem State.updLaunch_relays (k : Nat) (f : Launch → Launch) : (s.updLaunch k f).relays = s.relays := rfl
@[simp] theorem State.updLaunch_fibres (k : Nat) (f : Launch → Launch) : (s.updLaunch k f).fibres = s.fibres := rfl
@[simp] theorem State.updLaunch_discards (k : Nat) (f : Launch → Launch) : (s.updLaunch k f).discards = s.discards := rfl
@[simp] theorem State.updLaunch_discardFibre (k : Nat) (f : Launch → Launch) : (s.updLaunch k f).discardFibre = s.discardFibre := rfl
@[simp] theorem State.updLaunch_discardMs (k : Nat) (f : Launch → Launch) : (s.updLaunch k f).discardMs = s.discardMs := rfl
@[simp] theorem State.updLaunch_clockStep (k : Nat) (f : Launch → Launch) : (s.updLaunch k f).clockStep = s.clockStep := rfl
@[simp] theorem State.updLaunch_ceiling (k : Nat) (f : Launch → Launch) : (s.updLaunch k f).ceiling = s.ceiling := rfl
@[simp] theorem State.updLaunch_padLeft (k : Nat) (f : Launch → Launch) : (s.updLaunch k f).padLeft = s.padLeft := rfl
@[simp] theorem State.updLaunch_replies (k : Nat) (f : Launch → Launch) : (s.updLaunch k f).replies = s.replies := rfl
@[simp] theorem State.updLaunch_hostPending (k : Nat) (f : Launch → Launch) : (s.updLaunch k f).hostPending = s.hostPending := rfl
@[simp] theorem State.updLaunch_laneSlots (k : Nat) (f : Launch → Launch) : (s.updLaunch k f).laneSlots = s.laneSlots := rfl
@[simp] theorem State.updLaunch_fresh (k : Nat) (f : Launch → Launch) : (s.updLaunch k f).fresh = s.fresh := rfl

/-! ### State.updCtx -/
@[simp] theorem State.updCtx_cur (k : Nat) (f : Ctx → Ctx) : (s.updCtx k f).cur = s.cur := rfl
@[simp] theorem State.updCtx_others (k : Nat) (f : Ctx → Ctx) : (s.updCtx k f).others = s.others := rfl
@[simp] theorem State.updCtx_teams (k : Nat) (f : Ctx → Ctx) : (s.updCtx k f).teams = s.teams := rfl
@[simp] theorem State.updCtx_launches (k : Nat) (f : Ctx → Ctx) : (s.updCtx k f).launches = s.launches := rfl
@[simp] theorem State.updCtx_cores (k : Nat) (f : Ctx → Ctx) : (s.updCtx k f).cores = s.cores := rfl
@[simp] theorem State.updCtx_mem (k : Nat) (f : Ctx → Ctx) : (s.updCtx k f).mem = s.mem := rfl
@[simp] theorem State.updCtx_poisoned (k : Nat) (f : Ctx → Ctx) : (s.updCtx k f).poisoned = s.poisoned := rfl
@[simp] theorem State.updCtx_poisonSeen (k : Nat) (f : Ctx → Ctx) : (s.updCtx k f).poisonSeen = s.poisonSeen := rfl
@[simp] theorem State.updCtx_soft (k : Nat) (f : Ctx → Ctx) : (s.updCtx k f).soft = s.soft := rfl
@[simp] theorem State.updCtx_now (k : Nat) (f : Ctx → Ctx) : (s.updCtx k f).now = s.now := rfl
@[simp] theorem State.updCtx_ns (k : Nat) (f : Ctx → Ctx) : (s.updCtx k f).ns = s.ns := rfl
@[simp] theorem State.updCtx_agenda (k : Nat) (f : Ctx → Ctx) : (s.updCtx k f).agenda = s.agenda := rfl
@[simp] theorem State.updCtx_work (k : Nat) (f : Ctx → Ctx) : (s.updCtx k f).work = s.work := rfl
@[simp] theorem State.updCtx_nextId (k : Nat) (f : Ctx → Ctx) : (s.updCtx k f).nextId = s.nextId := rfl
@[simp] theorem State.updCtx_tlb (k : Nat) (f : Ctx → Ctx) : (s.updCtx k f).tlb = s.tlb := rfl
@[simp] theorem State.updCtx_merges (k : Nat) (f : Ctx → Ctx) : (s.updCtx k f).merges = s.merges := rfl
@[simp] theorem State.updCtx_prgQueue (k : Nat) (f : Ctx → Ctx) : (s.updCtx k f).prgQueue = s.prgQueue := rfl
@[simp] theorem State.updCtx_prgOut (k : Nat) (f : Ctx → Ctx) : (s.updCtx k f).prgOut = s.prgOut := rfl
@[simp] theorem State.updCtx_allowance (k : Nat) (f : Ctx → Ctx) : (s.updCtx k f).allowance = s.allowance := rfl
@[simp] theorem State.updCtx_replicas (k : Nat) (f : Ctx → Ctx) : (s.updCtx k f).replicas = s.replicas := rfl
@[simp] theorem State.updCtx_pool (k : Nat) (f : Ctx → Ctx) : (s.updCtx k f).pool = s.pool := rfl
@[simp] theorem State.updCtx_poolTaken (k : Nat) (f : Ctx → Ctx) : (s.updCtx k f).poolTaken = s.poolTaken := rfl
@[simp] theorem State.updCtx_remotes (k : Nat) (f : Ctx → Ctx) : (s.updCtx k f).remotes = s.remotes := rfl
@[simp] theorem State.updCtx_inflight (k : Nat) (f : Ctx → Ctx) : (s.updCtx k f).inflight = s.inflight := rfl
@[simp] theorem State.updCtx_outbox (k : Nat) (f : Ctx → Ctx) : (s.updCtx k f).outbox = s.outbox := rfl
@[simp] theorem State.updCtx_windows (k : Nat) (f : Ctx → Ctx) : (s.updCtx k f).windows = s.windows := rfl
@[simp] theorem State.updCtx_acks (k : Nat) (f : Ctx → Ctx) : (s.updCtx k f).acks = s.acks := rfl
@[simp] theorem State.updCtx_deferred (k : Nat) (f : Ctx → Ctx) : (s.updCtx k f).deferred = s.deferred := rfl
@[simp] theorem State.updCtx_rows (k : Nat) (f : Ctx → Ctx) : (s.updCtx k f).rows = s.rows := rfl
@[simp] theorem State.updCtx_refresh (k : Nat) (f : Ctx → Ctx) : (s.updCtx k f).refresh = s.refresh := rfl
@[simp] theorem State.updCtx_bursts (k : Nat) (f : Ctx → Ctx) : (s.updCtx k f).bursts = s.bursts := rfl
@[simp] theorem State.updCtx_arbiters (k : Nat) (f : Ctx → Ctx) : (s.updCtx k f).arbiters = s.arbiters := rfl
@[simp] theorem State.updCtx_outTails (k : Nat) (f : Ctx → Ctx) : (s.updCtx k f).outTails = s.outTails := rfl
@[simp] theorem State.updCtx_faultSeq (k : Nat) (f : Ctx → Ctx) : (s.updCtx k f).faultSeq = s.faultSeq := rfl
@[simp] theorem State.updCtx_launchOrder (k : Nat) (f : Ctx → Ctx) : (s.updCtx k f).launchOrder = s.launchOrder := rfl
@[simp] theorem State.updCtx_queues (k : Nat) (f : Ctx → Ctx) : (s.updCtx k f).queues = s.queues := rfl
@[simp] theorem State.updCtx_ctxPasid (k : Nat) (f : Ctx → Ctx) : (s.updCtx k f).ctxPasid = s.ctxPasid := rfl
@[simp] theorem State.updCtx_bar2win (k : Nat) (f : Ctx → Ctx) : (s.updCtx k f).bar2win = s.bar2win := rfl
@[simp] theorem State.updCtx_bar2Log (k : Nat) (f : Ctx → Ctx) : (s.updCtx k f).bar2Log = s.bar2Log := rfl
@[simp] theorem State.updCtx_msixTable (k : Nat) (f : Ctx → Ctx) : (s.updCtx k f).msixTable = s.msixTable := rfl
@[simp] theorem State.updCtx_msixPending (k : Nat) (f : Ctx → Ctx) : (s.updCtx k f).msixPending = s.msixPending := rfl
@[simp] theorem State.updCtx_hostOut (k : Nat) (f : Ctx → Ctx) : (s.updCtx k f).hostOut = s.hostOut := rfl
@[simp] theorem State.updCtx_ats (k : Nat) (f : Ctx → Ctx) : (s.updCtx k f).ats = s.ats := rfl
@[simp] theorem State.updCtx_atsWaits (k : Nat) (f : Ctx → Ctx) : (s.updCtx k f).atsWaits = s.atsWaits := rfl
@[simp] theorem State.updCtx_log (k : Nat) (f : Ctx → Ctx) : (s.updCtx k f).log = s.log := rfl
@[simp] theorem State.updCtx_evHead (k : Nat) (f : Ctx → Ctx) : (s.updCtx k f).evHead = s.evHead := rfl
@[simp] theorem State.updCtx_evTail (k : Nat) (f : Ctx → Ctx) : (s.updCtx k f).evTail = s.evTail := rfl
@[simp] theorem State.updCtx_evDrop (k : Nat) (f : Ctx → Ctx) : (s.updCtx k f).evDrop = s.evDrop := rfl
@[simp] theorem State.updCtx_evHeld (k : Nat) (f : Ctx → Ctx) : (s.updCtx k f).evHeld = s.evHeld := rfl
@[simp] theorem State.updCtx_health (k : Nat) (f : Ctx → Ctx) : (s.updCtx k f).health = s.health := rfl
@[simp] theorem State.updCtx_params (k : Nat) (f : Ctx → Ctx) : (s.updCtx k f).params = s.params := rfl
@[simp] theorem State.updCtx_pbAddr (k : Nat) (f : Ctx → Ctx) : (s.updCtx k f).pbAddr = s.pbAddr := rfl
@[simp] theorem State.updCtx_spdm (k : Nat) (f : Ctx → Ctx) : (s.updCtx k f).spdm = s.spdm := rfl
@[simp] theorem State.updCtx_fenced (k : Nat) (f : Ctx → Ctx) : (s.updCtx k f).fenced = s.fenced := rfl
@[simp] theorem State.updCtx_errors (k : Nat) (f : Ctx → Ctx) : (s.updCtx k f).errors = s.errors := rfl
@[simp] theorem State.updCtx_badLanes (k : Nat) (f : Ctx → Ctx) : (s.updCtx k f).badLanes = s.badLanes := rfl
@[simp] theorem State.updCtx_badBeaters (k : Nat) (f : Ctx → Ctx) : (s.updCtx k f).badBeaters = s.badBeaters := rfl
@[simp] theorem State.updCtx_beaterChecks (k : Nat) (f : Ctx → Ctx) : (s.updCtx k f).beaterChecks = s.beaterChecks := rfl
@[simp] theorem State.updCtx_links (k : Nat) (f : Ctx → Ctx) : (s.updCtx k f).links = s.links := rfl
@[simp] theorem State.updCtx_cal (k : Nat) (f : Ctx → Ctx) : (s.updCtx k f).cal = s.cal := rfl
@[simp] theorem State.updCtx_calNew (k : Nat) (f : Ctx → Ctx) : (s.updCtx k f).calNew = s.calNew := rfl
@[simp] theorem State.updCtx_calPhase (k : Nat) (f : Ctx → Ctx) : (s.updCtx k f).calPhase = s.calPhase := rfl
@[simp] theorem State.updCtx_calOld (k : Nat) (f : Ctx → Ctx) : (s.updCtx k f).calOld = s.calOld := rfl
@[simp] theorem State.updCtx_heldOut (k : Nat) (f : Ctx → Ctx) : (s.updCtx k f).heldOut = s.heldOut := rfl
@[simp] theorem State.updCtx_slotsDone (k : Nat) (f : Ctx → Ctx) : (s.updCtx k f).slotsDone = s.slotsDone := rfl
@[simp] theorem State.updCtx_reach (k : Nat) (f : Ctx → Ctx) : (s.updCtx k f).reach = s.reach := rfl
@[simp] theorem State.updCtx_relays (k : Nat) (f : Ctx → Ctx) : (s.updCtx k f).relays = s.relays := rfl
@[simp] theorem State.updCtx_fibres (k : Nat) (f : Ctx → Ctx) : (s.updCtx k f).fibres = s.fibres := rfl
@[simp] theorem State.updCtx_discards (k : Nat) (f : Ctx → Ctx) : (s.updCtx k f).discards = s.discards := rfl
@[simp] theorem State.updCtx_discardFibre (k : Nat) (f : Ctx → Ctx) : (s.updCtx k f).discardFibre = s.discardFibre := rfl
@[simp] theorem State.updCtx_discardMs (k : Nat) (f : Ctx → Ctx) : (s.updCtx k f).discardMs = s.discardMs := rfl
@[simp] theorem State.updCtx_clockStep (k : Nat) (f : Ctx → Ctx) : (s.updCtx k f).clockStep = s.clockStep := rfl
@[simp] theorem State.updCtx_ceiling (k : Nat) (f : Ctx → Ctx) : (s.updCtx k f).ceiling = s.ceiling := rfl
@[simp] theorem State.updCtx_padLeft (k : Nat) (f : Ctx → Ctx) : (s.updCtx k f).padLeft = s.padLeft := rfl
@[simp] theorem State.updCtx_replies (k : Nat) (f : Ctx → Ctx) : (s.updCtx k f).replies = s.replies := rfl
@[simp] theorem State.updCtx_hostPending (k : Nat) (f : Ctx → Ctx) : (s.updCtx k f).hostPending = s.hostPending := rfl
@[simp] theorem State.updCtx_laneSlots (k : Nat) (f : Ctx → Ctx) : (s.updCtx k f).laneSlots = s.laneSlots := rfl
@[simp] theorem State.updCtx_fresh (k : Nat) (f : Ctx → Ctx) : (s.updCtx k f).fresh = s.fresh := rfl

/-! ### State.setCore -/
@[simp] theorem State.setCore_cur (c : Core) : (s.setCore c).cur = s.cur := rfl
@[simp] theorem State.setCore_others (c : Core) : (s.setCore c).others = s.others := rfl
@[simp] theorem State.setCore_teams (c : Core) : (s.setCore c).teams = s.teams := rfl
@[simp] theorem State.setCore_launches (c : Core) : (s.setCore c).launches = s.launches := rfl
@[simp] theorem State.setCore_ctxs (c : Core) : (s.setCore c).ctxs = s.ctxs := rfl
@[simp] theorem State.setCore_mem (c : Core) : (s.setCore c).mem = s.mem := rfl
@[simp] theorem State.setCore_poisoned (c : Core) : (s.setCore c).poisoned = s.poisoned := rfl
@[simp] theorem State.setCore_poisonSeen (c : Core) : (s.setCore c).poisonSeen = s.poisonSeen := rfl
@[simp] theorem State.setCore_soft (c : Core) : (s.setCore c).soft = s.soft := rfl
@[simp] theorem State.setCore_now (c : Core) : (s.setCore c).now = s.now := rfl
@[simp] theorem State.setCore_ns (c : Core) : (s.setCore c).ns = s.ns := rfl
@[simp] theorem State.setCore_agenda (c : Core) : (s.setCore c).agenda = s.agenda := rfl
@[simp] theorem State.setCore_work (c : Core) : (s.setCore c).work = s.work := rfl
@[simp] theorem State.setCore_nextId (c : Core) : (s.setCore c).nextId = s.nextId := rfl
@[simp] theorem State.setCore_tlb (c : Core) : (s.setCore c).tlb = s.tlb := rfl
@[simp] theorem State.setCore_merges (c : Core) : (s.setCore c).merges = s.merges := rfl
@[simp] theorem State.setCore_prgQueue (c : Core) : (s.setCore c).prgQueue = s.prgQueue := rfl
@[simp] theorem State.setCore_prgOut (c : Core) : (s.setCore c).prgOut = s.prgOut := rfl
@[simp] theorem State.setCore_allowance (c : Core) : (s.setCore c).allowance = s.allowance := rfl
@[simp] theorem State.setCore_replicas (c : Core) : (s.setCore c).replicas = s.replicas := rfl
@[simp] theorem State.setCore_pool (c : Core) : (s.setCore c).pool = s.pool := rfl
@[simp] theorem State.setCore_poolTaken (c : Core) : (s.setCore c).poolTaken = s.poolTaken := rfl
@[simp] theorem State.setCore_remotes (c : Core) : (s.setCore c).remotes = s.remotes := rfl
@[simp] theorem State.setCore_inflight (c : Core) : (s.setCore c).inflight = s.inflight := rfl
@[simp] theorem State.setCore_outbox (c : Core) : (s.setCore c).outbox = s.outbox := rfl
@[simp] theorem State.setCore_windows (c : Core) : (s.setCore c).windows = s.windows := rfl
@[simp] theorem State.setCore_acks (c : Core) : (s.setCore c).acks = s.acks := rfl
@[simp] theorem State.setCore_deferred (c : Core) : (s.setCore c).deferred = s.deferred := rfl
@[simp] theorem State.setCore_rows (c : Core) : (s.setCore c).rows = s.rows := rfl
@[simp] theorem State.setCore_refresh (c : Core) : (s.setCore c).refresh = s.refresh := rfl
@[simp] theorem State.setCore_bursts (c : Core) : (s.setCore c).bursts = s.bursts := rfl
@[simp] theorem State.setCore_arbiters (c : Core) : (s.setCore c).arbiters = s.arbiters := rfl
@[simp] theorem State.setCore_outTails (c : Core) : (s.setCore c).outTails = s.outTails := rfl
@[simp] theorem State.setCore_faultSeq (c : Core) : (s.setCore c).faultSeq = s.faultSeq := rfl
@[simp] theorem State.setCore_launchOrder (c : Core) : (s.setCore c).launchOrder = s.launchOrder := rfl
@[simp] theorem State.setCore_queues (c : Core) : (s.setCore c).queues = s.queues := rfl
@[simp] theorem State.setCore_ctxPasid (c : Core) : (s.setCore c).ctxPasid = s.ctxPasid := rfl
@[simp] theorem State.setCore_bar2win (c : Core) : (s.setCore c).bar2win = s.bar2win := rfl
@[simp] theorem State.setCore_bar2Log (c : Core) : (s.setCore c).bar2Log = s.bar2Log := rfl
@[simp] theorem State.setCore_msixTable (c : Core) : (s.setCore c).msixTable = s.msixTable := rfl
@[simp] theorem State.setCore_msixPending (c : Core) : (s.setCore c).msixPending = s.msixPending := rfl
@[simp] theorem State.setCore_hostOut (c : Core) : (s.setCore c).hostOut = s.hostOut := rfl
@[simp] theorem State.setCore_ats (c : Core) : (s.setCore c).ats = s.ats := rfl
@[simp] theorem State.setCore_atsWaits (c : Core) : (s.setCore c).atsWaits = s.atsWaits := rfl
@[simp] theorem State.setCore_log (c : Core) : (s.setCore c).log = s.log := rfl
@[simp] theorem State.setCore_evHead (c : Core) : (s.setCore c).evHead = s.evHead := rfl
@[simp] theorem State.setCore_evTail (c : Core) : (s.setCore c).evTail = s.evTail := rfl
@[simp] theorem State.setCore_evDrop (c : Core) : (s.setCore c).evDrop = s.evDrop := rfl
@[simp] theorem State.setCore_evHeld (c : Core) : (s.setCore c).evHeld = s.evHeld := rfl
@[simp] theorem State.setCore_health (c : Core) : (s.setCore c).health = s.health := rfl
@[simp] theorem State.setCore_params (c : Core) : (s.setCore c).params = s.params := rfl
@[simp] theorem State.setCore_pbAddr (c : Core) : (s.setCore c).pbAddr = s.pbAddr := rfl
@[simp] theorem State.setCore_spdm (c : Core) : (s.setCore c).spdm = s.spdm := rfl
@[simp] theorem State.setCore_fenced (c : Core) : (s.setCore c).fenced = s.fenced := rfl
@[simp] theorem State.setCore_errors (c : Core) : (s.setCore c).errors = s.errors := rfl
@[simp] theorem State.setCore_badLanes (c : Core) : (s.setCore c).badLanes = s.badLanes := rfl
@[simp] theorem State.setCore_badBeaters (c : Core) : (s.setCore c).badBeaters = s.badBeaters := rfl
@[simp] theorem State.setCore_beaterChecks (c : Core) : (s.setCore c).beaterChecks = s.beaterChecks := rfl
@[simp] theorem State.setCore_links (c : Core) : (s.setCore c).links = s.links := rfl
@[simp] theorem State.setCore_cal (c : Core) : (s.setCore c).cal = s.cal := rfl
@[simp] theorem State.setCore_calNew (c : Core) : (s.setCore c).calNew = s.calNew := rfl
@[simp] theorem State.setCore_calPhase (c : Core) : (s.setCore c).calPhase = s.calPhase := rfl
@[simp] theorem State.setCore_calOld (c : Core) : (s.setCore c).calOld = s.calOld := rfl
@[simp] theorem State.setCore_heldOut (c : Core) : (s.setCore c).heldOut = s.heldOut := rfl
@[simp] theorem State.setCore_slotsDone (c : Core) : (s.setCore c).slotsDone = s.slotsDone := rfl
@[simp] theorem State.setCore_reach (c : Core) : (s.setCore c).reach = s.reach := rfl
@[simp] theorem State.setCore_relays (c : Core) : (s.setCore c).relays = s.relays := rfl
@[simp] theorem State.setCore_fibres (c : Core) : (s.setCore c).fibres = s.fibres := rfl
@[simp] theorem State.setCore_discards (c : Core) : (s.setCore c).discards = s.discards := rfl
@[simp] theorem State.setCore_discardFibre (c : Core) : (s.setCore c).discardFibre = s.discardFibre := rfl
@[simp] theorem State.setCore_discardMs (c : Core) : (s.setCore c).discardMs = s.discardMs := rfl
@[simp] theorem State.setCore_clockStep (c : Core) : (s.setCore c).clockStep = s.clockStep := rfl
@[simp] theorem State.setCore_ceiling (c : Core) : (s.setCore c).ceiling = s.ceiling := rfl
@[simp] theorem State.setCore_padLeft (c : Core) : (s.setCore c).padLeft = s.padLeft := rfl
@[simp] theorem State.setCore_replies (c : Core) : (s.setCore c).replies = s.replies := rfl
@[simp] theorem State.setCore_hostPending (c : Core) : (s.setCore c).hostPending = s.hostPending := rfl
@[simp] theorem State.setCore_laneSlots (c : Core) : (s.setCore c).laneSlots = s.laneSlots := rfl
@[simp] theorem State.setCore_fresh (c : Core) : (s.setCore c).fresh = s.fresh := rfl

/-! ### State.writeBytes -/
@[simp] theorem State.writeBytes_cur (k : Nat) (bs : List Byte) : (s.writeBytes k bs).cur = s.cur := rfl
@[simp] theorem State.writeBytes_others (k : Nat) (bs : List Byte) : (s.writeBytes k bs).others = s.others := rfl
@[simp] theorem State.writeBytes_teams (k : Nat) (bs : List Byte) : (s.writeBytes k bs).teams = s.teams := rfl
@[simp] theorem State.writeBytes_launches (k : Nat) (bs : List Byte) : (s.writeBytes k bs).launches = s.launches := rfl
@[simp] theorem State.writeBytes_ctxs (k : Nat) (bs : List Byte) : (s.writeBytes k bs).ctxs = s.ctxs := rfl
@[simp] theorem State.writeBytes_cores (k : Nat) (bs : List Byte) : (s.writeBytes k bs).cores = s.cores := rfl
@[simp] theorem State.writeBytes_now (k : Nat) (bs : List Byte) : (s.writeBytes k bs).now = s.now := rfl
@[simp] theorem State.writeBytes_ns (k : Nat) (bs : List Byte) : (s.writeBytes k bs).ns = s.ns := rfl
@[simp] theorem State.writeBytes_agenda (k : Nat) (bs : List Byte) : (s.writeBytes k bs).agenda = s.agenda := rfl
@[simp] theorem State.writeBytes_work (k : Nat) (bs : List Byte) : (s.writeBytes k bs).work = s.work := rfl
@[simp] theorem State.writeBytes_nextId (k : Nat) (bs : List Byte) : (s.writeBytes k bs).nextId = s.nextId := rfl
@[simp] theorem State.writeBytes_tlb (k : Nat) (bs : List Byte) : (s.writeBytes k bs).tlb = s.tlb := rfl
@[simp] theorem State.writeBytes_merges (k : Nat) (bs : List Byte) : (s.writeBytes k bs).merges = s.merges := rfl
@[simp] theorem State.writeBytes_prgQueue (k : Nat) (bs : List Byte) : (s.writeBytes k bs).prgQueue = s.prgQueue := rfl
@[simp] theorem State.writeBytes_prgOut (k : Nat) (bs : List Byte) : (s.writeBytes k bs).prgOut = s.prgOut := rfl
@[simp] theorem State.writeBytes_allowance (k : Nat) (bs : List Byte) : (s.writeBytes k bs).allowance = s.allowance := rfl
@[simp] theorem State.writeBytes_replicas (k : Nat) (bs : List Byte) : (s.writeBytes k bs).replicas = s.replicas := rfl
@[simp] theorem State.writeBytes_pool (k : Nat) (bs : List Byte) : (s.writeBytes k bs).pool = s.pool := rfl
@[simp] theorem State.writeBytes_poolTaken (k : Nat) (bs : List Byte) : (s.writeBytes k bs).poolTaken = s.poolTaken := rfl
@[simp] theorem State.writeBytes_remotes (k : Nat) (bs : List Byte) : (s.writeBytes k bs).remotes = s.remotes := rfl
@[simp] theorem State.writeBytes_inflight (k : Nat) (bs : List Byte) : (s.writeBytes k bs).inflight = s.inflight := rfl
@[simp] theorem State.writeBytes_outbox (k : Nat) (bs : List Byte) : (s.writeBytes k bs).outbox = s.outbox := rfl
@[simp] theorem State.writeBytes_windows (k : Nat) (bs : List Byte) : (s.writeBytes k bs).windows = s.windows := rfl
@[simp] theorem State.writeBytes_acks (k : Nat) (bs : List Byte) : (s.writeBytes k bs).acks = s.acks := rfl
@[simp] theorem State.writeBytes_deferred (k : Nat) (bs : List Byte) : (s.writeBytes k bs).deferred = s.deferred := rfl
@[simp] theorem State.writeBytes_rows (k : Nat) (bs : List Byte) : (s.writeBytes k bs).rows = s.rows := rfl
@[simp] theorem State.writeBytes_refresh (k : Nat) (bs : List Byte) : (s.writeBytes k bs).refresh = s.refresh := rfl
@[simp] theorem State.writeBytes_bursts (k : Nat) (bs : List Byte) : (s.writeBytes k bs).bursts = s.bursts := rfl
@[simp] theorem State.writeBytes_arbiters (k : Nat) (bs : List Byte) : (s.writeBytes k bs).arbiters = s.arbiters := rfl
@[simp] theorem State.writeBytes_outTails (k : Nat) (bs : List Byte) : (s.writeBytes k bs).outTails = s.outTails := rfl
@[simp] theorem State.writeBytes_faultSeq (k : Nat) (bs : List Byte) : (s.writeBytes k bs).faultSeq = s.faultSeq := rfl
@[simp] theorem State.writeBytes_launchOrder (k : Nat) (bs : List Byte) : (s.writeBytes k bs).launchOrder = s.launchOrder := rfl
@[simp] theorem State.writeBytes_queues (k : Nat) (bs : List Byte) : (s.writeBytes k bs).queues = s.queues := rfl
@[simp] theorem State.writeBytes_ctxPasid (k : Nat) (bs : List Byte) : (s.writeBytes k bs).ctxPasid = s.ctxPasid := rfl
@[simp] theorem State.writeBytes_bar2win (k : Nat) (bs : List Byte) : (s.writeBytes k bs).bar2win = s.bar2win := rfl
@[simp] theorem State.writeBytes_bar2Log (k : Nat) (bs : List Byte) : (s.writeBytes k bs).bar2Log = s.bar2Log := rfl
@[simp] theorem State.writeBytes_msixTable (k : Nat) (bs : List Byte) : (s.writeBytes k bs).msixTable = s.msixTable := rfl
@[simp] theorem State.writeBytes_msixPending (k : Nat) (bs : List Byte) : (s.writeBytes k bs).msixPending = s.msixPending := rfl
@[simp] theorem State.writeBytes_hostOut (k : Nat) (bs : List Byte) : (s.writeBytes k bs).hostOut = s.hostOut := rfl
@[simp] theorem State.writeBytes_ats (k : Nat) (bs : List Byte) : (s.writeBytes k bs).ats = s.ats := rfl
@[simp] theorem State.writeBytes_atsWaits (k : Nat) (bs : List Byte) : (s.writeBytes k bs).atsWaits = s.atsWaits := rfl
@[simp] theorem State.writeBytes_log (k : Nat) (bs : List Byte) : (s.writeBytes k bs).log = s.log := rfl
@[simp] theorem State.writeBytes_evHead (k : Nat) (bs : List Byte) : (s.writeBytes k bs).evHead = s.evHead := rfl
@[simp] theorem State.writeBytes_evTail (k : Nat) (bs : List Byte) : (s.writeBytes k bs).evTail = s.evTail := rfl
@[simp] theorem State.writeBytes_evDrop (k : Nat) (bs : List Byte) : (s.writeBytes k bs).evDrop = s.evDrop := rfl
@[simp] theorem State.writeBytes_evHeld (k : Nat) (bs : List Byte) : (s.writeBytes k bs).evHeld = s.evHeld := rfl
@[simp] theorem State.writeBytes_health (k : Nat) (bs : List Byte) : (s.writeBytes k bs).health = s.health := rfl
@[simp] theorem State.writeBytes_params (k : Nat) (bs : List Byte) : (s.writeBytes k bs).params = s.params := rfl
@[simp] theorem State.writeBytes_pbAddr (k : Nat) (bs : List Byte) : (s.writeBytes k bs).pbAddr = s.pbAddr := rfl
@[simp] theorem State.writeBytes_spdm (k : Nat) (bs : List Byte) : (s.writeBytes k bs).spdm = s.spdm := rfl
@[simp] theorem State.writeBytes_fenced (k : Nat) (bs : List Byte) : (s.writeBytes k bs).fenced = s.fenced := rfl
@[simp] theorem State.writeBytes_errors (k : Nat) (bs : List Byte) : (s.writeBytes k bs).errors = s.errors := rfl
@[simp] theorem State.writeBytes_badLanes (k : Nat) (bs : List Byte) : (s.writeBytes k bs).badLanes = s.badLanes := rfl
@[simp] theorem State.writeBytes_badBeaters (k : Nat) (bs : List Byte) : (s.writeBytes k bs).badBeaters = s.badBeaters := rfl
@[simp] theorem State.writeBytes_beaterChecks (k : Nat) (bs : List Byte) : (s.writeBytes k bs).beaterChecks = s.beaterChecks := rfl
@[simp] theorem State.writeBytes_links (k : Nat) (bs : List Byte) : (s.writeBytes k bs).links = s.links := rfl
@[simp] theorem State.writeBytes_cal (k : Nat) (bs : List Byte) : (s.writeBytes k bs).cal = s.cal := rfl
@[simp] theorem State.writeBytes_calNew (k : Nat) (bs : List Byte) : (s.writeBytes k bs).calNew = s.calNew := rfl
@[simp] theorem State.writeBytes_calPhase (k : Nat) (bs : List Byte) : (s.writeBytes k bs).calPhase = s.calPhase := rfl
@[simp] theorem State.writeBytes_calOld (k : Nat) (bs : List Byte) : (s.writeBytes k bs).calOld = s.calOld := rfl
@[simp] theorem State.writeBytes_heldOut (k : Nat) (bs : List Byte) : (s.writeBytes k bs).heldOut = s.heldOut := rfl
@[simp] theorem State.writeBytes_slotsDone (k : Nat) (bs : List Byte) : (s.writeBytes k bs).slotsDone = s.slotsDone := rfl
@[simp] theorem State.writeBytes_reach (k : Nat) (bs : List Byte) : (s.writeBytes k bs).reach = s.reach := rfl
@[simp] theorem State.writeBytes_relays (k : Nat) (bs : List Byte) : (s.writeBytes k bs).relays = s.relays := rfl
@[simp] theorem State.writeBytes_fibres (k : Nat) (bs : List Byte) : (s.writeBytes k bs).fibres = s.fibres := rfl
@[simp] theorem State.writeBytes_discards (k : Nat) (bs : List Byte) : (s.writeBytes k bs).discards = s.discards := rfl
@[simp] theorem State.writeBytes_discardFibre (k : Nat) (bs : List Byte) : (s.writeBytes k bs).discardFibre = s.discardFibre := rfl
@[simp] theorem State.writeBytes_discardMs (k : Nat) (bs : List Byte) : (s.writeBytes k bs).discardMs = s.discardMs := rfl
@[simp] theorem State.writeBytes_clockStep (k : Nat) (bs : List Byte) : (s.writeBytes k bs).clockStep = s.clockStep := rfl
@[simp] theorem State.writeBytes_ceiling (k : Nat) (bs : List Byte) : (s.writeBytes k bs).ceiling = s.ceiling := rfl
@[simp] theorem State.writeBytes_padLeft (k : Nat) (bs : List Byte) : (s.writeBytes k bs).padLeft = s.padLeft := rfl
@[simp] theorem State.writeBytes_replies (k : Nat) (bs : List Byte) : (s.writeBytes k bs).replies = s.replies := rfl
@[simp] theorem State.writeBytes_hostPending (k : Nat) (bs : List Byte) : (s.writeBytes k bs).hostPending = s.hostPending := rfl
@[simp] theorem State.writeBytes_laneSlots (k : Nat) (bs : List Byte) : (s.writeBytes k bs).laneSlots = s.laneSlots := rfl
@[simp] theorem State.writeBytes_fresh (k : Nat) (bs : List Byte) : (s.writeBytes k bs).fresh = s.fresh := rfl

/-! ### State.write -/
@[simp] theorem State.write_cur (k n v : Nat) : (s.write k n v).cur = s.cur := rfl
@[simp] theorem State.write_others (k n v : Nat) : (s.write k n v).others = s.others := rfl
@[simp] theorem State.write_teams (k n v : Nat) : (s.write k n v).teams = s.teams := rfl
@[simp] theorem State.write_launches (k n v : Nat) : (s.write k n v).launches = s.launches := rfl
@[simp] theorem State.write_ctxs (k n v : Nat) : (s.write k n v).ctxs = s.ctxs := rfl
@[simp] theorem State.write_cores (k n v : Nat) : (s.write k n v).cores = s.cores := rfl
@[simp] theorem State.write_now (k n v : Nat) : (s.write k n v).now = s.now := rfl
@[simp] theorem State.write_ns (k n v : Nat) : (s.write k n v).ns = s.ns := rfl
@[simp] theorem State.write_agenda (k n v : Nat) : (s.write k n v).agenda = s.agenda := rfl
@[simp] theorem State.write_work (k n v : Nat) : (s.write k n v).work = s.work := rfl
@[simp] theorem State.write_nextId (k n v : Nat) : (s.write k n v).nextId = s.nextId := rfl
@[simp] theorem State.write_tlb (k n v : Nat) : (s.write k n v).tlb = s.tlb := rfl
@[simp] theorem State.write_merges (k n v : Nat) : (s.write k n v).merges = s.merges := rfl
@[simp] theorem State.write_prgQueue (k n v : Nat) : (s.write k n v).prgQueue = s.prgQueue := rfl
@[simp] theorem State.write_prgOut (k n v : Nat) : (s.write k n v).prgOut = s.prgOut := rfl
@[simp] theorem State.write_allowance (k n v : Nat) : (s.write k n v).allowance = s.allowance := rfl
@[simp] theorem State.write_replicas (k n v : Nat) : (s.write k n v).replicas = s.replicas := rfl
@[simp] theorem State.write_pool (k n v : Nat) : (s.write k n v).pool = s.pool := rfl
@[simp] theorem State.write_poolTaken (k n v : Nat) : (s.write k n v).poolTaken = s.poolTaken := rfl
@[simp] theorem State.write_remotes (k n v : Nat) : (s.write k n v).remotes = s.remotes := rfl
@[simp] theorem State.write_inflight (k n v : Nat) : (s.write k n v).inflight = s.inflight := rfl
@[simp] theorem State.write_outbox (k n v : Nat) : (s.write k n v).outbox = s.outbox := rfl
@[simp] theorem State.write_windows (k n v : Nat) : (s.write k n v).windows = s.windows := rfl
@[simp] theorem State.write_acks (k n v : Nat) : (s.write k n v).acks = s.acks := rfl
@[simp] theorem State.write_deferred (k n v : Nat) : (s.write k n v).deferred = s.deferred := rfl
@[simp] theorem State.write_rows (k n v : Nat) : (s.write k n v).rows = s.rows := rfl
@[simp] theorem State.write_refresh (k n v : Nat) : (s.write k n v).refresh = s.refresh := rfl
@[simp] theorem State.write_bursts (k n v : Nat) : (s.write k n v).bursts = s.bursts := rfl
@[simp] theorem State.write_arbiters (k n v : Nat) : (s.write k n v).arbiters = s.arbiters := rfl
@[simp] theorem State.write_outTails (k n v : Nat) : (s.write k n v).outTails = s.outTails := rfl
@[simp] theorem State.write_faultSeq (k n v : Nat) : (s.write k n v).faultSeq = s.faultSeq := rfl
@[simp] theorem State.write_launchOrder (k n v : Nat) : (s.write k n v).launchOrder = s.launchOrder := rfl
@[simp] theorem State.write_queues (k n v : Nat) : (s.write k n v).queues = s.queues := rfl
@[simp] theorem State.write_ctxPasid (k n v : Nat) : (s.write k n v).ctxPasid = s.ctxPasid := rfl
@[simp] theorem State.write_bar2win (k n v : Nat) : (s.write k n v).bar2win = s.bar2win := rfl
@[simp] theorem State.write_bar2Log (k n v : Nat) : (s.write k n v).bar2Log = s.bar2Log := rfl
@[simp] theorem State.write_msixTable (k n v : Nat) : (s.write k n v).msixTable = s.msixTable := rfl
@[simp] theorem State.write_msixPending (k n v : Nat) : (s.write k n v).msixPending = s.msixPending := rfl
@[simp] theorem State.write_hostOut (k n v : Nat) : (s.write k n v).hostOut = s.hostOut := rfl
@[simp] theorem State.write_ats (k n v : Nat) : (s.write k n v).ats = s.ats := rfl
@[simp] theorem State.write_atsWaits (k n v : Nat) : (s.write k n v).atsWaits = s.atsWaits := rfl
@[simp] theorem State.write_log (k n v : Nat) : (s.write k n v).log = s.log := rfl
@[simp] theorem State.write_evHead (k n v : Nat) : (s.write k n v).evHead = s.evHead := rfl
@[simp] theorem State.write_evTail (k n v : Nat) : (s.write k n v).evTail = s.evTail := rfl
@[simp] theorem State.write_evDrop (k n v : Nat) : (s.write k n v).evDrop = s.evDrop := rfl
@[simp] theorem State.write_evHeld (k n v : Nat) : (s.write k n v).evHeld = s.evHeld := rfl
@[simp] theorem State.write_health (k n v : Nat) : (s.write k n v).health = s.health := rfl
@[simp] theorem State.write_params (k n v : Nat) : (s.write k n v).params = s.params := rfl
@[simp] theorem State.write_pbAddr (k n v : Nat) : (s.write k n v).pbAddr = s.pbAddr := rfl
@[simp] theorem State.write_spdm (k n v : Nat) : (s.write k n v).spdm = s.spdm := rfl
@[simp] theorem State.write_fenced (k n v : Nat) : (s.write k n v).fenced = s.fenced := rfl
@[simp] theorem State.write_errors (k n v : Nat) : (s.write k n v).errors = s.errors := rfl
@[simp] theorem State.write_badLanes (k n v : Nat) : (s.write k n v).badLanes = s.badLanes := rfl
@[simp] theorem State.write_badBeaters (k n v : Nat) : (s.write k n v).badBeaters = s.badBeaters := rfl
@[simp] theorem State.write_beaterChecks (k n v : Nat) : (s.write k n v).beaterChecks = s.beaterChecks := rfl
@[simp] theorem State.write_links (k n v : Nat) : (s.write k n v).links = s.links := rfl
@[simp] theorem State.write_cal (k n v : Nat) : (s.write k n v).cal = s.cal := rfl
@[simp] theorem State.write_calNew (k n v : Nat) : (s.write k n v).calNew = s.calNew := rfl
@[simp] theorem State.write_calPhase (k n v : Nat) : (s.write k n v).calPhase = s.calPhase := rfl
@[simp] theorem State.write_calOld (k n v : Nat) : (s.write k n v).calOld = s.calOld := rfl
@[simp] theorem State.write_heldOut (k n v : Nat) : (s.write k n v).heldOut = s.heldOut := rfl
@[simp] theorem State.write_slotsDone (k n v : Nat) : (s.write k n v).slotsDone = s.slotsDone := rfl
@[simp] theorem State.write_reach (k n v : Nat) : (s.write k n v).reach = s.reach := rfl
@[simp] theorem State.write_relays (k n v : Nat) : (s.write k n v).relays = s.relays := rfl
@[simp] theorem State.write_fibres (k n v : Nat) : (s.write k n v).fibres = s.fibres := rfl
@[simp] theorem State.write_discards (k n v : Nat) : (s.write k n v).discards = s.discards := rfl
@[simp] theorem State.write_discardFibre (k n v : Nat) : (s.write k n v).discardFibre = s.discardFibre := rfl
@[simp] theorem State.write_discardMs (k n v : Nat) : (s.write k n v).discardMs = s.discardMs := rfl
@[simp] theorem State.write_clockStep (k n v : Nat) : (s.write k n v).clockStep = s.clockStep := rfl
@[simp] theorem State.write_ceiling (k n v : Nat) : (s.write k n v).ceiling = s.ceiling := rfl
@[simp] theorem State.write_padLeft (k n v : Nat) : (s.write k n v).padLeft = s.padLeft := rfl
@[simp] theorem State.write_replies (k n v : Nat) : (s.write k n v).replies = s.replies := rfl
@[simp] theorem State.write_hostPending (k n v : Nat) : (s.write k n v).hostPending = s.hostPending := rfl
@[simp] theorem State.write_laneSlots (k n v : Nat) : (s.write k n v).laneSlots = s.laneSlots := rfl
@[simp] theorem State.write_fresh (k n v : Nat) : (s.write k n v).fresh = s.fresh := rfl

/-! ### State.addWork -/
@[simp] theorem State.addWork_cur (fl : Option (Fin 12)) (k : WorkKind) : (s.addWork fl k).cur = s.cur := rfl
@[simp] theorem State.addWork_others (fl : Option (Fin 12)) (k : WorkKind) : (s.addWork fl k).others = s.others := rfl
@[simp] theorem State.addWork_teams (fl : Option (Fin 12)) (k : WorkKind) : (s.addWork fl k).teams = s.teams := rfl
@[simp] theorem State.addWork_launches (fl : Option (Fin 12)) (k : WorkKind) : (s.addWork fl k).launches = s.launches := rfl
@[simp] theorem State.addWork_ctxs (fl : Option (Fin 12)) (k : WorkKind) : (s.addWork fl k).ctxs = s.ctxs := rfl
@[simp] theorem State.addWork_cores (fl : Option (Fin 12)) (k : WorkKind) : (s.addWork fl k).cores = s.cores := rfl
@[simp] theorem State.addWork_mem (fl : Option (Fin 12)) (k : WorkKind) : (s.addWork fl k).mem = s.mem := rfl
@[simp] theorem State.addWork_poisoned (fl : Option (Fin 12)) (k : WorkKind) : (s.addWork fl k).poisoned = s.poisoned := rfl
@[simp] theorem State.addWork_poisonSeen (fl : Option (Fin 12)) (k : WorkKind) : (s.addWork fl k).poisonSeen = s.poisonSeen := rfl
@[simp] theorem State.addWork_soft (fl : Option (Fin 12)) (k : WorkKind) : (s.addWork fl k).soft = s.soft := rfl
@[simp] theorem State.addWork_now (fl : Option (Fin 12)) (k : WorkKind) : (s.addWork fl k).now = s.now := rfl
@[simp] theorem State.addWork_ns (fl : Option (Fin 12)) (k : WorkKind) : (s.addWork fl k).ns = s.ns := rfl
@[simp] theorem State.addWork_agenda (fl : Option (Fin 12)) (k : WorkKind) : (s.addWork fl k).agenda = s.agenda := rfl
@[simp] theorem State.addWork_tlb (fl : Option (Fin 12)) (k : WorkKind) : (s.addWork fl k).tlb = s.tlb := rfl
@[simp] theorem State.addWork_merges (fl : Option (Fin 12)) (k : WorkKind) : (s.addWork fl k).merges = s.merges := rfl
@[simp] theorem State.addWork_prgQueue (fl : Option (Fin 12)) (k : WorkKind) : (s.addWork fl k).prgQueue = s.prgQueue := rfl
@[simp] theorem State.addWork_prgOut (fl : Option (Fin 12)) (k : WorkKind) : (s.addWork fl k).prgOut = s.prgOut := rfl
@[simp] theorem State.addWork_allowance (fl : Option (Fin 12)) (k : WorkKind) : (s.addWork fl k).allowance = s.allowance := rfl
@[simp] theorem State.addWork_replicas (fl : Option (Fin 12)) (k : WorkKind) : (s.addWork fl k).replicas = s.replicas := rfl
@[simp] theorem State.addWork_pool (fl : Option (Fin 12)) (k : WorkKind) : (s.addWork fl k).pool = s.pool := rfl
@[simp] theorem State.addWork_poolTaken (fl : Option (Fin 12)) (k : WorkKind) : (s.addWork fl k).poolTaken = s.poolTaken := rfl
@[simp] theorem State.addWork_remotes (fl : Option (Fin 12)) (k : WorkKind) : (s.addWork fl k).remotes = s.remotes := rfl
@[simp] theorem State.addWork_inflight (fl : Option (Fin 12)) (k : WorkKind) : (s.addWork fl k).inflight = s.inflight := rfl
@[simp] theorem State.addWork_outbox (fl : Option (Fin 12)) (k : WorkKind) : (s.addWork fl k).outbox = s.outbox := rfl
@[simp] theorem State.addWork_windows (fl : Option (Fin 12)) (k : WorkKind) : (s.addWork fl k).windows = s.windows := rfl
@[simp] theorem State.addWork_acks (fl : Option (Fin 12)) (k : WorkKind) : (s.addWork fl k).acks = s.acks := rfl
@[simp] theorem State.addWork_deferred (fl : Option (Fin 12)) (k : WorkKind) : (s.addWork fl k).deferred = s.deferred := rfl
@[simp] theorem State.addWork_rows (fl : Option (Fin 12)) (k : WorkKind) : (s.addWork fl k).rows = s.rows := rfl
@[simp] theorem State.addWork_refresh (fl : Option (Fin 12)) (k : WorkKind) : (s.addWork fl k).refresh = s.refresh := rfl
@[simp] theorem State.addWork_bursts (fl : Option (Fin 12)) (k : WorkKind) : (s.addWork fl k).bursts = s.bursts := rfl
@[simp] theorem State.addWork_arbiters (fl : Option (Fin 12)) (k : WorkKind) : (s.addWork fl k).arbiters = s.arbiters := rfl
@[simp] theorem State.addWork_outTails (fl : Option (Fin 12)) (k : WorkKind) : (s.addWork fl k).outTails = s.outTails := rfl
@[simp] theorem State.addWork_faultSeq (fl : Option (Fin 12)) (k : WorkKind) : (s.addWork fl k).faultSeq = s.faultSeq := rfl
@[simp] theorem State.addWork_launchOrder (fl : Option (Fin 12)) (k : WorkKind) : (s.addWork fl k).launchOrder = s.launchOrder := rfl
@[simp] theorem State.addWork_queues (fl : Option (Fin 12)) (k : WorkKind) : (s.addWork fl k).queues = s.queues := rfl
@[simp] theorem State.addWork_ctxPasid (fl : Option (Fin 12)) (k : WorkKind) : (s.addWork fl k).ctxPasid = s.ctxPasid := rfl
@[simp] theorem State.addWork_bar2win (fl : Option (Fin 12)) (k : WorkKind) : (s.addWork fl k).bar2win = s.bar2win := rfl
@[simp] theorem State.addWork_bar2Log (fl : Option (Fin 12)) (k : WorkKind) : (s.addWork fl k).bar2Log = s.bar2Log := rfl
@[simp] theorem State.addWork_msixTable (fl : Option (Fin 12)) (k : WorkKind) : (s.addWork fl k).msixTable = s.msixTable := rfl
@[simp] theorem State.addWork_msixPending (fl : Option (Fin 12)) (k : WorkKind) : (s.addWork fl k).msixPending = s.msixPending := rfl
@[simp] theorem State.addWork_hostOut (fl : Option (Fin 12)) (k : WorkKind) : (s.addWork fl k).hostOut = s.hostOut := rfl
@[simp] theorem State.addWork_ats (fl : Option (Fin 12)) (k : WorkKind) : (s.addWork fl k).ats = s.ats := rfl
@[simp] theorem State.addWork_atsWaits (fl : Option (Fin 12)) (k : WorkKind) : (s.addWork fl k).atsWaits = s.atsWaits := rfl
@[simp] theorem State.addWork_log (fl : Option (Fin 12)) (k : WorkKind) : (s.addWork fl k).log = s.log := rfl
@[simp] theorem State.addWork_evHead (fl : Option (Fin 12)) (k : WorkKind) : (s.addWork fl k).evHead = s.evHead := rfl
@[simp] theorem State.addWork_evTail (fl : Option (Fin 12)) (k : WorkKind) : (s.addWork fl k).evTail = s.evTail := rfl
@[simp] theorem State.addWork_evDrop (fl : Option (Fin 12)) (k : WorkKind) : (s.addWork fl k).evDrop = s.evDrop := rfl
@[simp] theorem State.addWork_evHeld (fl : Option (Fin 12)) (k : WorkKind) : (s.addWork fl k).evHeld = s.evHeld := rfl
@[simp] theorem State.addWork_health (fl : Option (Fin 12)) (k : WorkKind) : (s.addWork fl k).health = s.health := rfl
@[simp] theorem State.addWork_params (fl : Option (Fin 12)) (k : WorkKind) : (s.addWork fl k).params = s.params := rfl
@[simp] theorem State.addWork_pbAddr (fl : Option (Fin 12)) (k : WorkKind) : (s.addWork fl k).pbAddr = s.pbAddr := rfl
@[simp] theorem State.addWork_spdm (fl : Option (Fin 12)) (k : WorkKind) : (s.addWork fl k).spdm = s.spdm := rfl
@[simp] theorem State.addWork_fenced (fl : Option (Fin 12)) (k : WorkKind) : (s.addWork fl k).fenced = s.fenced := rfl
@[simp] theorem State.addWork_errors (fl : Option (Fin 12)) (k : WorkKind) : (s.addWork fl k).errors = s.errors := rfl
@[simp] theorem State.addWork_badLanes (fl : Option (Fin 12)) (k : WorkKind) : (s.addWork fl k).badLanes = s.badLanes := rfl
@[simp] theorem State.addWork_badBeaters (fl : Option (Fin 12)) (k : WorkKind) : (s.addWork fl k).badBeaters = s.badBeaters := rfl
@[simp] theorem State.addWork_beaterChecks (fl : Option (Fin 12)) (k : WorkKind) : (s.addWork fl k).beaterChecks = s.beaterChecks := rfl
@[simp] theorem State.addWork_links (fl : Option (Fin 12)) (k : WorkKind) : (s.addWork fl k).links = s.links := rfl
@[simp] theorem State.addWork_cal (fl : Option (Fin 12)) (k : WorkKind) : (s.addWork fl k).cal = s.cal := rfl
@[simp] theorem State.addWork_calNew (fl : Option (Fin 12)) (k : WorkKind) : (s.addWork fl k).calNew = s.calNew := rfl
@[simp] theorem State.addWork_calPhase (fl : Option (Fin 12)) (k : WorkKind) : (s.addWork fl k).calPhase = s.calPhase := rfl
@[simp] theorem State.addWork_calOld (fl : Option (Fin 12)) (k : WorkKind) : (s.addWork fl k).calOld = s.calOld := rfl
@[simp] theorem State.addWork_heldOut (fl : Option (Fin 12)) (k : WorkKind) : (s.addWork fl k).heldOut = s.heldOut := rfl
@[simp] theorem State.addWork_slotsDone (fl : Option (Fin 12)) (k : WorkKind) : (s.addWork fl k).slotsDone = s.slotsDone := rfl
@[simp] theorem State.addWork_reach (fl : Option (Fin 12)) (k : WorkKind) : (s.addWork fl k).reach = s.reach := rfl
@[simp] theorem State.addWork_relays (fl : Option (Fin 12)) (k : WorkKind) : (s.addWork fl k).relays = s.relays := rfl
@[simp] theorem State.addWork_fibres (fl : Option (Fin 12)) (k : WorkKind) : (s.addWork fl k).fibres = s.fibres := rfl
@[simp] theorem State.addWork_discards (fl : Option (Fin 12)) (k : WorkKind) : (s.addWork fl k).discards = s.discards := rfl
@[simp] theorem State.addWork_discardFibre (fl : Option (Fin 12)) (k : WorkKind) : (s.addWork fl k).discardFibre = s.discardFibre := rfl
@[simp] theorem State.addWork_discardMs (fl : Option (Fin 12)) (k : WorkKind) : (s.addWork fl k).discardMs = s.discardMs := rfl
@[simp] theorem State.addWork_clockStep (fl : Option (Fin 12)) (k : WorkKind) : (s.addWork fl k).clockStep = s.clockStep := rfl
@[simp] theorem State.addWork_ceiling (fl : Option (Fin 12)) (k : WorkKind) : (s.addWork fl k).ceiling = s.ceiling := rfl
@[simp] theorem State.addWork_padLeft (fl : Option (Fin 12)) (k : WorkKind) : (s.addWork fl k).padLeft = s.padLeft := rfl
@[simp] theorem State.addWork_replies (fl : Option (Fin 12)) (k : WorkKind) : (s.addWork fl k).replies = s.replies := rfl
@[simp] theorem State.addWork_hostPending (fl : Option (Fin 12)) (k : WorkKind) : (s.addWork fl k).hostPending = s.hostPending := rfl
@[simp] theorem State.addWork_laneSlots (fl : Option (Fin 12)) (k : WorkKind) : (s.addWork fl k).laneSlots = s.laneSlots := rfl
@[simp] theorem State.addWork_fresh (fl : Option (Fin 12)) (k : WorkKind) : (s.addWork fl k).fresh = s.fresh := rfl

/-! ### State.finishWork -/
@[simp] theorem State.finishWork_teams (w : Work) : (s.finishWork w).teams = s.teams := rfl
@[simp] theorem State.finishWork_launches (w : Work) : (s.finishWork w).launches = s.launches := rfl
@[simp] theorem State.finishWork_ctxs (w : Work) : (s.finishWork w).ctxs = s.ctxs := rfl
@[simp] theorem State.finishWork_cores (w : Work) : (s.finishWork w).cores = s.cores := rfl
@[simp] theorem State.finishWork_mem (w : Work) : (s.finishWork w).mem = s.mem := rfl
@[simp] theorem State.finishWork_poisoned (w : Work) : (s.finishWork w).poisoned = s.poisoned := rfl
@[simp] theorem State.finishWork_poisonSeen (w : Work) : (s.finishWork w).poisonSeen = s.poisonSeen := rfl
@[simp] theorem State.finishWork_soft (w : Work) : (s.finishWork w).soft = s.soft := rfl
@[simp] theorem State.finishWork_now (w : Work) : (s.finishWork w).now = s.now := rfl
@[simp] theorem State.finishWork_ns (w : Work) : (s.finishWork w).ns = s.ns := rfl
@[simp] theorem State.finishWork_agenda (w : Work) : (s.finishWork w).agenda = s.agenda := rfl
@[simp] theorem State.finishWork_nextId (w : Work) : (s.finishWork w).nextId = s.nextId := rfl
@[simp] theorem State.finishWork_tlb (w : Work) : (s.finishWork w).tlb = s.tlb := rfl
@[simp] theorem State.finishWork_merges (w : Work) : (s.finishWork w).merges = s.merges := rfl
@[simp] theorem State.finishWork_prgQueue (w : Work) : (s.finishWork w).prgQueue = s.prgQueue := rfl
@[simp] theorem State.finishWork_prgOut (w : Work) : (s.finishWork w).prgOut = s.prgOut := rfl
@[simp] theorem State.finishWork_allowance (w : Work) : (s.finishWork w).allowance = s.allowance := rfl
@[simp] theorem State.finishWork_replicas (w : Work) : (s.finishWork w).replicas = s.replicas := rfl
@[simp] theorem State.finishWork_pool (w : Work) : (s.finishWork w).pool = s.pool := rfl
@[simp] theorem State.finishWork_poolTaken (w : Work) : (s.finishWork w).poolTaken = s.poolTaken := rfl
@[simp] theorem State.finishWork_remotes (w : Work) : (s.finishWork w).remotes = s.remotes := rfl
@[simp] theorem State.finishWork_inflight (w : Work) : (s.finishWork w).inflight = s.inflight := rfl
@[simp] theorem State.finishWork_outbox (w : Work) : (s.finishWork w).outbox = s.outbox := rfl
@[simp] theorem State.finishWork_windows (w : Work) : (s.finishWork w).windows = s.windows := rfl
@[simp] theorem State.finishWork_acks (w : Work) : (s.finishWork w).acks = s.acks := rfl
@[simp] theorem State.finishWork_deferred (w : Work) : (s.finishWork w).deferred = s.deferred := rfl
@[simp] theorem State.finishWork_rows (w : Work) : (s.finishWork w).rows = s.rows := rfl
@[simp] theorem State.finishWork_refresh (w : Work) : (s.finishWork w).refresh = s.refresh := rfl
@[simp] theorem State.finishWork_bursts (w : Work) : (s.finishWork w).bursts = s.bursts := rfl
@[simp] theorem State.finishWork_arbiters (w : Work) : (s.finishWork w).arbiters = s.arbiters := rfl
@[simp] theorem State.finishWork_outTails (w : Work) : (s.finishWork w).outTails = s.outTails := rfl
@[simp] theorem State.finishWork_faultSeq (w : Work) : (s.finishWork w).faultSeq = s.faultSeq := rfl
@[simp] theorem State.finishWork_launchOrder (w : Work) : (s.finishWork w).launchOrder = s.launchOrder := rfl
@[simp] theorem State.finishWork_queues (w : Work) : (s.finishWork w).queues = s.queues := rfl
@[simp] theorem State.finishWork_ctxPasid (w : Work) : (s.finishWork w).ctxPasid = s.ctxPasid := rfl
@[simp] theorem State.finishWork_bar2win (w : Work) : (s.finishWork w).bar2win = s.bar2win := rfl
@[simp] theorem State.finishWork_bar2Log (w : Work) : (s.finishWork w).bar2Log = s.bar2Log := rfl
@[simp] theorem State.finishWork_msixTable (w : Work) : (s.finishWork w).msixTable = s.msixTable := rfl
@[simp] theorem State.finishWork_msixPending (w : Work) : (s.finishWork w).msixPending = s.msixPending := rfl
@[simp] theorem State.finishWork_hostOut (w : Work) : (s.finishWork w).hostOut = s.hostOut := rfl
@[simp] theorem State.finishWork_ats (w : Work) : (s.finishWork w).ats = s.ats := rfl
@[simp] theorem State.finishWork_atsWaits (w : Work) : (s.finishWork w).atsWaits = s.atsWaits := rfl
@[simp] theorem State.finishWork_log (w : Work) : (s.finishWork w).log = s.log := rfl
@[simp] theorem State.finishWork_evHead (w : Work) : (s.finishWork w).evHead = s.evHead := rfl
@[simp] theorem State.finishWork_evTail (w : Work) : (s.finishWork w).evTail = s.evTail := rfl
@[simp] theorem State.finishWork_evDrop (w : Work) : (s.finishWork w).evDrop = s.evDrop := rfl
@[simp] theorem State.finishWork_evHeld (w : Work) : (s.finishWork w).evHeld = s.evHeld := rfl
@[simp] theorem State.finishWork_health (w : Work) : (s.finishWork w).health = s.health := rfl
@[simp] theorem State.finishWork_params (w : Work) : (s.finishWork w).params = s.params := rfl
@[simp] theorem State.finishWork_pbAddr (w : Work) : (s.finishWork w).pbAddr = s.pbAddr := rfl
@[simp] theorem State.finishWork_spdm (w : Work) : (s.finishWork w).spdm = s.spdm := rfl
@[simp] theorem State.finishWork_fenced (w : Work) : (s.finishWork w).fenced = s.fenced := rfl
@[simp] theorem State.finishWork_errors (w : Work) : (s.finishWork w).errors = s.errors := rfl
@[simp] theorem State.finishWork_badLanes (w : Work) : (s.finishWork w).badLanes = s.badLanes := rfl
@[simp] theorem State.finishWork_badBeaters (w : Work) : (s.finishWork w).badBeaters = s.badBeaters := rfl
@[simp] theorem State.finishWork_beaterChecks (w : Work) : (s.finishWork w).beaterChecks = s.beaterChecks := rfl
@[simp] theorem State.finishWork_links (w : Work) : (s.finishWork w).links = s.links := rfl
@[simp] theorem State.finishWork_cal (w : Work) : (s.finishWork w).cal = s.cal := rfl
@[simp] theorem State.finishWork_calNew (w : Work) : (s.finishWork w).calNew = s.calNew := rfl
@[simp] theorem State.finishWork_calPhase (w : Work) : (s.finishWork w).calPhase = s.calPhase := rfl
@[simp] theorem State.finishWork_calOld (w : Work) : (s.finishWork w).calOld = s.calOld := rfl
@[simp] theorem State.finishWork_heldOut (w : Work) : (s.finishWork w).heldOut = s.heldOut := rfl
@[simp] theorem State.finishWork_slotsDone (w : Work) : (s.finishWork w).slotsDone = s.slotsDone := rfl
@[simp] theorem State.finishWork_reach (w : Work) : (s.finishWork w).reach = s.reach := rfl
@[simp] theorem State.finishWork_relays (w : Work) : (s.finishWork w).relays = s.relays := rfl
@[simp] theorem State.finishWork_fibres (w : Work) : (s.finishWork w).fibres = s.fibres := rfl
@[simp] theorem State.finishWork_discards (w : Work) : (s.finishWork w).discards = s.discards := rfl
@[simp] theorem State.finishWork_discardFibre (w : Work) : (s.finishWork w).discardFibre = s.discardFibre := rfl
@[simp] theorem State.finishWork_discardMs (w : Work) : (s.finishWork w).discardMs = s.discardMs := rfl
@[simp] theorem State.finishWork_clockStep (w : Work) : (s.finishWork w).clockStep = s.clockStep := rfl
@[simp] theorem State.finishWork_ceiling (w : Work) : (s.finishWork w).ceiling = s.ceiling := rfl
@[simp] theorem State.finishWork_padLeft (w : Work) : (s.finishWork w).padLeft = s.padLeft := rfl
@[simp] theorem State.finishWork_replies (w : Work) : (s.finishWork w).replies = s.replies := rfl
@[simp] theorem State.finishWork_hostPending (w : Work) : (s.finishWork w).hostPending = s.hostPending := rfl
@[simp] theorem State.finishWork_laneSlots (w : Work) : (s.finishWork w).laneSlots = s.laneSlots := rfl
@[simp] theorem State.finishWork_fresh (w : Work) : (s.finishWork w).fresh = s.fresh := rfl

/-! ### What they set -/
@[simp] theorem State.setCur_cur (g : Group) : (s.setCur g).cur = g := rfl
@[simp] theorem State.retire_cur (a : Word) :
    (s.retire a).cur = { s.cur with spc := a, wait := .none, retired := s.cur.retired + 1 } := rfl
@[simp] theorem State.waiting_cur (w : Wait) : (s.waiting w).cur = { s.cur with wait := w } := rfl
@[simp] theorem State.ws_cur (d : Fin 64) (x : Word) : (s.ws d x).cur = s.cur.ws d x := rfl
@[simp] theorem State.useFree_fresh : s.useFree.fresh = s.fresh + 1 := rfl
@[simp] theorem State.tick_now : s.tick.now = s.now + 1 := rfl
@[simp] theorem State.updTeam_teams (k : Nat) (f : Team → Team) :
    (s.updTeam k f).teams = s.teams.map fun t => if t.key == k then f t else t := rfl
@[simp] theorem State.updLaunch_launches (k : Nat) (f : Launch → Launch) :
    (s.updLaunch k f).launches = s.launches.map fun l => if l.key == k then f l else l := rfl
@[simp] theorem State.updCtx_ctxs (k : Nat) (f : Ctx → Ctx) :
    (s.updCtx k f).ctxs = s.ctxs.map fun c => if c.num == k then f c else c := rfl
@[simp] theorem State.setCore_cores (c : Core) : (s.setCore c).cores = c :: s.cores.filter fun d => d.ix != c.ix := rfl
@[simp] theorem State.writeBytes_mem (k : Nat) (bs : List Byte) : (s.writeBytes k bs).mem = writeCells s.mem k bs := rfl
@[simp] theorem State.write_mem (k n v : Nat) : (s.write k n v).mem = writeCells s.mem k (leBytes n v) := rfl
@[simp] theorem State.addWork_nextId (fl : Option (Fin 12)) (k : WorkKind) : (s.addWork fl k).nextId = s.nextId + 1 := rfl
@[simp] theorem State.addWork_work (fl : Option (Fin 12)) (k : WorkKind) :
    (s.addWork fl k).work = s.work ++ [
      { id := s.nextId, group := s.cur.key, team := s.cur.team, ctx := (s.launchOf s.cur).ctx, die := s.cur.place.die, flag := fl, kind := k }] := rfl
@[simp] theorem State.finishWork_work (w : Work) : (s.finishWork w).work = s.work.filter fun x => x.id != w.id := rfl

/-! ### The registers of a group (R10) -/

variable (g : Group)

@[simp] theorem Group.ws_key (d : Fin 64) (x : Word) : (g.ws d x).key = g.key := by unfold Group.ws; split <;> rfl
@[simp] theorem Group.ws_live (d : Fin 64) (x : Word) : (g.ws d x).live = g.live := by unfold Group.ws; split <;> rfl
@[simp] theorem Group.ws_team (d : Fin 64) (x : Word) : (g.ws d x).team = g.team := by unfold Group.ws; split <;> rfl
@[simp] theorem Group.ws_git (d : Fin 64) (x : Word) : (g.ws d x).git = g.git := by unfold Group.ws; split <;> rfl
@[simp] theorem Group.ws_place (d : Fin 64) (x : Word) : (g.ws d x).place = g.place := by unfold Group.ws; split <;> rfl
@[simp] theorem Group.ws_v (d : Fin 64) (x : Word) : (g.ws d x).v = g.v := by unfold Group.ws; split <;> rfl
@[simp] theorem Group.ws_p (d : Fin 64) (x : Word) : (g.ws d x).p = g.p := by unfold Group.ws; split <;> rfl
@[simp] theorem Group.ws_b (d : Fin 64) (x : Word) : (g.ws d x).b = g.b := by unfold Group.ws; split <;> rfl
@[simp] theorem Group.ws_k (d : Fin 64) (x : Word) : (g.ws d x).k = g.k := by unfold Group.ws; split <;> rfl
@[simp] theorem Group.ws_f (d : Fin 64) (x : Word) : (g.ws d x).f = g.f := by unfold Group.ws; split <;> rfl
@[simp] theorem Group.ws_spc (d : Fin 64) (x : Word) : (g.ws d x).spc = g.spc := by unfold Group.ws; split <;> rfl
@[simp] theorem Group.ws_lastLpc (d : Fin 64) (x : Word) : (g.ws d x).lastLpc = g.lastLpc := by unfold Group.ws; split <;> rfl
@[simp] theorem Group.ws_lq (d : Fin 64) (x : Word) : (g.ws d x).lq = g.lq := by unfold Group.ws; split <;> rfl
@[simp] theorem Group.ws_replay (d : Fin 64) (x : Word) : (g.ws d x).replay = g.replay := by unfold Group.ws; split <;> rfl
@[simp] theorem Group.ws_base (d : Fin 64) (x : Word) : (g.ws d x).base = g.base := by unfold Group.ws; split <;> rfl
@[simp] theorem Group.ws_cyccmp (d : Fin 64) (x : Word) : (g.ws d x).cyccmp = g.cyccmp := by unfold Group.ws; split <;> rfl
@[simp] theorem Group.ws_utvec (d : Fin 64) (x : Word) : (g.ws d x).utvec = g.utvec := by unfold Group.ws; split <;> rfl
@[simp] theorem Group.ws_uepc (d : Fin 64) (x : Word) : (g.ws d x).uepc = g.uepc := by unfold Group.ws; split <;> rfl
@[simp] theorem Group.ws_ucause (d : Fin 64) (x : Word) : (g.ws d x).ucause = g.ucause := by unfold Group.ws; split <;> rfl
@[simp] theorem Group.ws_utdata (d : Fin 64) (x : Word) : (g.ws d x).utdata = g.utdata := by unfold Group.ws; split <;> rfl
@[simp] theorem Group.ws_tmask (d : Fin 64) (x : Word) : (g.ws d x).tmask = g.tmask := by unfold Group.ws; split <;> rfl
@[simp] theorem Group.ws_ih (d : Fin 64) (x : Word) : (g.ws d x).ih = g.ih := by unfold Group.ws; split <;> rfl
@[simp] theorem Group.ws_lscale (d : Fin 64) (x : Word) : (g.ws d x).lscale = g.lscale := by unfold Group.ws; split <;> rfl
@[simp] theorem Group.ws_nfflag (d : Fin 64) (x : Word) : (g.ws d x).nfflag = g.nfflag := by unfold Group.ws; split <;> rfl
@[simp] theorem Group.ws_rsthr (d : Fin 64) (x : Word) : (g.ws d x).rsthr = g.rsthr := by unfold Group.ws; split <;> rfl
@[simp] theorem Group.ws_fpctl (d : Fin 64) (x : Word) : (g.ws d x).fpctl = g.fpctl := by unfold Group.ws; split <;> rfl
@[simp] theorem Group.ws_fpstat (d : Fin 64) (x : Word) : (g.ws d x).fpstat = g.fpstat := by unfold Group.ws; split <;> rfl
@[simp] theorem Group.ws_batchOpen (d : Fin 64) (x : Word) : (g.ws d x).batchOpen = g.batchOpen := by unfold Group.ws; split <;> rfl
@[simp] theorem Group.ws_remstat (d : Fin 64) (x : Word) : (g.ws d x).remstat = g.remstat := by unfold Group.ws; split <;> rfl
@[simp] theorem Group.ws_traps (d : Fin 64) (x : Word) : (g.ws d x).traps = g.traps := by unfold Group.ws; split <;> rfl
@[simp] theorem Group.ws_wait (d : Fin 64) (x : Word) : (g.ws d x).wait = g.wait := by unfold Group.ws; split <;> rfl
@[simp] theorem Group.ws_stop (d : Fin 64) (x : Word) : (g.ws d x).stop = g.stop := by unfold Group.ws; split <;> rfl
@[simp] theorem Group.ws_poisonV (d : Fin 64) (x : Word) : (g.ws d x).poisonV = g.poisonV := by unfold Group.ws; split <;> rfl
@[simp] theorem Group.ws_retired (d : Fin 64) (x : Word) : (g.ws d x).retired = g.retired := by unfold Group.ws; split <;> rfl
@[simp] theorem Group.ws_nmrun (d : Fin 64) (x : Word) : (g.ws d x).nmrun = g.nmrun := by unfold Group.ws; split <;> rfl
@[simp] theorem Group.ws_done (d : Fin 64) (x : Word) : (g.ws d x).done = g.done := by unfold Group.ws; split <;> rfl
@[simp] theorem Group.ws_yielded (d : Fin 64) (x : Word) : (g.ws d x).yielded = g.yielded := by unfold Group.ws; split <;> rfl
@[simp] theorem Group.ws_laneLast (d : Fin 64) (x : Word) : (g.ws d x).laneLast = g.laneLast := by unfold Group.ws; split <;> rfl
@[simp] theorem Group.ws_roomWait (d : Fin 64) (x : Word) : (g.ws d x).roomWait = g.roomWait := by unfold Group.ws; split <;> rfl
@[simp] theorem Group.wp_key (d : Fin 8) (x : Word32) : (g.wp d x).key = g.key := by unfold Group.wp; split <;> rfl
@[simp] theorem Group.wp_live (d : Fin 8) (x : Word32) : (g.wp d x).live = g.live := by unfold Group.wp; split <;> rfl
@[simp] theorem Group.wp_team (d : Fin 8) (x : Word32) : (g.wp d x).team = g.team := by unfold Group.wp; split <;> rfl
@[simp] theorem Group.wp_git (d : Fin 8) (x : Word32) : (g.wp d x).git = g.git := by unfold Group.wp; split <;> rfl
@[simp] theorem Group.wp_place (d : Fin 8) (x : Word32) : (g.wp d x).place = g.place := by unfold Group.wp; split <;> rfl
@[simp] theorem Group.wp_s (d : Fin 8) (x : Word32) : (g.wp d x).s = g.s := by unfold Group.wp; split <;> rfl
@[simp] theorem Group.wp_v (d : Fin 8) (x : Word32) : (g.wp d x).v = g.v := by unfold Group.wp; split <;> rfl
@[simp] theorem Group.wp_b (d : Fin 8) (x : Word32) : (g.wp d x).b = g.b := by unfold Group.wp; split <;> rfl
@[simp] theorem Group.wp_k (d : Fin 8) (x : Word32) : (g.wp d x).k = g.k := by unfold Group.wp; split <;> rfl
@[simp] theorem Group.wp_f (d : Fin 8) (x : Word32) : (g.wp d x).f = g.f := by unfold Group.wp; split <;> rfl
@[simp] theorem Group.wp_spc (d : Fin 8) (x : Word32) : (g.wp d x).spc = g.spc := by unfold Group.wp; split <;> rfl
@[simp] theorem Group.wp_lastLpc (d : Fin 8) (x : Word32) : (g.wp d x).lastLpc = g.lastLpc := by unfold Group.wp; split <;> rfl
@[simp] theorem Group.wp_lq (d : Fin 8) (x : Word32) : (g.wp d x).lq = g.lq := by unfold Group.wp; split <;> rfl
@[simp] theorem Group.wp_replay (d : Fin 8) (x : Word32) : (g.wp d x).replay = g.replay := by unfold Group.wp; split <;> rfl
@[simp] theorem Group.wp_base (d : Fin 8) (x : Word32) : (g.wp d x).base = g.base := by unfold Group.wp; split <;> rfl
@[simp] theorem Group.wp_cyccmp (d : Fin 8) (x : Word32) : (g.wp d x).cyccmp = g.cyccmp := by unfold Group.wp; split <;> rfl
@[simp] theorem Group.wp_utvec (d : Fin 8) (x : Word32) : (g.wp d x).utvec = g.utvec := by unfold Group.wp; split <;> rfl
@[simp] theorem Group.wp_uepc (d : Fin 8) (x : Word32) : (g.wp d x).uepc = g.uepc := by unfold Group.wp; split <;> rfl
@[simp] theorem Group.wp_ucause (d : Fin 8) (x : Word32) : (g.wp d x).ucause = g.ucause := by unfold Group.wp; split <;> rfl
@[simp] theorem Group.wp_utdata (d : Fin 8) (x : Word32) : (g.wp d x).utdata = g.utdata := by unfold Group.wp; split <;> rfl
@[simp] theorem Group.wp_tmask (d : Fin 8) (x : Word32) : (g.wp d x).tmask = g.tmask := by unfold Group.wp; split <;> rfl
@[simp] theorem Group.wp_ih (d : Fin 8) (x : Word32) : (g.wp d x).ih = g.ih := by unfold Group.wp; split <;> rfl
@[simp] theorem Group.wp_lscale (d : Fin 8) (x : Word32) : (g.wp d x).lscale = g.lscale := by unfold Group.wp; split <;> rfl
@[simp] theorem Group.wp_nfflag (d : Fin 8) (x : Word32) : (g.wp d x).nfflag = g.nfflag := by unfold Group.wp; split <;> rfl
@[simp] theorem Group.wp_rsthr (d : Fin 8) (x : Word32) : (g.wp d x).rsthr = g.rsthr := by unfold Group.wp; split <;> rfl
@[simp] theorem Group.wp_fpctl (d : Fin 8) (x : Word32) : (g.wp d x).fpctl = g.fpctl := by unfold Group.wp; split <;> rfl
@[simp] theorem Group.wp_fpstat (d : Fin 8) (x : Word32) : (g.wp d x).fpstat = g.fpstat := by unfold Group.wp; split <;> rfl
@[simp] theorem Group.wp_batchOpen (d : Fin 8) (x : Word32) : (g.wp d x).batchOpen = g.batchOpen := by unfold Group.wp; split <;> rfl
@[simp] theorem Group.wp_remstat (d : Fin 8) (x : Word32) : (g.wp d x).remstat = g.remstat := by unfold Group.wp; split <;> rfl
@[simp] theorem Group.wp_traps (d : Fin 8) (x : Word32) : (g.wp d x).traps = g.traps := by unfold Group.wp; split <;> rfl
@[simp] theorem Group.wp_wait (d : Fin 8) (x : Word32) : (g.wp d x).wait = g.wait := by unfold Group.wp; split <;> rfl
@[simp] theorem Group.wp_stop (d : Fin 8) (x : Word32) : (g.wp d x).stop = g.stop := by unfold Group.wp; split <;> rfl
@[simp] theorem Group.wp_poisonV (d : Fin 8) (x : Word32) : (g.wp d x).poisonV = g.poisonV := by unfold Group.wp; split <;> rfl
@[simp] theorem Group.wp_retired (d : Fin 8) (x : Word32) : (g.wp d x).retired = g.retired := by unfold Group.wp; split <;> rfl
@[simp] theorem Group.wp_nmrun (d : Fin 8) (x : Word32) : (g.wp d x).nmrun = g.nmrun := by unfold Group.wp; split <;> rfl
@[simp] theorem Group.wp_done (d : Fin 8) (x : Word32) : (g.wp d x).done = g.done := by unfold Group.wp; split <;> rfl
@[simp] theorem Group.wp_yielded (d : Fin 8) (x : Word32) : (g.wp d x).yielded = g.yielded := by unfold Group.wp; split <;> rfl
@[simp] theorem Group.wp_laneLast (d : Fin 8) (x : Word32) : (g.wp d x).laneLast = g.laneLast := by unfold Group.wp; split <;> rfl
@[simp] theorem Group.wp_roomWait (d : Fin 8) (x : Word32) : (g.wp d x).roomWait = g.roomWait := by unfold Group.wp; split <;> rfl

@[simp] theorem Group.unmark_s (r : Nat) : (g.unmark r).s = g.s := rfl
@[simp] theorem Group.unmark_p (r : Nat) : (g.unmark r).p = g.p := rfl
@[simp] theorem Group.unmark_b (r : Nat) : (g.unmark r).b = g.b := rfl
@[simp] theorem Group.unmark_k (r : Nat) : (g.unmark r).k = g.k := rfl
@[simp] theorem Group.unmark_v (r : Nat) : (g.unmark r).v = g.v := rfl

/-- s0 discards writes (R10). -/
@[simp] theorem Group.ws_zero (x : Word) : g.ws 0 x = g := rfl
/-- p0 discards writes (R10). -/
@[simp] theorem Group.wp_zero (x : Word32) : g.wp 0 x = g := rfl
/-- s0 reads as zero (R10). -/
@[simp] theorem Group.rs_zero : g.rs 0 = 0 := rfl
/-- p0 reads as all ones (R10). -/
@[simp] theorem Group.rp_zero : g.rp 0 = 0xFFFFFFFF := rfl

/-- A register written reads as what was written. -/
theorem Group.rs_ws_self (d : Fin 64) (x : Word) (h : d ≠ 0) : (g.ws d x).rs d = x := by
  simp [Group.rs, Group.ws, h]

/-- Writing a register leaves every other one. -/
theorem Group.rs_ws_other (d e : Fin 64) (x : Word) (h : e ≠ d) : (g.ws d x).rs e = g.rs e := by
  have h' : d.val ≠ e.val := fun c => h (Fin.ext c.symm)
  by_cases hd : d = 0 <;> simp [Group.rs, Group.ws, hd, h']

/-- A predicate written reads as what was written. -/
theorem Group.rp_wp_self (d : Fin 8) (x : Word32) (h : d ≠ 0) : (g.wp d x).rp d = x := by
  simp [Group.rp, Group.wp, Group.unmark, h]

/-- Writing a predicate leaves every other one. -/
theorem Group.rp_wp_other (d e : Fin 8) (x : Word32) (h : e ≠ d) : (g.wp d x).rp e = g.rp e := by
  have h' : d.val ≠ e.val := fun c => h (Fin.ext c.symm)
  by_cases hd : d = 0 <;> simp [Group.rp, Group.wp, Group.unmark, hd, h']

end Sys2Proof.Machine
end

