-- ==== Sys2Proof/Laws/Memory.lean ====
section
/-! SUPPORT. Memory: what a write changes and what it leaves, and that every operation keeps the canonical form. -/

namespace Sys2Proof.Machine

/-! ## The canonical form -/

theorem cellsFrom_cons (lo a : Nat) (b : Byte) (r : List Host.Cell) :
    cellsFrom lo ((a, b) :: r) = true ↔ lo ≤ a ∧ b ≠ blankByte ∧ cellsFrom (a + 1) r = true := by
  simp [cellsFrom, and_assoc]

theorem cellsFrom_mono (r : List Host.Cell) (lo hi : Nat) (h : lo ≤ hi) (w : cellsFrom hi r = true) : cellsFrom lo r = true := by
  cases r with
  | nil => rfl
  | cons c r =>
    obtain ⟨a, b⟩ := c
    rw [cellsFrom_cons] at *
    exact ⟨by omega, w.2⟩

/-- An address below the bound is not listed. -/
theorem cellRead_below (r : List Host.Cell) (lo k : Nat) (w : cellsFrom lo r = true) (h : k < lo) : cellRead r k = blankByte := by
  induction r generalizing lo with
  | nil => rfl
  | cons c r ih =>
    obtain ⟨a, b⟩ := c
    rw [cellsFrom_cons] at w
    simp only [cellRead]
    rw [if_neg (by omega)]
    exact ih (a + 1) w.2.2 (by omega)

theorem cellsFrom_cellWrite (m : List Host.Cell) (lo k : Nat) (v : Byte) (w : cellsFrom lo m = true) (h : lo ≤ k) :
    cellsFrom lo (cellWrite m k v) = true := by
  induction m generalizing lo with
  | nil =>
    simp only [cellWrite]
    split
    · rfl
    · rw [cellsFrom_cons]; exact ⟨h, ‹_›, rfl⟩
  | cons c r ih =>
    obtain ⟨a, b⟩ := c
    have w' := w
    rw [cellsFrom_cons] at w
    obtain ⟨h1, h2, h3⟩ := w
    simp only [cellWrite]
    split
    · split
      · exact w'
      · rw [cellsFrom_cons, cellsFrom_cons]; exact ⟨h, ‹_›, by omega, h2, h3⟩
    · split
      · subst k
        split
        · exact cellsFrom_mono r lo (a + 1) (by omega) h3
        · rw [cellsFrom_cons]; exact ⟨h, ‹_›, h3⟩
      · rw [cellsFrom_cons]; exact ⟨h1, h2, ih (a + 1) h3 (by omega)⟩

/-- Writing a byte keeps the canonical form. -/
theorem wf_cellWrite (m : List Host.Cell) (k : Nat) (v : Byte) (w : Memory.wf m = true) : Memory.wf (cellWrite m k v) = true :=
  cellsFrom_cellWrite m 0 k v w (Nat.zero_le k)

/-- Writing bytes keeps the canonical form. -/
theorem wf_writeCells (m : List Host.Cell) (k : Nat) (bs : List Byte) (w : Memory.wf m = true) :
    Memory.wf (writeCells m k bs) = true := by
  induction bs generalizing m k with
  | nil => exact w
  | cons b r ih => exact ih _ _ (wf_cellWrite m k b w)

theorem cellsFrom_filter (m : List Host.Cell) (q : Host.Cell → Bool) (lo : Nat) (w : cellsFrom lo m = true) :
    cellsFrom lo (m.filter q) = true := by
  induction m generalizing lo with
  | nil => rfl
  | cons c r ih =>
    obtain ⟨a, b⟩ := c
    rw [cellsFrom_cons] at w
    rw [List.filter_cons]
    split
    · rw [cellsFrom_cons]; exact ⟨w.1, w.2.1, ih _ w.2.2⟩
    · exact ih lo (cellsFrom_mono r lo (a + 1) (by omega) w.2.2)

/-- Dropping cells keeps the canonical form. -/
theorem wf_filter (m : List Host.Cell) (q : Host.Cell → Bool) (w : Memory.wf m = true) : Memory.wf (m.filter q) = true :=
  cellsFrom_filter m q 0 w

/-- Clearing a range keeps the canonical form. -/
theorem wf_clearCells (m : List Host.Cell) (k n : Nat) (w : Memory.wf m = true) : Memory.wf (clearCells m k n) = true :=
  wf_filter m _ w

/-- Copying a range keeps the canonical form. -/
theorem wf_copyCells (old m : List Host.Cell) (src dst n : Nat) (w : Memory.wf m = true) :
    Memory.wf (copyCells old m src dst n) = true := by
  unfold copyCells
  generalize old.filter _ = l
  have h := wf_clearCells m dst n w
  generalize clearCells m dst n = a at h ⊢
  induction l generalizing a with
  | nil => exact h
  | cons c l ih => exact ih _ (wf_cellWrite a _ _ h)

/-- Writing the memory of a state keeps the canonical form. -/
theorem wf_writeBytes (s : State) (k : Nat) (bs : List Byte) (w : Memory.wf s.mem = true) :
    Memory.wf (s.writeBytes k bs).mem = true := wf_writeCells s.mem k bs w

/-- Memory at reset is canonical. -/
theorem wf_reset : Memory.wf State.reset.mem = true := rfl

/-! ## Read and write -/

/-- A byte written reads as what was written. -/
theorem cellRead_cellWrite_self (m : List Host.Cell) (lo k : Nat) (v : Byte) (w : cellsFrom lo m = true) :
    cellRead (cellWrite m k v) k = v := by
  induction m generalizing lo with
  | nil => by_cases h : v = blankByte <;> simp [cellWrite, cellRead, h]
  | cons c r ih =>
    obtain ⟨a, b⟩ := c
    have w' := w
    rw [cellsFrom_cons] at w
    simp only [cellWrite]
    split
    · split
      · rename_i h1 h2
        rw [h2]
        exact cellRead_below _ a k ((cellsFrom_cons a a b r).2 ⟨Nat.le_refl a, w.2⟩) h1
      · simp [cellRead]
    · split
      · split
        · rename_i h1 h2 h3
          rw [h3, h2]
          exact cellRead_below r (a + 1) a w.2.2 (by omega)
        · simp [cellRead]
      · rename_i h1 h2
        simp only [cellRead]
        rw [if_neg (by omega)]
        exact ih (a + 1) w.2.2

/-- A byte written leaves every other byte. -/
theorem cellRead_cellWrite_other (m : List Host.Cell) (k j : Nat) (v : Byte) (h : j ≠ k) :
    cellRead (cellWrite m k v) j = cellRead m j := by
  induction m with
  | nil => simp only [cellWrite]; split <;> simp [cellRead, Ne.symm h]
  | cons c r ih =>
    obtain ⟨a, b⟩ := c
    simp only [cellWrite]
    split
    · split
      · rfl
      · simp [cellRead, Ne.symm h]
    · split
      · subst k
        split <;> simp [cellRead, Ne.symm h]
      · simp only [cellRead, ih]

/-- Bytes outside the run written are left. -/
theorem cellRead_writeCells_other (m : List Host.Cell) (k j : Nat) (bs : List Byte) (h : j < k ∨ k + bs.length ≤ j) :
    cellRead (writeCells m k bs) j = cellRead m j := by
  induction bs generalizing m k with
  | nil => rfl
  | cons b r ih =>
    simp only [List.length_cons] at h
    simp only [writeCells]
    rw [ih _ _ (by omega), cellRead_cellWrite_other _ _ _ _ (by omega)]

/-- Each byte of the run reads as what was written. -/
theorem cellRead_writeCells_self (m : List Host.Cell) (k i : Nat) (bs : List Byte) (w : Memory.wf m = true) (h : i < bs.length) :
    cellRead (writeCells m k bs) (k + i) = bs[i] := by
  induction bs generalizing m k i with
  | nil => simp at h
  | cons b r ih =>
    simp only [writeCells]
    cases i with
    | zero =>
      rw [cellRead_writeCells_other _ _ _ _ (by omega)]
      exact cellRead_cellWrite_self m 0 k b w
    | succ i =>
      have := ih (cellWrite m k b) (k + 1) i (wf_cellWrite m k b w) (by simpa using h)
      rw [show k + (i + 1) = k + 1 + i by omega]
      simpa using this

/-- Bytes written read back. -/
theorem readCells_writeCells_self (m : List Host.Cell) (k : Nat) (bs : List Byte) (w : Memory.wf m = true) :
    readCells (writeCells m k bs) k bs.length = bs := by
  apply List.ext_getElem
  · simp [readCells]
  · intro i h1 h2
    simp [readCells, cellRead_writeCells_self m k i bs w h2]

/-- A cleared byte reads as blank; every other byte is left. -/
theorem cellRead_clearCells (m : List Host.Cell) (k n j : Nat) :
    cellRead (clearCells m k n) j = if k ≤ j ∧ j < k + n then blankByte else cellRead m j := by
  induction m with
  | nil => simp [clearCells, cellRead]
  | cons c r ih =>
    obtain ⟨a, b⟩ := c
    unfold clearCells at ih ⊢
    rw [List.filter_cons]
    by_cases h : (decide (a < k) || decide (k + n ≤ a)) = true
    · rw [if_pos h]
      simp only [cellRead, ih]
      simp only [Bool.or_eq_true, decide_eq_true_eq] at h
      by_cases e : a = j
      · rw [if_pos e, if_pos e, if_neg (by omega)]
      · rw [if_neg e, if_neg e]
    · rw [if_neg h, ih]
      simp only [Bool.or_eq_true, decide_eq_true_eq] at h
      simp only [cellRead]
      by_cases e : a = j
      · rw [if_pos (by omega), if_pos (by omega)]
      · rw [if_neg e]

/-! ## The state's own reads and writes -/

/-- A number written and read back. -/
theorem State.read_congr (s t : State) (k n : Nat) (h : ∀ j, k ≤ j → j < k + n → cellRead s.mem j = cellRead t.mem j) :
    s.read k n = t.read k n := by
  unfold State.read readCells
  congr 1
  apply List.map_congr_left
  intro i hi
  exact h (k + i) (by omega) (by have := List.mem_range.1 hi; omega)

end Sys2Proof.Machine
end

