-- ==== Sys2Proof/WellFormed.lean ====
section
/-! DEFINITION. Which terms of the syntax are instructions: a lane instruction passes R82's checks, ADD s0, s0, s0 is the
all-zero word that R61 makes ILLEGAL, and every other term is well formed by its type. -/

namespace Sys2Proof

/-- The slot that ILLEGAL names for a term that is no instruction (R82). -/
def Instr.illegalSlot (i : Instr) : Option Nat :=
  match laneOf i with
  | some (op, w) => firstSlot (laneChecks op w)
  | none => if i = .add 0 0 0 false then some 0 else none

/-- Well formed: R82 finds nothing wrong. -/
def Instr.wf (i : Instr) : Bool := i.illegalSlot.isNone

end Sys2Proof
end

