-- ==== Sys2Proof/Safety.lean ====
section
/-! DEFINITION. The terms in which claims about the machine are made: its invariants, and the conditions under which an
instruction has its own effect. -/

namespace Sys2Proof.Machine

/-! ## Invariants -/

/-- The device memory lists strictly rising addresses and no byte that an unlisted address already reads as (log 4). -/
abbrev State.memOk (s : State) : Prop := Memory.wf s.mem = true

/-! ## The scalar stream -/

/-- No register of the list is marked poisoned (R378); s0 never is. -/
abbrev Group.clean (g : Group) (srcs : List (Fin 64)) : Prop :=
  ∀ e ∈ g.poisonS, ∀ a ∈ srcs, a ≠ 0 → e.1 ≠ a.val

/-- No p-, b- or k-register of the list, by the numbers of their marks, is marked poisoned (R378). -/
abbrev Group.cleanOther (g : Group) (regs : List Nat) : Prop := ∀ e ∈ g.poisonS, e.1 ∉ regs

/-- The scalar pipeline of the current group's core agrees with itself (R376). -/
abbrev State.pipelineGood (s : State) : Prop :=
  ∀ b ∈ s.badLanes, ¬(b.1 = s.cur.place.coreIx ∧ b.2.1 = 0xFF)

/-- The instruction completes with the effects t, and the stream stands at the next word (R90). -/
def State.falls (s t : State) : Out := .next (t.retire (s.cur.spc + 4))

/-- The instruction writes one s-register and falls through. -/
def State.sets (s : State) (d : Fin 64) (x : Word) : Out := s.falls (s.ws d x)

/-- The instruction stops the group at its address with a fault (R91). -/
def State.raises (s : State) (cause slot : Nat) (addr detail : Word := 0) (brec : Option Nat := none) : Out :=
  .next (s.scalarFault { cause := cause, slot := slot, addr := addr, detail := detail, brec := brec })

/-- The instruction waits at its address. -/
def State.waits (s : State) (w : Wait) : Out := .next (s.waiting w)

/-- The state with what the report of an error changes taken from another: the errors counted, the poison told of, the event log and its
messages (R378, R385). -/
def State.reported (s t : State) : State :=
  { s with
    errors := t.errors, poisonSeen := t.poisonSeen, health := t.health, log := t.log, evHead := t.evHead, evDrop := t.evDrop
    evHeld := t.evHeld, msixPending := t.msixPending, hostOut := t.hostOut }

/-! ## Work -/

/-- The flag named by fl, if any, can count one more operation (R14). -/
abbrev State.hasRoom (s : State) (fl : Fin 13) : Prop := ∀ i : Fin 12, fl.val = i.val + 1 → s.cur.f[i] < 1023

/-- The flags with the named one raised by one (R14). -/
def Group.raised (g : Group) (fl : Fin 13) : Vector Nat 12 := Vector.ofFn fun i => if fl.val = i.val + 1 then g.f[i] + 1 else g.f[i]

/-- The work that the current group issues now under a flag. -/
def State.newWork (s : State) (fl : Fin 13) (k : WorkKind) : Work :=
  { id := s.nextId, group := s.cur.key, team := s.cur.team, ctx := (s.launchOf s.cur).ctx, die := s.cur.place.die, flag := flagOf fl, kind := k }

/-- An engine instruction is accepted: its work is pending under its flag, and the stream goes on; nothing else changes but
cached translations. -/
def State.accepts (s : State) (fl : Fin 13) (k : WorkKind) (o : Out) : Prop :=
  ∃ t : State, o = .next t ∧ t = { s with
    tlb := t.tlb, nextId := s.nextId + 1, work := s.work ++ [s.newWork fl k]
    cur := { s.cur with f := s.cur.raised fl, spc := s.cur.spc + 4, wait := .none, retired := s.cur.retired + 1 } }

/-- An engine instruction with fl = 0 is accepted and holds the stream until its work is done. -/
def State.acceptsAndWaits (s : State) (k : WorkKind) (o : Out) : Prop :=
  ∃ t : State, o = .next t ∧ t = { s with
    tlb := t.tlb, nextId := s.nextId + 1, work := s.work ++ [s.newWork 0 k], cur := { s.cur with wait := .engine s.nextId } }

/-- A piece of work is done: it is no longer pending, its flag falls by one, and a stream that waits for it goes on; every other
group, and every register, stays. -/
def State.finished (s t : State) (w : Work) : Prop :=
  t.work = s.work.filter (fun x => x.id != w.id) ∧ t.cur = (s.finishWork w).cur ∧ t.others = (s.finishWork w).others

/-- The array of the current group's core belongs to its team, is not slaved to its partner, and no matrix instruction of another
group waits in its stream (R187, R191, R201). -/
abbrev State.arrayGood (s : State) : Prop :=
  s.cur.place.onStack = false ∧ s.cur.place.coreIx ∈ (s.teamOf s.cur).arrays ∧ s.slaved s.cur.place.coreIx = false ∧
  s.streamTaken = false

/-- The partner's array is the team's too, and its core is not fenced (R201). -/
abbrev State.pairGood (s : State) : Prop :=
  partnerOf s.cur.place.coreIx ∈ (s.teamOf s.cur).arrays ∧ UnitRef.core (partnerOf s.cur.place.coreIx) ∉ s.fenced

/-- The group after an engine instruction that has been accepted under a flag (R14). -/
def Group.accepted (g : Group) (fl : Fin 13) : Group :=
  { g with f := g.raised fl, spc := g.spc + 4, wait := .none, retired := g.retired + 1 }

/-! ## The lane stream -/

/-- The lane instruction that issues now has its own effect: its clause has started, its word is well formed (R82), its flag and its
registers are free in the clause (R73), a stack core has it (R348), its guard is not poisoned and some thread is active (R121), no active
source is poisoned (R378), the sources of a uniform instruction agree (R123), and no physical lane disagrees (R376). -/
abbrev State.laneGood (s : State) (op : Nat) (w : LaneFields) : Prop :=
  let act := activeMask s.cur w
  s.cur.clause.isSome = true ∧ firstSlot (laneChecks op w) = none ∧ clauseSlot s.cur op w = none ∧
  stackLacks s.cur op w = false ∧ guardCheck s.cur w = none ∧ act ≠ 0 ∧ poisonCheck s.cur (laneOthers op w ++ laneSources op w) act = none ∧
  (w.u = true ∨ op = 0xA6 → uniformCheck s.cur (laneSources op w) act = none) ∧
  (isLongOp op = false → s.badLane w act = none)

/-- The lane instruction completes with the effects t, and the clause goes on (R16, R121). -/
def State.lanes (t : State) : Out := .next (t.laneDone [])

/-- The threads that a result is computed for: the active ones, or the lowest of them in a uniform instruction (R122). -/
def State.laneThreads (s : State) (w : LaneFields) : List (Fin 32) :=
  if w.u then [lowest (activeMask s.cur w)] else threads (activeMask s.cur w)

/-- The lane instruction writes each active thread's result to d, or the uniform result, and raises status bits; nothing else
changes but the place in the clause. -/
def State.lanesTo (s : State) (w : LaneFields) (sgn : Bool) (f : Fin 32 → Word32) (fl : Flags5 := 0) (nf : BitVec 4 := 0) : Out :=
  State.lanes (s.setCur ((s.cur.raiseStatus fl nf).writeDst w.d (activeMask s.cur w) sgn
    fun t => f (if w.u then lowest (activeMask s.cur w) else t)))

/-- The lane instruction writes each active thread's bit of pd. -/
def State.lanesTest (s : State) (w : LaneFields) (f : Fin 32 → Bool) (fl : Flags5 := 0) : Out :=
  State.lanes (s.setCur ((s.cur.raiseStatus fl 0).writePred w.pd (activeMask s.cur w)
    fun t => f (if w.u then lowest (activeMask s.cur w) else t)))

/-! ## Floats (R36-R39) -/

/-- The value of a magnitude encoding (R36), the exponents going on past the format's last. -/
def Fmt.mag (f : Fmt) (n : Nat) : ℚ :=
  let ex := n / 2 ^ (f.p - 1); let fr := n % 2 ^ (f.p - 1)
  if ex = 0 then (fr : ℚ) * 2 ^ f.qmin else ((2 ^ (f.p - 1) + fr : Nat) : ℚ) * 2 ^ (f.qmin + ((ex - 1 : Nat) : Int))

/-- A non-negative number rounded to one of two neighbours in a mode of R37 (6 rounds as RNE): how far it lies above the lower and below
the upper one, and whether the lower one is odd. -/
def roundsUp (rm : Nat) (neg odd : Bool) (low high : ℝ) : Prop :=
  match rm with
  | 1 => False
  | 2 => neg = true ∧ low ≠ 0
  | 3 => neg = false ∧ low ≠ 0
  | 4 => high ≤ low
  | _ => high < low ∨ (high = low ∧ odd = true)

/-- The magnitude encoding that a non-negative number rounds to, before any overflow (R37). -/
def Fmt.rounds (f : Fmt) (rm : Nat) (neg : Bool) (a : ℝ) (n : Nat) : Prop :=
  ∃ k : Nat, (f.mag k : ℝ) ≤ a ∧ a < (f.mag (k + 1) : ℝ) ∧
    let up := roundsUp rm neg (k % 2 == 1) (a - f.mag k) (f.mag (k + 1) - a)
    (up ∧ n = k + 1) ∨ (¬ up ∧ n = k)

/-- A non-negative number is tiny after rounding (R39): with the precision of the format and no least exponent, it rounds to less than the
least normal value. -/
def Fmt.tiny (f : Fmt) (rm : Nat) (neg : Bool) (a : ℝ) : Prop :=
  let least : ℝ := 2 ^ (f.qmin + (f.p : Int) - 1)
  let last : ℝ := least - 2 ^ (f.qmin - 1)
  a ≤ last ∨ (a < least ∧ ¬ roundsUp rm neg true (a - last) (least - a))

/-- The encoding and the conditions of a non-zero exact result of a sign and a magnitude (R25, R37, R39): its one rounding; zero of its sign
with UF and NX where it is tiny under FTZ; OF and NX where it overflows. -/
def Fmt.gives (f : Fmt) (rm : Nat) (ftz neg : Bool) (a : ℝ) (r : Nat × Flags5) : Prop :=
  let sign := if neg then 2 ^ f.sign else 0
  let keeps := rm = 1 ∨ rm = 6 ∨ (rm = 2 ∧ neg = false) ∨ (rm = 3 ∧ neg = true)
  let flushed := f.tiny rm neg a ∧ ftz = true
  ∃ n, f.rounds rm neg a n ∧
    (flushed → r = (sign, 3)) ∧
    (¬ flushed → f.inf ≤ n → r.2 = 5 ∧ (keeps → r.1 = sign + f.inf - 1) ∧ (¬ keeps → r.1 = sign + f.inf)) ∧
    (¬ flushed → n < f.inf → r.1 = sign + n ∧ ((f.mag n : ℝ) = a → r.2 = 0) ∧
      ((f.mag n : ℝ) ≠ a → (f.tiny rm neg a → r.2 = 3) ∧ (¬ f.tiny rm neg a → r.2 = 1)))

/-- The integer that a non-negative number rounds to in a mode (R37). -/
def roundsInt (rm : Nat) (neg : Bool) (a : ℝ) (n : Nat) : Prop :=
  ∃ k : Nat, (k : ℝ) ≤ a ∧ a < k + 1 ∧
    let up := roundsUp rm neg (k % 2 == 1) (a - k) (k + 1 - a)
    (up ∧ n = k + 1) ∨ (¬ up ∧ n = k)

/-- The value of a finite float (R36). -/
def FVal.rat : FVal → ℚ
  | .fin neg m e => (if neg then -1 else 1) * m * 2 ^ e
  | _ => 0

/-- A rounded exact result: a non-zero value by its one rounding, zero with the given sign and no condition. -/
def Fmt.result (f : Fmt) (rm : Nat) (ftz : Bool) (v : ℚ) (zeroNeg : Bool) (r : Nat × Flags5) : Prop :=
  (v ≠ 0 → f.gives rm ftz (decide (v < 0)) ((|v| : ℚ) : ℝ) r) ∧ (v = 0 → r = (if zeroNeg then 2 ^ f.sign else 0, 0))

/-- One thread's sources (R119). -/
def State.srcA (s : State) (w : LaneFields) (t : Fin 32) : Word32 := s.cur.rv w.a t
def State.srcC (s : State) (w : LaneFields) (t : Fin 32) : Word32 := s.cur.rv w.c t

end Sys2Proof.Machine
end

