-- ==== Sys2Proof/Laws/Scalar.lean ====
section
/-! SUPPORT. What a scalar instruction can do: complete with what its body gives, halt as its body says, or stop on a poisoned
source; one lemma for each shared operation of the scalar stream. -/

namespace Sys2Proof.Machine

/-! ## Clean sources -/

theorem Group.clean_nil (g : Group) : g.clean [] := fun _ _ _ ha => absurd ha (List.not_mem_nil)

theorem Group.clean_of_subset (g : Group) {l m : List (Fin 64)} (hc : g.clean l) (h : ∀ a ∈ m, a ∈ l) : g.clean m :=
  fun e he a ha h0 => hc e he a (h a ha) h0

/-- No source of a clean group is poisoned. -/
theorem Group.poisonedSrc_clean (g : Group) (l : Srcs) (h : g.clean (l.map (·.2))) : g.poisonedSrc l = none := by
  unfold Group.poisonedSrc
  rw [List.findSome?_eq_none_iff]
  intro q hq
  rw [Option.map_eq_none_iff, List.find?_eq_none]
  intro e he
  have := h e he q.2 (List.mem_map.2 ⟨q, hq, rfl⟩)
  by_cases h0 : q.2 = 0 <;> simp_all

/-- No other register of a clean group is poisoned. -/
theorem Group.poisonedOther_clean (g : Group) (l : List (Nat × Nat)) (h : g.cleanOther (l.map (·.2))) : g.poisonedOther l = none := by
  unfold Group.poisonedOther
  rw [List.findSome?_eq_none_iff]
  intro q hq
  rw [Option.map_eq_none_iff, List.find?_eq_none]
  intro e he
  have := h e he
  simp only [beq_iff_eq]
  exact fun c => this (List.mem_map.2 ⟨q, hq, c.symm⟩)

/-- The p-, b- and k-registers that a scalar instruction reads, by its buffer record and the others named. -/
abbrev otherRegs (brec : Option Nat) (regs : List (Nat × Nat)) : List (Nat × Nat) := brec.toList.map (fun n => (7, recReg n)) ++ regs

/-! ## Scalar instructions -/

/-- A scalar instruction with clean sources completes with what its body gives. -/
theorem scalarTo_ok (srcs : Srcs) (body : State → Except Halt (State × Word)) (s t : State) (a : Word)
    (hc : s.cur.clean (srcs.map (·.2))) (hb : body s = .ok (t, a)) (brec : Option Nat := none) (regs : List (Nat × Nat) := [])
    (ho : s.cur.poisonedOther (otherRegs brec regs) = none := by rfl) : scalarTo srcs body s brec regs = .next (t.retire a) := by
  simp only [scalarTo, ho, Group.poisonedSrc_clean _ _ hc, hb, Option.or_none]

/-- A scalar instruction with clean sources halts as its body says. -/
theorem scalarTo_error (srcs : Srcs) (body : State → Except Halt (State × Word)) (s : State) (h : Halt)
    (hc : s.cur.clean (srcs.map (·.2))) (hb : body s = .error h) (brec : Option Nat := none) (regs : List (Nat × Nat) := [])
    (ho : s.cur.poisonedOther (otherRegs brec regs) = none := by rfl) : scalarTo srcs body s brec regs = .next (s.scalarHalt h) := by
  simp only [scalarTo, ho, Group.poisonedSrc_clean _ _ hc, hb, Option.or_none]

/-- Everything a scalar instruction can do. -/
theorem scalarTo_cases (srcs : Srcs) (body : State → Except Halt (State × Word)) (s : State) (brec : Option Nat) (regs : List (Nat × Nat)) :
    (∃ slot o, (s.cur.poisonedOther (otherRegs brec regs)).or (s.cur.poisonedSrc srcs) = some (slot, o) ∧
      scalarTo srcs body s brec regs = .next ((((otherRegs brec regs).map (·.2) ++ srcs.map (·.2.val)).foldl
        (fun t r => t.noteReg 0xFFFFFFFF (r + 64)) s).scalarFault (poisonFault slot o brec))) ∨
    (∃ t a, body s = .ok (t, a) ∧ scalarTo srcs body s brec regs = .next (t.retire a)) ∨
    (∃ h, body s = .error h ∧ scalarTo srcs body s brec regs = .next (s.scalarHalt h)) := by
  unfold scalarTo
  dsimp only
  split
  · exact .inl ⟨_, _, ‹_›, rfl⟩
  · split
    · exact .inr (.inl ⟨_, _, ‹_›, rfl⟩)
    · exact .inr (.inr ⟨_, ‹_›, rfl⟩)

/-- A scalar instruction that falls through, with clean sources. -/
theorem scalar_ok (srcs : Srcs) (body : State → Res) (s t : State) (hc : s.cur.clean (srcs.map (·.2))) (hb : body s = .ok t)
    (brec : Option Nat := none) (regs : List (Nat × Nat) := []) (ho : s.cur.poisonedOther (otherRegs brec regs) = none := by rfl) :
    scalar srcs body s brec regs = s.falls t :=
  scalarTo_ok srcs _ s t _ hc (by rw [hb]; rfl) brec regs ho

theorem scalar_error (srcs : Srcs) (body : State → Res) (s : State) (h : Halt) (hc : s.cur.clean (srcs.map (·.2)))
    (hb : body s = .error h) (brec : Option Nat := none) (regs : List (Nat × Nat) := [])
    (ho : s.cur.poisonedOther (otherRegs brec regs) = none := by rfl) : scalar srcs body s brec regs = .next (s.scalarHalt h) :=
  scalarTo_error srcs _ s h hc (by rw [hb]; rfl) brec regs ho

/-- A body that raises a fault stops the group at the instruction. -/
theorem scalar_raises (srcs : Srcs) (body : State → Res) (s : State) (cause slot : Nat) (addr detail : Word) (brec : Option Nat)
    (hc : s.cur.clean (srcs.map (·.2))) (hb : body s = failAddr cause slot addr detail brec) :
    scalar srcs body s = s.raises cause slot addr detail brec :=
  scalar_error srcs body s _ hc hb

theorem scalarTo_raises (srcs : Srcs) (body : State → Except Halt (State × Word)) (s : State) (cause slot : Nat)
    (addr detail : Word) (brec : Option Nat) (hc : s.cur.clean (srcs.map (·.2)))
    (hb : body s = failAddr cause slot addr detail brec) (regs : List (Nat × Nat) := [])
    (ho : s.cur.poisonedOther (otherRegs none regs) = none := by rfl) :
    scalarTo srcs body s none regs = s.raises cause slot addr detail brec :=
  scalarTo_error srcs body s _ hc hb none regs ho

/-- A body that stalls leaves the group waiting at the instruction. -/
theorem scalar_waits (srcs : Srcs) (body : State → Res) (s : State) (w : Wait) (hc : s.cur.clean (srcs.map (·.2)))
    (hb : body s = stall s w) : scalar srcs body s = s.waits w :=
  scalar_error srcs body s _ hc hb

/-- An arithmetic instruction on a good pipeline with clean sources completes with what its body gives. -/
theorem alu_ok (srcs : Srcs) (body : State → Res) (s t : State) (hp : s.pipelineGood) (hc : s.cur.clean (srcs.map (·.2)))
    (hb : body s = .ok t) : alu srcs body s = s.falls t := by
  have h : (s.badLanes.any fun b => b.1 == s.cur.place.coreIx && b.2.1 == 0xFF) = false := by
    rw [List.any_eq_false]
    intro b hb
    have := hp b hb
    simpa using this
  exact scalar_ok srcs _ s t hc (by simp [h, hb])

/-- The register form writes the result of its function on the extended sources (R93). -/
theorem aluOp_ok (sgn : Bool) (f : Word → Word → Nat → Word) (d a b : Fin 64) (w : Bool) (s : State) (hp : s.pipelineGood)
    (hc : s.cur.clean [a, b]) :
    aluOp sgn f d a b w s = s.sets d (aluDst w (f (aluSrc sgn w (s.rs a)) (aluSrc sgn w (s.rs b)) (aluWidth w))) :=
  alu_ok [(10, a), (11, b)] _ s _ hp hc rfl

theorem aluUn_ok (f : Nat → Nat → Nat) (d a : Fin 64) (w : Bool) (s : State) (hp : s.pipelineGood) (hc : s.cur.clean [a]) :
    aluUn f d a w s = s.sets d (BitVec.ofNat 64 (f (aluWidth w) (aluSrc false w (s.rs a)).toNat)) :=
  alu_ok [(10, a)] _ s _ hp hc rfl

theorem aluImm_ok (f : Word → Word) (d a : Fin 64) (s : State) (hp : s.pipelineGood) (hc : s.cur.clean [a]) :
    aluImm f d a s = s.sets d (f (s.rs a)) :=
  alu_ok [(10, a)] _ s _ hp hc rfl

/-- A conditional branch goes to its target where its condition holds and the target lies in .scode, is PROT where it lies
outside, and falls through otherwise (R92, R97). -/
theorem branch_spec (srcs : Srcs) (holds : State → Bool) (off : Word) (s : State) (hc : s.cur.clean (srcs.map (·.2)))
    (regs : List (Nat × Nat) := []) (ho : s.cur.poisonedOther (otherRegs none regs) = none := by rfl) :
    branch srcs holds off s regs =
      if holds s then
        (if s.inScode s.cur (s.cur.spc + off * 4).toNat then .next (s.retire (s.cur.spc + off * 4))
         else s.raises causeProt 0xFF (s.cur.spc + off * 4) 3)
      else s.falls s := by
  unfold branch
  cases h : holds s with
  | false => exact scalarTo_ok srcs _ s s _ hc (by simp [h]) none regs ho
  | true =>
    cases hi : s.inScode s.cur (s.cur.spc + off * 4).toNat with
    | false => exact scalarTo_raises srcs _ s _ _ _ _ _ hc (by rw [if_pos h]; unfold State.target; rw [hi]; rfl) regs ho
    | true => exact scalarTo_ok srcs _ s s _ hc (by rw [if_pos h]; unfold State.target; rw [hi]; rfl) none regs ho

/-- A jump to a register (R98). -/
theorem jumpReg_spec (a : Fin 64) (slot : Nat) (s : State) (hc : s.cur.clean [a]) :
    jumpReg a slot s =
      if (s.rs a).toNat % 4 ≠ 0 then s.raises causeAlign slot
      else if s.inScode s.cur (s.rs a).toNat then .next (s.retire (s.rs a)) else s.raises causeProt slot (s.rs a) 3 := by
  unfold jumpReg
  by_cases h : (s.rs a).toNat % 4 ≠ 0
  · rw [if_pos h]; exact scalarTo_raises [(slot, a)] _ s _ _ _ _ _ hc (by rw [if_pos h]; rfl)
  · rw [if_neg h]
    cases hi : s.inScode s.cur (s.rs a).toNat with
    | false => exact scalarTo_raises [(slot, a)] _ s _ _ _ _ _ hc (by rw [if_neg h]; unfold State.target; rw [hi]; rfl)
    | true => exact scalarTo_ok [(slot, a)] _ s s _ hc (by rw [if_neg h]; unfold State.target; rw [hi]; rfl)

/-! ## Signed offsets -/

theorem sext64_toInt {n : Nat} (x : BitVec n) (h : n ≤ 64) : (sext64 x).toInt = x.toInt := by
  simp [sext64, BitVec.toInt_signExtend_of_le h]

/-- A sign-extended offset times a small constant is the constant times its value. -/
theorem sext64_mul {n : Nat} (x : BitVec n) (k : Nat) (h : n ≤ 64) (hk : k ≤ 8) :
    sext64 x * BitVec.ofNat 64 k = BitVec.ofInt 64 (k * x.toInt) := by
  have hk' : (BitVec.ofNat 64 k).toInt = k := by
    interval_cases k <;> rfl
  apply BitVec.eq_of_toInt_eq
  rw [BitVec.toInt_mul, sext64_toInt x h, BitVec.toInt_ofInt, hk', Int.mul_comm]

end Sys2Proof.Machine
end

