-- ==== Sys2Proof/Laws/Translate.lean ====
section
/-! SUPPORT. Translation changes the cached translations and nothing else. -/

namespace Sys2Proof.Machine

/-- The state is the same but for cached translations. -/
def State.SameButTlb (s t : State) : Prop := t = { s with tlb := t.tlb }

theorem State.SameButTlb.refl (s : State) : s.SameButTlb s := rfl

theorem State.SameButTlb.trans {s t u : State} (h : s.SameButTlb t) (k : t.SameButTlb u) : s.SameButTlb u := by
  unfold State.SameButTlb at *
  rw [h] at k
  exact k

theorem State.SameButTlb.cur {s t : State} (h : s.SameButTlb t) : t.cur = s.cur := by rw [h]
theorem State.SameButTlb.mem {s t : State} (h : s.SameButTlb t) : t.mem = s.mem := by rw [h]
theorem State.SameButTlb.poisoned {s t : State} (h : s.SameButTlb t) : t.poisoned = s.poisoned := by rw [h]

theorem State.cache_same (s : State) (l : Tlb) : s.SameButTlb (s.cache l) := by
  unfold State.cache State.SameButTlb
  split <;> rfl

/-- A line that is good gives the state with its translation cached. -/
theorem State.line_ok {s t : State} {k : Acc} {va slot : Nat} {brec : Option Nat} {l : Tlb}
    (h : s.line k va slot brec = .ok (t, l)) : t = s.cache l := by
  unfold State.line at h
  dsimp only at h
  split at h
  · simp only [Except.ok.injEq, Prod.mk.injEq] at h
    rw [← h.1, h.2]
  all_goals cases h

theorem State.line_same {s t : State} {k : Acc} {va slot : Nat} {brec : Option Nat} {l : Tlb}
    (h : s.line k va slot brec = .ok (t, l)) : s.SameButTlb t := by
  rw [State.line_ok h]; exact s.cache_same l

/-- So do the lines of a range. -/
theorem State.runs_same {k : Acc} {slot : Nat} (rs : List (Nat × Nat × Nat)) {s t : State} {ks : List (Nat × Nat × Nat)}
    (h : s.runs k slot rs = .ok (t, ks)) : s.SameButTlb t := by
  induction rs generalizing s t ks with
  | nil => simp only [State.runs, Except.ok.injEq, Prod.mk.injEq] at h; rw [← h.1]; exact .refl s
  | cons r rs ih =>
    obtain ⟨off, a, n⟩ := r
    simp only [State.runs] at h
    split at h
    · cases h
    · rename_i u l hl
      split at h
      · cases h
      · rename_i v ks' hr
        simp only [Except.ok.injEq, Prod.mk.injEq] at h
        rw [← h.1]
        exact (State.line_same hl).trans (ih hr)

/-- And fetching a word. -/
theorem State.fetch_same {s t : State} {va n w : Nat} (h : s.fetch va n = .ok (t, w)) : s.SameButTlb t := by
  unfold State.fetch at h
  split at h
  · cases h
  · rename_i u rs hr
    split at h
    · cases h
    · simp only [Except.ok.injEq, Prod.mk.injEq] at h
      rw [← h.1]
      exact State.runs_same _ hr

end Sys2Proof.Machine
end

