-- ==== Sys2Proof/Certificates/Slice0/Obligations.lean ====
section
/-! DEFINITION. The statements for the provers. -/

open Sys2Proof Sys2Proof.Machine

/-- Words written out from the encodings of R60-R80 decode to the instructions they stand for. -/
def Claim.DecodeSamples : Prop :=
  decodeTableWord 32 0x01C82600 = some (.add 7 8 9 true) ∧
  decodeTableWord 32 0x01461C01 = some (.sub 5 6 7 false) ∧
  decodeTableWord 32 0x10200010 = some (.addi 4 0 16) ∧
  decodeTableWord 32 0x20600001 = some (.li 6 1) ∧
  decodeTableWord 32 0x1830C02B = some (.shli 6 6 43) ∧
  decodeTableWord 32 0x1430C03B = some (.ori 6 6 0x3B) ∧
  decodeTableWord 32 0x50200004 = some (.sld 4 0 0 4) ∧
  decodeTableWord 32 0x5C010204 = some (.bld 2 1 4) ∧
  decodeTableWord 32 0x60000000 = some (.lq 0) ∧
  decodeTableWord 32 0x68000002 = some (.fwait 2) ∧
  decodeTableWord 32 0x90041462 = some (.rbulk 4 5 3 2) ∧
  decodeTableWord 32 0x90400000 = some .rquiet ∧
  decodeTableWord 32 0xA0861400 = some (.arrwait 6 5 0) ∧
  decodeTableWord 32 0xD0200018 = some (.crd 8 0x18) ∧
  decodeTableWord 96 0xE4800509D100320000000000 = some (.ronce (laneFields 0xE4800509D100320000000000)) ∧
  decodeTableWord 32 0 = none

/-- Words written out from the encoding tables decode to the instructions they stand for: the claim above. -/
def Obligations.EncodedWordsDecode : Prop := Claim.DecodeSamples

/-- Decoding the encoding of a well-formed instruction gives it back, with every operand at every value that the encoding
admits. -/
def Claim.DecodeEncode : Prop :=
  ∀ (i : Instr) (n w : Nat), i.wf = true → encode i = some (n, w) → decodeTableWord n w = some i

/-- What decodes is well formed, and its encoding is the word it was decoded from. -/
def Claim.EncodeDecode : Prop :=
  (∀ (i : Instr) (w : Nat), w < 2 ^ 32 → decodeTableWord 32 w = some i → i.wf = true ∧ encode i = some (32, w)) ∧
  ∀ (i : Instr) (w : Nat), w < 2 ^ 96 → decodeTableWord 96 w = some i → i.wf = true ∧ encode i = some (96, w)

/-- Decoding an encoded well-formed instruction gives it back, and encoding a decoded one gives its word: the claims above together. -/
def Obligations.DecodeAndEncodeAgree : Prop := Claim.DecodeEncode ∧ Claim.EncodeDecode

/-- A scalar turn of a ready group runs the instruction that the word at SPC decodes to, on the state with that group current
and its translation cached; where the agenda is empty the same happens once no event is due and the group is next (log 2). A group
that has a user trap to take takes it instead (R114); one whose fault has waited for its lane queue stops with it (R254), and so does one whose trap entry has failed (R92); and of one that
the lane stream has stopped, the current instruction has its effect only where it completes or is accepted (R255). -/
def Claim.StepRunsScalarWord : Prop :=
  ∀ (s u t : State) (key w : Nat) (g : Group) (i : Instr),
    ((∃ r, s.agenda = .scalar key :: r ∧ u = { s with agenda := r }) ∨
      (s.agenda = [] ∧ u = s ∧ (s.due exec).findSome? s.effect = none ∧
        (s.others ++ [s.cur]).findSome? (s.groupTurn exec) = some (.scalar key))) →
    u.group key = some g →
    let v := (u.noteScalar key).focus key
    (u.trapTakeable g = true → step s = afterTick (exec (.userTrapEntry key) u)) ∧
    (u.scalarReady exec g = true → v.cur.stop = .running →
      (∀ f, v.cur.wait = .drain (some f) → step s = afterTick (.next (v.scalarFault f))) ∧
      (∀ code, v.cur.wait = .trapDrain code → step s = afterTick (.next (v.badTrap code))) ∧
      ((∀ f, v.cur.wait ≠ .drain (some f)) → (∀ code, v.cur.wait ≠ .trapDrain code) → v.scalarWord v.cur = .ok (t, w) → decodeScalar w = .ok i →
        step s = afterTick (exec i t))) ∧
    (u.scalarReady exec g = true → v.cur.stop ≠ .running → (∀ f, v.cur.wait ≠ .drain (some f)) → (∀ code, v.cur.wait ≠ .trapDrain code) →
      v.scalarWord v.cur = .ok (t, w) → decodeScalar w = .ok i → ∀ x, exec i t = .next x →
      ((∃ f, x.cur.wait = .drain f) → step s = afterTick (.next (v.waiting .none))) ∧
      ((∀ f, x.cur.wait ≠ .drain f) → step s = afterTick (.next x)))

/-- A lane turn of a group whose clause has started, and whose turn on its lane it is (R248), runs the instruction that the lane word at
the clause's position decodes to; in the same cases as the scalar turn. -/
def Claim.StepRunsLaneWord : Prop :=
  ∀ (s u t : State) (key w : Nat) (g : Group) (e : LqEntry) (q : List LqEntry) (i : Instr),
    ((∃ r, s.agenda = .lane key :: r ∧ u = { s with agenda := r }) ∨
      (s.agenda = [] ∧ u = s ∧ (s.due exec).findSome? s.effect = none ∧
        (s.others ++ [s.cur]).findSome? (s.groupTurn exec) = some (.lane key))) →
    u.group key = some g → u.laneReady g = true → u.laneIsNext g = true → g.lq = e :: q → e.started = true →
    let v := (u.noteLane g).focus key
    v.cur.lq = e :: q → v.fetch (v.laneWordAt v.cur (e.idx + 1 + e.pos)) 12 = .ok (t, w) → decodeLane w = .ok i →
    step s = afterTick (exec i t)

/-- An event named by the agenda happens: step is its meaning, and a cycle passes. An instruction word is no event. -/
def Claim.StepRunsEvent : Prop :=
  ∀ (s : State) (i : Instr) (r : List Turn), s.agenda = .event i :: r →
    (isEvent i = true → step s = afterTick (exec i { s with agenda := r })) ∧
    (isEvent i = false → step s = .next { s with agenda := r }.tick.watch.watchParked) ∧
    (isEvent i = (encode i).isNone)

/-- A step runs the instruction that the fetched word decodes to, or the event that is due: the claims above together. -/
def Obligations.StepRunsDecodedInstruction : Prop := Claim.StepRunsScalarWord ∧ Claim.StepRunsLaneWord ∧ Claim.StepRunsEvent

/-- Every 32-bit word that decodes, placed after reset, is run by the next step; and every 96-bit lane word, as the one
instruction of a started clause, its slot being then the one that issued last on its lane (R248). Where the word is placed, and what is
launched for it to run, is the model's choice (log 1, DESIGN CHOICE). -/
def Claim.PlacedWordRuns : Prop :=
  (∀ (w : Nat) (i : Instr), w < 2 ^ 32 → decodeTableWord 32 w = some i →
    step (State.reset.withFetchWord 32 w) = afterTick (exec i { State.reset.withFetchWord 32 w with agenda := [] })) ∧
  ∀ (w : Nat) (i : Instr), w < 2 ^ 96 → decodeTableWord 96 w = some i →
    let s := State.reset.withFetchWord 96 w
    step s = afterTick (exec i { s with agenda := [], cur := { s.cur with laneLast := true }, laneSlots := [(0, 0, 0)] })

/-- Every word that decodes, placed after reset, is run by the next step: the claim above. -/
def Obligations.PlacedWordRunsNext : Prop := Claim.PlacedWordRuns

/-- No step stops the machine: every step from every state is a next state. -/
def Claim.StepAlwaysNext : Prop := ∀ s : State, ∃ t, step s = .next t

/-- No step from any state stops the machine: the claim above. -/
def Obligations.EveryStepHasNextState : Prop := Claim.StepAlwaysNext

/-- A step keeps the canonical form of memory: addresses strictly rising, no byte listed that an unlisted address reads as
(log 4). -/
def Claim.StepKeepsMemory : Prop := ∀ s t : State, s.memOk → step s = .next t → t.memOk

/-- Every step keeps the canonical form of memory: the claim above. -/
def Obligations.StepKeepsMemoryCanonical : Prop := Claim.StepKeepsMemory

/-- Memory at reset is in canonical form and every byte of it reads as zero (log 4, DESIGN CHOICE). -/
def Claim.ResetMemory : Prop := State.reset.memOk ∧ ∀ k, cellRead State.reset.mem k = 0

/-- The machine after cold reset (R9, R21, R298, R338, R356, R385, R393, R394): no context, launch, team or group; memory empty and with no poison;
nothing fenced, sent, held or pending; every queue disabled, its registers zero; the event log empty; the parameters at their defaults; the
clock at its full rate. The values that the spec does not give are the model's (logs 8, 24). -/
def Claim.ResetValues : Prop :=
  let s := State.reset
  s.cur.live = false ∧ s.others = [] ∧ s.teams = [] ∧ s.launches = [] ∧ s.ctxs = [] ∧ s.cores = [] ∧ s.work = [] ∧ s.tlb = [] ∧
  (∀ k, cellRead s.mem k = 0) ∧ s.poisoned = [] ∧ s.soft = [] ∧ s.fenced = [] ∧ s.now = 0 ∧ s.ns = 0 ∧ s.mhz = 2700 ∧
  s.cur.p[0] = 0xFFFFFFFF ∧ s.cur.lscale = 0x3F800000 ∧ s.cur.fpctl = 0 ∧ s.cur.fpstat = 0 ∧ (∀ i : Fin 64, s.cur.s[i] = 0) ∧
  (∀ n, s.queue n = { q := n }) ∧ s.evHead = 0 ∧ s.evTail = 0 ∧ s.evDrop = 0 ∧ s.log = [] ∧ s.params.loaded = false ∧ s.params.drain = 65536 ∧
  s.params.replicaGiB = 4 ∧ s.params.migrationGiB = 1 ∧ s.params.slack = 20 ∧ s.params.maxVolt = 50 ∧ s.params.mxChecks = 3 ∧
  s.params.chBursts = 2 ∧ s.params.spadWords = 4 ∧ s.cal = none ∧ s.inflight = [] ∧ s.outbox = [] ∧ s.remotes = [] ∧
  (∀ i : Fin 64, s.ctxPasid[i] = 0) ∧ s.bar2win = 0 ∧ s.pbAddr = 0

/-- Reset leaves the values of the specification, and memory listing nothing: the claims above together. -/
def Obligations.ResetStateAsSpecified : Prop := Claim.ResetMemory ∧ Claim.ResetValues

/-- The register form of R93 and R94 with the edge results of R35, for both widths: each result is computed on the exact values
of the sources, reduced to n bits and sign-extended; the instruction falls through. -/
def Claim.ScalarRegisterForm : Prop :=
  ∀ (s : State) (d a b : Fin 64) (w : Bool), s.pipelineGood → s.cur.clean [a, b] →
    let n : Nat := if w then 32 else 64
    let x : Nat := (s.rs a).toNat % 2 ^ n
    let y : Nat := (s.rs b).toNat % 2 ^ n
    let sx : Int := if x < 2 ^ (n - 1) then x else x - 2 ^ n
    let sy : Int := if y < 2 ^ (n - 1) then y else y - 2 ^ n
    let c : Nat := y % n
    let gives := fun (i : Instr) (r : Int) =>
      exec i s = s.sets d (if w then (BitVec.ofInt 32 r).signExtend 64 else BitVec.ofInt 64 r)
    gives (.add d a b w) (x + y) ∧
    gives (.sub d a b w) (x - y) ∧
    gives (.mul d a b w) (x * y) ∧
    gives (.mulh d a b w) ((sx * sy).fdiv (2 ^ n)) ∧
    gives (.mulhn d a b w) ((x * y / 2 ^ n : Nat)) ∧
    gives (.div d a b w) (if y = 0 then -1 else sx.tdiv sy) ∧
    gives (.divn d a b w) (if y = 0 then 2 ^ n - 1 else (x / y : Nat)) ∧
    gives (.rem d a b w) (if y = 0 then sx else sx.tmod sy) ∧
    gives (.remn d a b w) (if y = 0 then x else (x % y : Nat)) ∧
    gives (.and d a b w) ((x &&& y : Nat)) ∧
    gives (.or d a b w) ((x ||| y : Nat)) ∧
    gives (.xor d a b w) ((x ^^^ y : Nat)) ∧
    gives (.andn d a b w) ((x &&& (2 ^ n - 1 - y) : Nat)) ∧
    gives (.shl d a b w) ((x * 2 ^ c : Nat)) ∧
    gives (.shr d a b w) ((x / 2 ^ c : Nat)) ∧
    gives (.sar d a b w) (sx.fdiv (2 ^ c)) ∧
    gives (.min d a b w) (Min.min sx sy) ∧
    gives (.max d a b w) (Max.max sx sy) ∧
    gives (.minn d a b w) ((Min.min x y : Nat)) ∧
    gives (.maxn d a b w) ((Max.max x y : Nat)) ∧
    gives (.slt d a b w) (if sx < sy then 1 else 0) ∧
    gives (.sltn d a b w) (if x < y then 1 else 0) ∧
    gives (.seq d a b w) (if x = y then 1 else 0)

/-- The unary members of R94: CLZ and CTZ count zeros from either end of the n-bit source up to its first one, and POPC counts
its ones. -/
def Claim.ScalarBitCounts : Prop :=
  ∀ (s : State) (d a : Fin 64) (w : Bool), s.pipelineGood → s.cur.clean [a] →
    let n : Nat := if w then 32 else 64
    let one := fun i => (s.rs a).getLsbD i = true
    (∃ r, exec (.clz d a w) s = s.sets d (BitVec.ofNat 64 r) ∧ r ≤ n ∧ (∀ i < r, ¬ one (n - 1 - i)) ∧ (r < n → one (n - 1 - r))) ∧
    (∃ r, exec (.ctz d a w) s = s.sets d (BitVec.ofNat 64 r) ∧ r ≤ n ∧ (∀ i < r, ¬ one i) ∧ (r < n → one r)) ∧
    exec (.popc d a w) s = s.sets d (BitVec.ofNat 64 ((List.range n).countP fun i => (s.rs a).getLsbD i))

/-- The words of R93 and R94: each member's word carries major 0, its sources and destination, the W bit and its operation
code in the places of R93, sb zero in the unary members; and R94's worked examples. -/
def Claim.ScalarRegisterWords : Prop :=
  (∀ (d a b : Fin 64) (w : Bool),
    let word := fun sb fn : Nat => some (32, d.val * 2 ^ 22 + a.val * 2 ^ 16 + sb * 2 ^ 10 + (if w then 2 ^ 9 else 0) + fn)
    (∀ i fn, (i, fn) ∈ [(Instr.add d a b w, 0), (.sub d a b w, 1), (.mul d a b w, 2), (.mulh d a b w, 3), (.mulhn d a b w, 4),
      (.div d a b w, 5), (.divn d a b w, 6), (.rem d a b w, 7), (.remn d a b w, 8), (.and d a b w, 0x10), (.or d a b w, 0x11),
      (.xor d a b w, 0x12), (.andn d a b w, 0x13), (.shl d a b w, 0x18), (.shr d a b w, 0x19), (.sar d a b w, 0x1A),
      (.min d a b w, 0x20), (.max d a b w, 0x21), (.minn d a b w, 0x22), (.maxn d a b w, 0x23), (.slt d a b w, 0x28),
      (.sltn d a b w, 0x29), (.seq d a b w, 0x2A)] → encode i = word b.val fn) ∧
    encode (.clz d a w) = word 0 0x30 ∧ encode (.ctz d a w) = word 0 0x31 ∧ encode (.popc d a w) = word 0 0x32) ∧
  encode (.add 7 8 9 true) = some (32, 0x01C82600) ∧
  encode (.sub 5 6 7 false) = some (32, 0x01461C01) ∧
  (∀ s : State, s.pipelineGood → s.cur.clean [8, 9] → s.rs 8 = 0x7FFFFFFF → s.rs 9 = 1 →
    exec (.add 7 8 9 true) s = s.sets 7 0xFFFFFFFF80000000) ∧
  ∀ s : State, s.pipelineGood → s.cur.clean [2, 3] → s.rs 2 = 0x80000000 → s.rs 3 = 0xFFFFFFFFFFFFFFFF →
    exec (.div 1 2 3 true) s = s.sets 1 0xFFFFFFFF80000000

/-- The scalar register members compute R94's functions and carry R93's words: the claims above together. -/
def Obligations.ScalarRegisterArithmetic : Prop :=
  Claim.ScalarRegisterForm ∧ Claim.ScalarBitCounts ∧ Claim.ScalarRegisterWords

/-- The immediate form and the constants (R95, R96): imm13 and imm20 are sign-extended, LIS shifts sd left by 20 and ORs its
constant in, LPC gives the address of its own word plus four times its constant. -/
def Claim.ScalarImmediates : Prop :=
  ∀ (s : State) (d a cnt : Fin 64) (imm : BitVec 13) (k : BitVec 20), s.pipelineGood → s.cur.clean [a] →
    let x := s.rs a
    exec (.addi d a imm) s = s.sets d (x + BitVec.ofInt 64 imm.toInt) ∧
    exec (.andi d a imm) s = s.sets d (x &&& BitVec.ofInt 64 imm.toInt) ∧
    exec (.ori d a imm) s = s.sets d (x ||| BitVec.ofInt 64 imm.toInt) ∧
    exec (.xori d a imm) s = s.sets d (x ^^^ BitVec.ofInt 64 imm.toInt) ∧
    exec (.slti d a imm) s = s.sets d (if x.toInt < imm.toInt then 1 else 0) ∧
    exec (.shli d a cnt) s = s.sets d (BitVec.ofNat 64 (x.toNat * 2 ^ cnt.val)) ∧
    exec (.shri d a cnt) s = s.sets d (BitVec.ofNat 64 (x.toNat / 2 ^ cnt.val)) ∧
    exec (.sari d a cnt) s = s.sets d (BitVec.ofInt 64 (x.toInt.fdiv (2 ^ cnt.val))) ∧
    exec (.li d k) s = s.sets d (BitVec.ofInt 64 k.toInt) ∧
    (s.cur.clean [d] → exec (.lis d k) s = s.sets d (BitVec.ofNat 64 ((s.rs d).toNat * 2 ^ 20) ||| BitVec.ofNat 64 k.toNat)) ∧
    exec (.lpc d k) s = s.sets d (s.cur.spc + BitVec.ofInt 64 (4 * k.toInt))

/-- The scalar immediate forms and constants write the results of R95 and R96: the claim above. -/
def Obligations.ScalarImmediatesAndConstants : Prop := Claim.ScalarImmediates

/-- The conditional branches of R97 and R107: the condition on the full registers or on all 32 bits of the predicate; taken, SPC
becomes the branch's address plus four times the offset, which must lie in .scode (R92), else PROT at the branch; not taken,
the stream falls through, whatever the target. -/
def Claim.Branches : Prop :=
  ∀ (s : State) (a b : Fin 64) (p : Fin 8) (o13 : BitVec 13) (o21 : BitVec 21), s.cur.clean [a, b] → s.cur.cleanOther [64 + p.val] →
    let x := s.rs a
    let y := s.rs b
    let m := s.cur.rp p
    let branches := fun (i : Instr) (holds : Prop) (off : Int) =>
      let target := s.cur.spc + BitVec.ofInt 64 (4 * off)
      (holds → s.inScode s.cur target.toNat = true → exec i s = .next (s.retire target)) ∧
      (holds → s.inScode s.cur target.toNat = false → exec i s = s.raises causeProt 0xFF target 3) ∧
      (¬ holds → exec i s = s.falls s)
    branches (.beq a b o13) (x = y) o13.toInt ∧
    branches (.bne a b o13) (x ≠ y) o13.toInt ∧
    branches (.blt a b o13) (x.toInt < y.toInt) o13.toInt ∧
    branches (.bge a b o13) (y.toInt ≤ x.toInt) o13.toInt ∧
    branches (.bltn a b o13) (x.toNat < y.toNat) o13.toInt ∧
    branches (.bgen a b o13) (y.toNat ≤ x.toNat) o13.toInt ∧
    branches (.bany p o21) (∃ i < 32, m.getLsbD i = true) o21.toInt ∧
    branches (.ball p o21) (∀ i < 32, m.getLsbD i = true) o21.toInt ∧
    branches (.bnone p o21) (∀ i < 32, m.getLsbD i = false) o21.toInt

/-- The jumps of R98: JMP and CALL to a word offset, CALL writing s63 only when its target lies in .scode; JR to a register and
RET to s63, ALIGN when bits [1:0] of the target are not zero, PROT when it lies outside .scode, and no register changed on
either (RET's word has no operand field, so its faults name none; log 26). -/
def Claim.Jumps : Prop :=
  ∀ (s : State) (a : Fin 64) (off : BitVec 26), s.cur.clean [a, 63] →
    let near := s.cur.spc + BitVec.ofInt 64 (4 * off.toInt)
    (s.inScode s.cur near.toNat = true →
      exec (.jmp off) s = .next (s.retire near) ∧ exec (.call off) s = .next ((s.ws 63 (s.cur.spc + 4)).retire near)) ∧
    (s.inScode s.cur near.toNat = false →
      exec (.jmp off) s = s.raises causeProt 0xFF near 3 ∧ exec (.call off) s = s.raises causeProt 0xFF near 3) ∧
    ∀ i r slot, (i, r, slot) ∈ [(Instr.jr a, a, 10), (.ret, 63, 0xFF)] →
      ((s.rs r).toNat % 4 = 0 → s.inScode s.cur (s.rs r).toNat = true → exec i s = .next (s.retire (s.rs r))) ∧
      ((s.rs r).toNat % 4 ≠ 0 → exec i s = s.raises causeAlign slot) ∧
      ((s.rs r).toNat % 4 = 0 → s.inScode s.cur (s.rs r).toNat = false → exec i s = s.raises causeProt slot (s.rs r) 3)

/-- The words of R97 and R98: a conditional branch carries major 3, its condition, its sources and its offset in R97's places;
the jumps are the words of R98's table. -/
def Claim.BranchWords : Prop :=
  ∀ (a b : Fin 64) (o13 : BitVec 13) (off : BitVec 26),
    (∀ i c, (i, c) ∈ [(Instr.beq a b o13, 0), (.bne a b o13, 1), (.blt a b o13, 2), (.bge a b o13, 3), (.bltn a b o13, 4),
      (.bgen a b o13, 5)] →
      encode i = some (32, 3 * 2 ^ 28 + c * 2 ^ 25 + a.val * 2 ^ 19 + b.val * 2 ^ 13 + o13.toNat)) ∧
    encode (.jmp off) = some (32, 0x40000000 ||| off.toNat) ∧
    encode (.call off) = some (32, 0x44000000 ||| off.toNat) ∧
    encode (.jr a) = some (32, 0x48000000 ||| a.val <<< 20) ∧
    encode .ret = some (32, 0x4C000000)

/-- Branches and jumps set SPC as R97, R98 and R107 say, or fault at the transferring instruction: the claims above together. -/
def Obligations.ScalarBranchesAndJumps : Prop := Claim.Branches ∧ Claim.Jumps ∧ Claim.BranchWords

/-- LQ and LQR append a clause with the index and SPC (R105), after the header has been read through translation and the clause
found inside .lcode (a malformed header does not fail that check); a full queue of eight stalls; an index outside .lcode is
CLAUSE naming a. -/
def Claim.Enqueue : Prop :=
  ∀ (s t : State) (a : Fin 64) (off : BitVec 24) (w : Nat), s.cur.clean [a] →
    ∀ i idx, (i, idx) ∈ [(Instr.lq off, off.toNat), (.lqr a, (s.rs a).toNat)] →
      let l := s.launchOf s.cur
      (l.lsize < 12 * (idx + 1) → exec i s = s.raises causeClause 10) ∧
      (12 * (idx + 1) ≤ l.lsize → s.fetch (l.lbase + 12 * idx) 12 = .ok (t, w) →
        (∀ h, decodeHeader w = some h → l.lsize < 12 * (idx + h.count.val + 2) → exec i s = s.raises causeClause 10) ∧
        ((∀ h, decodeHeader w = some h → 12 * (idx + h.count.val + 2) ≤ l.lsize) →
          (8 ≤ s.cur.lq.length → exec i s = s.waits .lane) ∧
          (s.cur.lq.length < 8 →
            exec i s = s.falls (t.setCur { t.cur with lq := t.cur.lq ++ [{ idx := idx, spc := s.cur.spc }] }))))

/-- LWAIT waits for an empty lane queue (R106), FWAIT for its flags' counts to be zero and no queued clause to name one of them
(R109), MVP and MVPS move a predicate, p0 reading as all ones and discarding writes (R10, R108). -/
def Claim.LaneControl : Prop :=
  ∀ (s : State) (d a : Fin 64) (p : Fin 8) (mask : BitVec 12), s.cur.clean [a] → s.cur.cleanOther [64 + p.val] →
    (s.cur.lq = [] → exec .lwait s = s.falls s) ∧
    (s.cur.lq ≠ [] → exec .lwait s = s.waits .lane) ∧
    (((∀ f : Fin 12, mask.getLsbD f.val = true → s.cur.f[f] = 0) ∧
      (mask ≠ 0 → ∀ e ∈ s.cur.lq, ∃ h, s.headerOf s.cur e = some h ∧
        ∀ f : Fin 12, mask.getLsbD f.val = true → h.flagA ≠ some f ∧ h.flagB ≠ some f)) → exec (.fwait mask) s = s.falls s) ∧
    ((∃ f : Fin 12, mask.getLsbD f.val = true ∧
      (s.cur.f[f] ≠ 0 ∨ ∃ e ∈ s.cur.lq, ∃ h, s.headerOf s.cur e = some h ∧ (h.flagA = some f ∨ h.flagB = some f))) →
      exec (.fwait mask) s = s.waits .lane) ∧
    exec (.mvp d p) s = s.sets d (BitVec.ofNat 64 (if p = 0 then 2 ^ 32 - 1 else s.cur.p[p].toNat)) ∧
    (p ≠ 0 → exec (.mvps p a) s = s.falls (s.setCur { s.cur with
      p := s.cur.p.set p (BitVec.ofNat 32 (s.rs a).toNat), poisonS := s.cur.poisonS.filter (fun e => e.1 != 64 + p.val)
      softReg := s.cur.softReg.filter (fun e => e.1 != 128 + p.val) })) ∧
    exec (.mvps 0 a) s = s.falls s

/-- What each scalar instruction reads and writes (R69, R93-R111), by register numbers: 0-63 s, 64-71 p, 80-95 b; the pair of R69 is two
s-registers; ST names its datum in the place of its destination, LIS reads its own (R96); CRD and CWR meet the registers of R17 by number. -/
def Claim.ScalarUses : Prop :=
  ∀ (i : Instr) (d a b c : Fin 64) (w : Bool) (imm : BitVec 13) (o9 : BitVec 9) (o20 : BitVec 20) (o21 : BitVec 21) (o26 : BitVec 26)
    (p : Fin 8) (n : Fin 16) (lvl : Fin 3) (pc : Fin 32) (fl : Fin 13) (cr : BitVec 12),
    let uses := fun (l : List Instr) (rs ws : List Nat) => i ∈ l → scalarUses i = { reads := rs, writes := ws, control := false }
    uses [.add d a b w, .sub d a b w, .mul d a b w, .mulh d a b w, .mulhn d a b w, .div d a b w, .divn d a b w, .rem d a b w, .remn d a b w,
      .and d a b w, .or d a b w, .xor d a b w, .andn d a b w, .shl d a b w, .shr d a b w, .sar d a b w, .min d a b w, .max d a b w,
      .minn d a b w, .maxn d a b w, .slt d a b w, .sltn d a b w, .seq d a b w] [a.val, b.val] [d.val] ∧
    uses [.clz d a w, .ctz d a w, .popc d a w, .addi d a imm, .andi d a imm, .ori d a imm, .xori d a imm, .slti d a imm, .shli d a c,
      .shri d a c, .sari d a c, .slds d lvl a o9, .qtake d a] [a.val] [d.val] ∧
    uses [.li d o20, .lpc d o20, .mxstat d, .bseal d] [] [d.val] ∧ uses [.lis d o20] [d.val] [d.val] ∧
    uses [.beq a b imm, .bne a b imm, .blt a b imm, .bge a b imm, .bltn a b imm, .bgen a b imm, .seal a b fl, .unseal a b fl,
      .arrset a b fl, .wmbind a b, .qemit a b] [a.val, b.val] [] ∧
    uses [.call o26] [] [63] ∧ uses [.ret] [63] [] ∧
    uses [.jr a, .lqr a, .sleep a, .mxzero a, .bar a, .fence a, .bwait a, .wmflush a fl, .wmclose a fl, .wmreset a fl, .qdone a] [a.val] [] ∧
    uses [.sld d n a o9, .sldw d n a o9] [a.val, 80 + n.val] [d.val] ∧ uses [.sst d n a o9, .sstw d n a o9] [a.val, d.val, 80 + n.val] [] ∧
    uses [.ssts d lvl a o9] [a.val, d.val] [] ∧
    uses [.bld n a o9] [a.val] [80 + n.val] ∧ uses [.badj n a o9] [a.val, 80 + n.val] [80 + n.val] ∧
    uses [.bany p o21, .ball p o21, .bnone p o21] [64 + p.val] [] ∧ uses [.mvp d p] [64 + p.val] [d.val] ∧ uses [.mvps p a] [a.val] [64 + p.val] ∧
    uses [.mxshape a b c, .mxldw a b c fl, .mxmul a b c fl, .mxdrain a b c fl, .tmov a b c fl, .home a b c fl, .nmrun a b c fl]
      [a.val, b.val, c.val] [] ∧
    uses [.tmova a b pc fl, .rbulk a b pc fl, .qtile a b pc fl] [a.val, b.val, 2 * pc.val, 2 * pc.val + 1] [] ∧
    uses [.waita d b pc] [b.val, 2 * pc.val, 2 * pc.val + 1] [d.val] ∧
    uses [.arrwait d a b, .wmrd d a b, .wmscale d a b] [a.val, b.val] [d.val] ∧
    (let meets := [0x00E, 0x012, 0x013, 0x014, 0x015, 0x016].contains cr.toNat;
      scalarUses (.crd d cr) = { writes := [d.val], control := meets } ∧ scalarUses (.cwr a cr) = { reads := [a.val], control := meets }) ∧
    uses [.nop, .yield, .exit, .eret, .lwait, .rquiet, .mxswap fl, .jmp o26] [] []

/-- The interlocks between the streams (R17), as a scalar turn sees them: a scalar instruction that writes a register which a lane
instruction of a pending clause reads or writes, or that reads one which such an instruction writes, or that meets an s-register which a
pending memory instruction of the lanes is still to write, lets its turn pass; so does CRD or CWR of FPCTL, FPSTAT, NFFLAG, LSCALE, RSTHR or
TMASK while a clause is queued. s0 and p0 bind nothing (R10). An instruction that meets no such register is not held. -/
def Claim.Interlocks : Prop :=
  ∀ (s u t : State) (r : List Turn) (key word : Nat) (g : Group) (i : Instr),
    s.agenda = .scalar key :: r → u = { s with agenda := r } → u.group key = some g → u.trapTakeable g = false → u.residentRuns g = true →
    g.wait = .none → u.scalarWord g = .ok (t, word) → decodeScalar word = .ok i →
    let inside := fun (e : LqEntry) (h : ClauseHeader) (k : Nat) => u.headerOf g e = some h ∧ e.pos ≤ k ∧ k ≤ h.count.val
    let pending := fun (P : Nat → LaneFields → Prop) => ∃ e ∈ g.lq, ∃ h k x j op f, inside e h k ∧
      u.peekLane g (e.idx + 1 + k) = some x ∧ decodeLane x = .ok j ∧ laneOf j = some (op, f) ∧ P op f
    let predicate := fun (f : LaneFields) (op p : Nat) => f.pg.val = p ∨ ((laneUse op f).a = .pred ∧ f.a.val = p) ∨
      ((laneUse op f).b = .pred ∧ f.b.val = p) ∨ ((laneUse op f).c = .pred ∧ f.c.val = p) ∨ (op = 0x21 ∧ f.x.val % 8 = p)
    let sets := fun (f : LaneFields) (op n : Nat) => 64 + n ∈ laneDests op f ∨ ((laneUse op f).pd = .dst ∧ n = 64 + f.pd.val)
    let reads := fun (n : Nat) => pending fun op f => (∃ q ∈ laneSources op f, 64 + n ∈ q.2) ∨ (∃ p, n = 64 + p ∧ predicate f op p) ∨
      ∃ m, n = 80 + m ∧ laneRec op f = some m
    let writes := fun (n : Nat) => pending fun op f => sets f op n
    let arrives := fun (n : Nat) => ∃ w ∈ u.work, w.group = g.key ∧
      ((∃ op f acc z act, w.kind = .laneMem op f acc z act ∧ 64 + n ∈ laneDests op f) ∨
        (∃ op f acc got z act, w.kind = .burst op f acc got z act ∧ 64 + n ∈ laneDests op f) ∨
        ∃ f x y z q, w.kind = .hostAtomic f x y z q ∧ 64 + n ∈ laneDests 0xC4 f)
    let readable := ∀ e ∈ g.lq, ∃ h, u.headerOf g e = some h ∧ ∀ k, inside e h k → (u.peekLane g (e.idx + 1 + k)).isSome = true
    let held := fun (n : Nat) => n ≠ 0 ∧ n ≠ 64 ∧ ((n ∈ (scalarUses i).writes ∧ (reads n ∨ writes n ∨ arrives n)) ∨
      (n ∈ (scalarUses i).reads ∧ (writes n ∨ arrives n)))
    let orders := (scalarUses i).control = true ∧ g.lq ≠ []
    ((∃ n, held n) ∨ orders → step s = afterTick (.next u)) ∧
    (readable → ¬ orders → (∀ n, ¬ held n) → u.scalarReady exec g = true)

/-- Clauses are enqueued, waited for and interlocked, and predicates moved, as R17 and R105 to R109 say: the claims above together. -/
def Obligations.ClauseEnqueueAndLaneControl : Prop := Claim.Enqueue ∧ Claim.LaneControl ∧ Claim.ScalarUses ∧ Claim.Interlocks

/-- SLD and SLDW (R100): 8 bytes, or 4 bytes sign-extended, at base plus s[sa] plus eight times the offset, modulo 2^57, through
translation; a record that fails R158 is BOUNDS naming it, a misaligned address ALIGN, and outside the extent either BOUNDS or,
in a zero-fill record, zero with no access. -/
def Claim.ScalarLoads : Prop :=
  ∀ (s t v : State) (d a : Fin 64) (n : Fin 16) (imm : BitVec 9) (l : Tlb), s.cur.clean [a] → s.cur.cleanOther [80 + n.val] →
    let b := s.cur.b[n]
    let o := (s.rs a + BitVec.ofInt 64 (8 * imm.toInt)).toNat
    let va := (recBase b + o) % 2 ^ 57
    let size := recExtent b * 2 ^ recEsize b
    let at_ : Word := BitVec.ofNat 64 va
    ∀ i w, (i, w) ∈ [(Instr.sld d n a imm, 8), (.sldw d n a imm, 4)] →
      (recBad b = true → exec i s = s.raises causeBounds 7 0 0 (some n.val)) ∧
      (recBad b = false → (recBase b + o) % w ≠ 0 → exec i s = s.raises causeAlign 10 at_ 0 (some n.val)) ∧
      (recBad b = false → (recBase b + o) % w = 0 → size < o + w →
        exec i s = if recOob b then s.sets d 0 else s.raises causeBounds 10 at_ 0 (some n.val)) ∧
      (recBad b = false → (recBase b + o) % w = 0 → o + w ≤ size → s.line .read va 10 (some n.val) = .ok (t, l) →
        t.heldCheck (l.key va) = .ok v → v.poisonedAt (l.key va) w = false →
        exec i s = s.falls (v.ws d (if w = 8 then BitVec.ofNat 64 (v.read (l.key va) 8)
          else BitVec.ofInt 64 (BitVec.ofNat 32 (v.read (l.key va) 4)).toInt)))

/-- BLD loads 32 bytes unchecked into a b-register; bits [63:57] of its address not zero are PROT before any other check, and an
address that is not 32-byte aligned is ALIGN. BADJ adds to the base field alone, modulo 2^57, and never faults (R103). -/
def Claim.BufferRecords : Prop :=
  ∀ (s t v : State) (n : Fin 16) (a : Fin 64) (imm : BitVec 9) (l : Tlb), s.cur.clean [a] →
    let marks := fun (g : Group) => (g.poisonS.filter (fun e => e.1 != 80 + n.val), g.softReg.filter (fun e => e.1 != 144 + n.val))
    let x := s.rs a + BitVec.ofInt 64 (8 * imm.toInt)
    (2 ^ 57 ≤ x.toNat → exec (.bld n a imm) s = s.raises causeProt 10 x) ∧
    (x.toNat < 2 ^ 57 → x.toNat % 32 ≠ 0 → exec (.bld n a imm) s = s.raises causeAlign 10 x) ∧
    (x.toNat < 2 ^ 57 → x.toNat % 32 = 0 → s.line .read x.toNat 10 = .ok (t, l) → t.heldCheck (l.key x.toNat) = .ok v →
      v.poisonedAt (l.key x.toNat) 32 = false →
      exec (.bld n a imm) s =
        s.falls (v.setCur { v.cur with
          b := v.cur.b.set n (BitVec.ofNat 256 (v.read (l.key x.toNat) 32)), poisonS := (marks v.cur).1, softReg := (marks v.cur).2 })) ∧
    (s.cur.cleanOther [80 + n.val] → ∃ r : BitVec 256,
      exec (.badj n a imm) s = s.falls (s.setCur { s.cur with b := s.cur.b.set n r, poisonS := (marks s.cur).1, softReg := (marks s.cur).2 }) ∧
      recBase r = (recBase s.cur.b[n] + x.toNat) % 2 ^ 57 ∧ r >>> 57 = s.cur.b[n] >>> 57)

/-- What a line of one access answers (R83, R102, R161, R324, R347): an absent page parks the group at the instruction on its granule,
before anything else; then permission (PROT, which a write to the code of a running launch also is), the seal (SEALED) and the home
die (REMOTE_LOCAL, but for host pages and, except on a stack core, loads of sealed pages) are checked in that order. -/
def Claim.LineChecks : Prop :=
  ∀ (s : State) (k : Acc) (va slot page : Nat) (t : Tlb), va < 2 ^ 57 →
    let die := s.cur.place.die
    let ctx := (s.launchOf s.cur).ctx
    let may := match k with | .read => t.r | .write => t.w | .atomic => t.r && t.w | .fetch => t.x
    let writes := k = .write ∨ k = .atomic
    let away := t.hm = false ∧ t.pa / 2 ^ 37 ≠ die ∧ k ≠ .fetch ∧ (s.cur.place.onStack = true ∨ ¬ (t.sealed = true ∧ k = .read))
    let ok := may = true ∧ ¬ (writes ∧ s.codePage ctx va = true)
    (s.translate die ctx va = .absent →
      s.line k va slot = .error (.miss [(va / 2 ^ 16 * 2 ^ 16, decide writes)] (pageFault slot (BitVec.ofNat 64 va) k.code))) ∧
    (s.translate die ctx va = .malformed → s.line k va slot = failAddr causeProt slot (BitVec.ofNat 64 va) k.code) ∧
    (s.translate die ctx va = .poisoned page →
      s.line k va slot = .error (.poison page 16 { cause := causeProt, slot := slot, addr := BitVec.ofNat 64 va, detail := k.code })) ∧
    (s.translate die ctx va = .zero page → s.line k va slot = .error (.zeroing page)) ∧
    (s.translate die ctx va = .leaf t →
      (¬ ok → s.line k va slot = failAddr causeProt slot (BitVec.ofNat 64 va) k.code) ∧
      (ok → t.sealed = true → writes → s.line k va slot = failAddr causeSealed slot (BitVec.ofNat 64 va) k.code) ∧
      (ok → ¬ (t.sealed = true ∧ writes) → away → s.line k va slot = failAddr causeRemoteLocal slot (BitVec.ofNat 64 va) k.code) ∧
      (ok → ¬ (t.sealed = true ∧ writes) → ¬ away → s.line k va slot = .ok (s.cache t, t)))

/-- Scalar loads, record loads and adjustments, and the checks of one access: the claims above together. -/
def Obligations.ScalarLoadsAndRecords : Prop := Claim.ScalarLoads ∧ Claim.BufferRecords ∧ Claim.LineChecks

/-- SST and SSTW (R100) complete with exactly their 8 or 4 bytes stored at the address computed as for the loads: those bytes read
back as the register's, every other byte of memory reads as before, and no register changes but SPC; a store outside a
zero-fill record is dropped, one through a record without WR is PROT naming the record. -/
def Claim.ScalarStores : Prop :=
  ∀ (s t v : State) (d a : Fin 64) (n : Fin 16) (imm : BitVec 9) (l : Tlb), s.memOk → s.cur.clean [a, d] → s.cur.cleanOther [80 + n.val] →
    let b := s.cur.b[n]
    let o := (s.rs a + BitVec.ofInt 64 (8 * imm.toInt)).toNat
    let va := (recBase b + o) % 2 ^ 57
    let size := recExtent b * 2 ^ recEsize b
    let k := l.key va
    ∀ i w, (i, w) ∈ [(Instr.sst d n a imm, 8), (.sstw d n a imm, 4)] →
      recBad b = false → (recBase b + o) % w = 0 →
      (size < o + w → recOob b = true → exec i s = s.falls s) ∧
      (o + w ≤ size → recWr b = false → exec i s = s.raises causeProt 7 (BitVec.ofNat 64 va) 1 (some n.val)) ∧
      (o + w ≤ size → recWr b = true → s.line .write va 10 (some n.val) = .ok (t, l) → t.heldCheck k = .ok v →
        ∃ u, exec i s = .next u ∧ u.read k w = (s.rs d).toNat % 2 ^ (8 * w) ∧
          (∀ j, j < k ∨ k + w ≤ j → cellRead u.mem j = cellRead s.mem j) ∧
          u.cur = { s.cur with spc := s.cur.spc + 4, wait := .none, retired := s.cur.retired + 1 })

/-- SLDS and SSTS (R101): 8 bytes of the team's window at the level, at s[sa] plus eight times the offset, which must be a multiple
of 8 (ALIGN) inside the window (DECKLE, also when its size is 0); a stack-core group takes the return trap at levels 1 and 2
(R348). -/
def Claim.ScalarScratchpad : Prop :=
  ∀ (s : State) (d a : Fin 64) (lvl : Fin 3) (imm : BitVec 9), s.memOk → s.cur.clean [a, d] →
    let o := (s.rs a + BitVec.ofInt 64 (8 * imm.toInt)).toNat
    let k := s.windowKey s.cur lvl o
    let tag : Word := BitVec.ofNat 64 ((lvl.val + 1) * 2 ^ 60 + o % 2 ^ 32)
    let lacks := s.cur.place.onStack = true ∧ lvl ≠ 0
    (¬ lacks → o % 8 = 0 → o + 8 ≤ s.windowSize s.cur lvl →
      (s.poisonedAt k 8 = false → exec (.slds d lvl a imm) s = s.sets d (BitVec.ofNat 64 (s.read k 8))) ∧
      ∃ u, exec (.ssts d lvl a imm) s = .next u ∧ u.read k 8 = (s.rs d).toNat ∧
        (∀ j, j < k ∨ k + 8 ≤ j → cellRead u.mem j = cellRead s.mem j) ∧
        u.cur = { s.cur with spc := s.cur.spc + 4, wait := .none, retired := s.cur.retired + 1 }) ∧
    ∀ i ∈ [Instr.slds d lvl a imm, .ssts d lvl a imm],
      (¬ lacks → o % 8 ≠ 0 → exec i s = s.raises causeAlign 10 tag) ∧
      (¬ lacks → o % 8 = 0 → s.windowSize s.cur lvl < o + 8 →
        exec i s = s.raises causeDeckle 10 tag (BitVec.ofNat 64 lvl.val)) ∧
      (lacks → s.cur.lq = [] → exec i s = .next (s.setCur { s.cur with stop := .returned, wait := .none }))

/-- Scalar stores write exactly their bytes, and scalar scratchpad accesses stay inside their window: the claims above together. -/
def Obligations.ScalarStoresAndScratchpad : Prop := Claim.ScalarStores ∧ Claim.ScalarScratchpad

/-- CRD (R18-R30, R110): every register of the map, each with its value, zero-extended; a number outside the map is PRIV naming
slot 7, and no register changes. -/
def Claim.ControlRead : Prop :=
  ∀ (s : State) (d : Fin 64) (cr : BitVec 12),
    let g := s.cur
    let t := s.teamOf g
    let l := s.launchOf g
    let c := s.ctxOf g
    let place := g.place.die * 2 ^ 12 +
      (if g.place.onStack then 0 else g.place.cluster * 2 ^ 10 + g.place.core * 2 ^ 8 + g.place.lane * 4 + g.place.slot)
    let lpc : Word := match g.lq with | [] => g.lastLpc | e :: _ => BitVec.ofNat 64 (l.lbase + 12 * e.idx)
    let rem := (if g.remstat.d then 1 else 0) + 2 ^ 8 * g.remstat.reason.toNat + 2 ^ 16 * g.remstat.count.toNat +
      2 ^ 32 * g.remstat.seq.toNat
    let dim := l.teams % 2 ^ 32 + 2 ^ 32 * l.groups + 2 ^ 40 * l.stages.length
    let map : List (Nat × Word) :=
      [(0x000, g.spc), (0x001, lpc), (0x002, BitVec.ofNat 64 place), (0x003, t.teamId.setWidth 64), (0x004, BitVec.ofNat 64 dim),
       (0x005, BitVec.ofNat 64 t.stage), (0x006, BitVec.ofNat 64 g.git), (0x007, BitVec.ofNat 64 s.pkgid),
       (0x008, BitVec.ofNat 64 (if g.place.onStack then (s.now - g.base) / 2 * 2 else s.now - g.base)), (0x009, g.cyccmp), (0x00A, g.utvec), (0x00B, g.uepc), (0x00C, g.ucause),
       (0x00D, g.utdata), (0x00E, g.tmask.setWidth 64), (0x00F, g.flags), (0x010, BitVec.ofNat 64 l.lbase),
       (0x011, BitVec.ofNat 64 c.shbase), (0x012, g.lscale), (0x013, g.nfflag.setWidth 64), (0x014, g.rsthr),
       (0x015, g.fpctl.setWidth 64), (0x016, g.fpstat.setWidth 64), (0x017, s.batchReg g), (0x018, BitVec.ofNat 64 rem),
       (0x019, c.wmtab), (0x01A, BitVec.ofNat 64 (t.win[0].base + 2 ^ 32 * t.win[0].size)),
       (0x01B, BitVec.ofNat 64 (t.win[1].base + 2 ^ 32 * t.win[1].size)),
       (0x01C, BitVec.ofNat 64 (t.win[2].base + 2 ^ 32 * t.win[2].size))]
    (∀ e ∈ map, cr.toNat = e.1 → exec (.crd d cr) s = s.sets d e.2) ∧
    ((∀ e ∈ map, cr.toNat ≠ e.1) → exec (.crd d cr) s = s.raises causePriv 7) ∧
    (∀ i : Nat, g.flags.getLsbD i = ((if h : i < 12 then decide (g.f[i] ≠ 0) else false) || decide (i = 12 ∧ g.ih = true)))

/-- CWR (R18, R22-R28, R110): each writable register takes its RW fields, clears its W1C bits where the value holds 1, and keeps
the rest; a DRM of 5 to 7 is stored as 0; a non-zero CYCCMP that is not above CYCLE makes TIMER pending at once, and a TIMER that the old
CYCCMP has made pending stays (log 35, DESIGN CHOICE); bit 0 of
REMSTAT clears the whole record. A register with no writable field, or a number outside the map, is PRIV naming slot 7. (UCAUSE and
LSCALE keep the bits that R19 and R27 name; log 32.) -/
def Claim.ControlWrite : Prop :=
  ∀ (s : State) (a : Fin 64) (cr : BitVec 12), s.cur.clean [a] →
    let g := s.cur
    let x := s.rs a
    let code := x &&& 0x01FFFFFFFFFFFFFC
    let cycle := if g.place.onStack then (s.now - g.base) / 2 * 2 else s.now - g.base
    let reached := fun y : Word => decide (y ≠ 0 ∧ y.toNat ≤ cycle)
    let map : List (Nat × Group) :=
      [(0x009, { g with
          cyccmp := x, traps := { g.traps with timer := g.traps.timer || reached g.cyccmp || reached x } }),
       (0x00A, { g with utvec := code }), (0x00B, { g with uepc := code }), (0x00C, { g with ucause := x &&& 0xFF }),
       (0x00D, { g with utdata := x }), (0x012, { g with lscale := x &&& 0xFFFFFFFF }),
       (0x013, { g with nfflag := g.nfflag &&& ~~~BitVec.ofNat 4 x.toNat }), (0x014, { g with rsthr := x &&& 0x80000000FFFFFFFF }),
       (0x015, { g with
          fpctl := BitVec.ofNat 5 (x.toNat % 32 / 8 * 8 + (if x.toNat % 8 < 5 then x.toNat % 8 else 0)) }),
       (0x016, { g with fpstat := g.fpstat &&& ~~~BitVec.ofNat 5 x.toNat }),
       (0x018, if x.toNat % 2 = 1 then { g with remstat := { d := false, reason := 0, count := 0, seq := 0 } } else g)]
    (∀ e ∈ map, cr.toNat = e.1 → exec (.cwr a cr) s = s.falls (s.setCur e.2)) ∧
    ((∀ e ∈ map, cr.toNat ≠ e.1) → exec (.cwr a cr) s = s.raises causePriv 7)

/-- CRD and CWR read and write every control register, or take the case the table gives: the claims above together. -/
def Obligations.ControlRegisterAccess : Prop := Claim.ControlRead ∧ Claim.ControlWrite

/-- The system words that complete or wait (R111-R113): NOP and YIELD change nothing; TRAP makes SWTRAP pending with its
immediate, the newer one's where an earlier SWTRAP is pending (log 36, DESIGN CHOICE), and is a no-operation while UTVEC is zero; SLEEP of 0 completes at once, another waits until CYCLE has advanced by
s[sa]; EXIT waits for the group's end; BRK is a NOP without DEBUG, and with it stops the group, once its clauses have retired, and tells
the host. -/
def Claim.SystemWords : Prop :=
  ∀ (s : State) (a : Fin 64) (imm : BitVec 16), s.cur.clean [a] →
    exec .nop s = s.falls s ∧
    exec .yield s = s.falls s ∧
    (s.cur.utvec = 0 → exec (.trap imm) s = s.falls s) ∧
    (s.cur.utvec ≠ 0 →
      exec (.trap imm) s = s.falls (s.setCur { s.cur with traps := { s.cur.traps with sw := some imm } })) ∧
    ((∀ t, s.cur.wait ≠ .sleep t) →
      (s.rs a = 0 → exec (.sleep a) s = s.falls s) ∧
      (s.rs a ≠ 0 → exec (.sleep a) s = s.waits (.sleep (s.cycle s.cur + (s.rs a).toNat)))) ∧
    (∀ t, s.cur.wait = .sleep t →
      exec (.sleep a) s = if s.cycle s.cur < t then s.waits (.sleep t) else s.falls s) ∧
    exec .exit s = s.waits .exit ∧
    ((s.ctxOf s.cur).debug = false → exec (.brk imm) s = s.falls s) ∧
    ((s.ctxOf s.cur).debug = true → s.cur.lq ≠ [] → exec (.brk imm) s = s.waits (.drain none)) ∧
    ((s.ctxOf s.cur).debug = true → s.cur.lq = [] →
      ∃ t, exec (.brk imm) s = .next t ∧ t.cur = { s.cur with stop := .brk imm, wait := .none } ∧
        HostMsg.debug (s.unitOf s.cur.place) s.cur.spc imm ∈ t.hostOut)

/-- TRAP, YIELD, SLEEP, EXIT, NOP and BRK have the effects of the system table: the claim above. -/
def Obligations.SystemInstructionEffects : Prop := Claim.SystemWords

/-- ERET (R115): outside a handler PRIV; with UEPC outside .scode PROT; otherwise SPC becomes UEPC and IH is cleared. -/
def Claim.TrapReturn : Prop :=
  ∀ s : State,
    (s.cur.ih = false → exec .eret s = s.raises causePriv 0) ∧
    (s.cur.ih = true → s.cur.uepc.toNat % 4 ≠ 0 → exec .eret s = s.raises causeAlign 0) ∧
    (s.cur.ih = true → s.cur.uepc.toNat % 4 = 0 → s.inScode s.cur s.cur.uepc.toNat = false →
      exec .eret s = s.raises causeProt 0 s.cur.uepc 3) ∧
    (s.cur.ih = true → s.cur.uepc.toNat % 4 = 0 → s.inScode s.cur s.cur.uepc.toNat = true →
      exec .eret s = .next ({ s with cur := { s.cur with ih := false } }.retire s.cur.uepc))

/-- Taking a user trap (R114-R116, R240), for the group that is current: with IH set, or while a lane remote instruction waits for stream
room, it stays pending; with UTVEC zero, or in EXIT, it is discarded; with UTVEC outside .scode it is discarded and PROT raised at the
resume address, once the lane queue has drained (R254); otherwise UEPC, UCAUSE and UTDATA are written, IH set and the stream goes to
UTVEC. RESCALE comes before REMOTE_ASYNC, SWTRAP and TIMER; taking or discarding TIMER zeroes CYCCMP, in the PROT case too (log 35,
DESIGN CHOICE); a sleep ended by a trap counts as complete, and as retired (R313). -/
def Claim.TrapEntry : Prop :=
  ∀ (s : State) (key : Nat) (code : Nat) (datum : Word),
    s.cur.live = true → s.cur.key = key → s.residentRuns s.cur = true → s.cur.wait.trapOpen = true →
    let g := s.cur
    let cycle := if g.place.onStack then (s.now - g.base) / 2 * 2 else s.now - g.base
    let timer := g.traps.timer = true ∨ (g.cyccmp ≠ 0 ∧ g.cyccmp.toNat ≤ cycle)
    let open_ := g.ih = false ∧ g.roomWait = false
    let first := (g.traps.rescale.isSome ∧ code = 0x41 ∧ some datum = g.traps.rescale) ∨
      (g.traps.rescale = none ∧ g.traps.remote = true ∧ code = 0x43 ∧ datum = g.remstat.word) ∨
      (g.traps.rescale = none ∧ g.traps.remote = false ∧ code = 0x42 ∧
        ∃ i, g.traps.sw = some i ∧ datum = BitVec.ofNat 64 i.toNat) ∨
      (g.traps.rescale = none ∧ g.traps.remote = false ∧ g.traps.sw = none ∧ timer ∧ code = 0x40 ∧
        datum = BitVec.ofNat 64 cycle)
    let resume := match g.wait with | .sleep _ => g.spc + 4 | _ => g.spc
    let count := match g.wait with | .sleep _ => g.retired + 1 | _ => g.retired
    (¬ open_ → exec (.userTrapEntry key) s = .next s) ∧
    (first → open_ → g.utvec = 0 ∨ g.wait = .exit →
      exec (.userTrapEntry key) s = .next (s.setCur (g.dropTrap code))) ∧
    (first → open_ → g.utvec ≠ 0 → g.wait ≠ .exit → s.inScode g g.utvec.toNat = true →
      exec (.userTrapEntry key) s = .next (s.setCur { g.dropTrap code with
        uepc := resume, ucause := BitVec.ofNat 64 code, utdata := datum, ih := true, spc := g.utvec, wait := .none, retired := count })) ∧
    (first → open_ → g.utvec ≠ 0 → g.wait ≠ .exit → s.inScode g g.utvec.toNat = false → g.lq ≠ [] →
      exec (.userTrapEntry key) s = .next (s.setCur { g with spc := resume, wait := .trapDrain code, retired := count })) ∧
    (first → open_ → g.utvec ≠ 0 → g.wait ≠ .exit → s.inScode g g.utvec.toNat = false → g.lq = [] →
      ∃ t, exec (.userTrapEntry key) s = .next t ∧
        t.cur = { g.dropTrap code with
          spc := resume, wait := .none, retired := count, tmask := 0xFFFFFFFF, stop := .faulted { cause := causeProt, slot := 0, addr := g.utvec, detail := 3 } 0 }) ∧
    (g.dropTrap code).cyccmp = (if code = 0x41 ∨ code = 0x42 ∨ code = 0x43 then g.cyccmp else 0)

/-- TIMER (R22) becomes pending when CYCLE reaches a non-zero CYCCMP; a SLEEP ends when CYCLE reaches its end (R111). -/
def Claim.TimerAndSleep : Prop :=
  ∀ (s : State) (key till : Nat), s.cur.live = true → s.cur.key = key → s.residentRuns s.cur = true →
    let cycle := if s.cur.place.onStack then (s.now - s.cur.base) / 2 * 2 else s.now - s.cur.base
    (s.cur.cyccmp ≠ 0 → s.cur.cyccmp.toNat ≤ cycle →
      exec (.timer key) s = .next (s.setCur { s.cur with traps := { s.cur.traps with timer := true } })) ∧
    (s.cur.cyccmp = 0 ∨ cycle < s.cur.cyccmp.toNat → exec (.timer key) s = .next s) ∧
    (s.cur.wait = .sleep till → till ≤ cycle → exec (.sleepEnd key) s = s.falls s) ∧
    (s.cur.wait = .sleep till → cycle < till → exec (.sleepEnd key) s = .next s)

/-- A user trap saves and redirects as R115 says, ERET returns from it, and timer and sleep end as stated: the claims above together. -/
def Obligations.UserTrapsAndTimer : Prop := Claim.TrapReturn ∧ Claim.TrapEntry ∧ Claim.TimerAndSleep

/-- A scalar fault stops the group precisely (R91, R253): SPC holds the instruction's address and no register but TMASK, which
becomes all ones, changes; while clauses are queued the fault is kept and the stop waits for them (R254; log 12). -/
def Claim.ScalarFault : Prop :=
  ∀ (s : State) (f : FaultInfo),
    (s.cur.lq = [] → s.scalarFault f = { s with cur := { s.cur with
      stop := .faulted { f with lane := false, tmask := 0xFFFFFFFF } 0, tmask := 0xFFFFFFFF, wait := .none } }) ∧
    (s.cur.lq ≠ [] → s.scalarFault f = { s with cur := { s.cur with wait := .drain (some f) } })

/-- A word that decodes to nothing is ILLEGAL at its address, naming the slot that R82 gives (R91: before every other fault); a
fetch outside .scode is PROT with access 3 (R92). -/
def Claim.ScalarIllegal : Prop :=
  ∀ (s t : State) (ex : Instr → State → Out) (w slot : Nat), (∀ f, s.cur.wait ≠ .drain (some f)) →
    (∀ code, s.cur.wait ≠ .trapDrain code) →
    (s.scalarWord s.cur = .ok (t, w) → decodeScalar w = .error slot →
      issueScalar ex s.cur.key s = t.raises causeIllegal slot) ∧
    (s.inScode s.cur s.cur.spc.toNat = false → issueScalar ex s.cur.key s = s.raises causeProt 0xFF s.cur.spc 3)

/-- The failing fields of a scalar word, by R82's slots: the tables of R60 to R67, R69 and R70 row by row. -/
def Claim.scalarFails (w : Nat) : List (Nat × Bool) :=
  let major := w / 2 ^ 28 % 16
  let sub4 := w / 2 ^ 24 % 16
  let sub3 := w / 2 ^ 25 % 8
  let sub2 := w / 2 ^ 26 % 4
  let fn := w % 2 ^ 9
  -- R69: major, op, whether fl may name a flag, fields that must be zero, whether c is a pair
  let rows : List (Nat × Nat × Bool × List Nat × Bool) :=
    [(7, 0, false, [], false), (7, 1, true, [], false), (7, 2, true, [10, 11, 12], false), (7, 3, false, [10, 11], false),
      (7, 4, true, [], false), (7, 5, true, [], false), (7, 6, false, [11, 12], false)] ++
    [(8, 0, true, [], false), (8, 1, true, [], true), (8, 2, false, [11, 12], false), (8, 3, false, [10, 12], false),
      (8, 4, true, [12], false), (8, 5, true, [12], false), (8, 6, true, [], false), (8, 7, true, [], false)] ++
    [(9, 0, true, [], true), (9, 1, false, [10, 11, 12], false), (10, 0, false, [10, 11], false), (10, 1, true, [12], false),
      (10, 2, false, [], false), (10, 3, false, [10, 11], false), (10, 4, false, [], true)] ++
    [(11, 0, true, [], true), (11, 1, false, [10], false), (11, 2, true, [10, 12], false), (11, 3, false, [], false),
      (11, 4, false, [], false), (11, 5, true, [10, 12], false), (11, 6, true, [10, 12], false)] ++
    [(12, 0, false, [12], false), (12, 1, false, [10], false), (12, 2, false, [10, 12], false)]
  let row := rows.find? fun r => r.1 == major && r.2.1 == w / 2 ^ 22 % 64
  let unused := fun (slot value : Nat) => row.any fun r => r.2.2.2.1.contains slot && value != 0
  let reserved := fun (m sub hi lo : Nat) => major == m && (if m == 4 then sub2 else if m == 1 then sub3 else sub4) == sub && bits w hi lo != 0
  [ (0, 14 ≤ major || w == 0 || (major == 2 && sub2 == 3) || ((major == 6 || major == 13) && 9 ≤ sub4) ||
      (7 ≤ major && major ≤ 12 && row.isNone)),
    (1, reserved 1 4 12 6 || reserved 1 5 12 6 || reserved 1 6 12 6 || reserved 4 2 19 0 || reserved 4 3 25 0 ||
      reserved 6 1 17 0 || reserved 6 2 23 0 || reserved 6 6 14 0 || reserved 6 7 14 0 || reserved 6 8 23 12 ||
      reserved 13 0 17 12 || reserved 13 1 17 12 || reserved 13 2 23 16 || reserved 13 3 23 0 || reserved 13 4 23 0 ||
      reserved 13 5 17 0 || reserved 13 6 23 0 || reserved 13 7 23 0 || reserved 13 8 23 16),
    (4, (major == 0 && !List.contains [0, 1, 2, 3, 4, 5, 6, 7, 8, 0x10, 0x11, 0x12, 0x13, 0x18, 0x19, 0x1A, 0x20, 0x21, 0x22, 0x23, 0x28, 0x29,
      0x2A, 0x30, 0x31, 0x32] fn) || (major == 3 && 6 ≤ sub3)),
    (5, row.any fun r => if r.2.2.1 then 12 < w % 16 else w % 16 != 0),
    (7, major == 5 && (sub3 == 4 || sub3 == 5) && 2 < bits w 18 15),
    (9, major == 5 && 6 ≤ sub3 && bits w 24 19 != 0),
    (10, unused 10 (bits w 21 16)),
    (11, unused 11 (bits w 15 10) || (major == 0 && [0x30, 0x31, 0x32].contains fn && bits w 15 10 != 0)),
    (12, unused 12 (bits w 9 4) || (row.any (·.2.2.2.2) && bit w 4)) ]

/-- ILLEGAL names the first failing field of a scalar word in the order of R82's table, and a word with none is an instruction. The slot of the
word 0 and of the count bits of the shift immediates is the model's reading (log 10). -/
def Claim.ScalarSlots : Prop :=
  ∀ (w slot : Nat), w < 2 ^ 32 →
    let fails := fun (n : Nat) => (n, true) ∈ Claim.scalarFails w
    (decodeScalar w = .error slot ↔ fails slot ∧ ∀ n, fails n → slot ≤ n) ∧
    ((∃ i, decodeScalar w = .ok i) ↔ ∀ n, ¬ fails n)

/-- A scalar instruction whose source an uncorrectable error or a poisoned word has marked raises CHECK of class 3 with the origin of the
poison, naming that operand (R376, R378); of several it names a record, then a, then b or the register stored (log 34, DESIGN CHOICE); s0
never is marked. Nothing else changes but what the report of the error changes. -/
def Claim.ScalarPoison : Prop :=
  ∀ (s : State) (d a b : Fin 64) (w : Bool) (p : Fin 8) (n : Fin 16) (o9 : BitVec 9) (o21 : BitVec 21) (origin : Nat),
    let marked := fun (r : Nat) => (s.cur.poisonS.find? fun e => e.1 == r) = some (r, origin)
    let checks := fun (i : Instr) (slot : Nat) (brec : Option Nat) => ∃ u : State, u = s.reported u ∧ exec i s = .next (u.scalarFault
      { cause := causeCheck, slot := slot, hw := true, brec := brec, detail := BitVec.ofNat 64 (3 * 2 ^ 56 + origin) })
    (a ≠ 0 → marked a.val → checks (.add d a b w) 10 none ∧ checks (.popc d a w) 10 none ∧ checks (.jr a) 10 none ∧
      (s.cur.cleanOther [80 + n.val] → checks (.sld d n a o9) 10 (some n.val) ∧ checks (.sst d n a o9) 10 (some n.val))) ∧
    (b ≠ 0 → s.cur.clean [a] → marked b.val → checks (.add d a b w) 11 none) ∧
    (d ≠ 0 → s.cur.clean [a] → s.cur.cleanOther [80 + n.val] → marked d.val → checks (.sst d n a o9) 9 (some n.val)) ∧
    (marked (64 + p.val) → ∀ i ∈ [Instr.bany p o21, .ball p o21, .bnone p o21, .mvp d p], checks i 8 none) ∧
    (marked (80 + n.val) → ∀ i ∈ [Instr.sld d n a o9, .sldw d n a o9, .sst d n a o9, .sstw d n a o9, .badj n a o9], checks i 7 (some n.val))

/-- A scalar fault or an undecodable word stops the group with its record, and names the first failing field: the claims above together. -/
def Obligations.ScalarFaultAndIllegalStop : Prop := Claim.ScalarFault ∧ Claim.ScalarPoison ∧ Claim.ScalarIllegal ∧ Claim.ScalarSlots

/-- The frame of the instructions that only write one s-register, or nothing: whatever happens, memory, every other s-register and
every other piece of state stay as they are; only d, its poison mark and upset bits, SPC, the wait, the stop, TMASK and the count of
retired instructions may change, and what the report of a poisoned source changes. -/
def Claim.ScalarRegisterFrame : Prop :=
  ∀ (s t : State) (i : Instr) (d a b cnt : Fin 64) (w : Bool) (imm : BitVec 13) (k : BitVec 20) (p : Fin 8) (cr : BitVec 12),
    i ∈ [.add d a b w, .sub d a b w, .mul d a b w, .mulh d a b w, .mulhn d a b w, .div d a b w, .divn d a b w, .rem d a b w,
      .remn d a b w, .and d a b w, .or d a b w, .xor d a b w, .andn d a b w, .shl d a b w, .shr d a b w, .sar d a b w,
      .min d a b w, .max d a b w, .minn d a b w, .maxn d a b w, .slt d a b w, .sltn d a b w, .seq d a b w, .clz d a w,
      .ctz d a w, .popc d a w, .addi d a imm, .andi d a imm, .ori d a imm, .xori d a imm, .slti d a imm, .shli d a cnt,
      .shri d a cnt, .sari d a cnt, .li d k, .lis d k, .lpc d k, .mvp d p, .crd d cr, .nop, .yield, .lwait] →
    exec i s = .next t →
    t = { s.reported t with cur := t.cur } ∧
    t.cur = { s.cur with
      s := t.cur.s, poisonS := t.cur.poisonS, softReg := t.cur.softReg, spc := t.cur.spc, wait := t.cur.wait, stop := t.cur.stop,
      tmask := t.cur.tmask, retired := t.cur.retired } ∧
    (∀ r, r ≠ d → t.rs r = s.rs r) ∧
    t.cur.poisonS.filter (fun e => e.1 != d.val) = s.cur.poisonS.filter (fun e => e.1 != d.val) ∧
    (∀ k, cellRead t.mem k = cellRead s.mem k)

/-- The frame of the scalar branches, jumps, lane control, system words and loads: no byte of memory changes, no s-register but the
destination, which is s63 for CALL, no b-register but the one that BLD or BADJ names, no predicate but MVPS's, no poison mark of another,
and no control register but the one that CWR names, TMASK where the instruction stops the group, and what TRAP makes pending. -/
def Claim.ScalarControlFrame : Prop :=
  ∀ (s t : State) (i : Instr) (d a b : Fin 64) (p : Fin 8) (n : Fin 16) (lvl : Fin 3) (o9 : BitVec 9) (o13 : BitVec 13)
    (o16 : BitVec 16) (o21 : BitVec 21) (o24 : BitVec 24) (o26 : BitVec 26) (mask cr : BitVec 12),
    (i ∈ [.beq a b o13, .bne a b o13, .blt a b o13, .bge a b o13, .bltn a b o13, .bgen a b o13, .bany p o21, .ball p o21,
        .bnone p o21, .jmp o26, .jr a, .ret, .lq o24, .lqr a, .mvps p a, .fwait mask, .cwr a cr, .trap o16, .eret, .sleep a,
        .exit, .brk o16, .bld n a o9, .badj n a o9] ∧ d = 0) ∨
      (i = .call o26 ∧ d = 63) ∨ i ∈ [.sld d n a o9, .sldw d n a o9, .slds d lvl a o9] →
    exec i s = .next t →
    (∀ k, cellRead t.mem k = cellRead s.mem k) ∧
    (∀ r, r ≠ d → t.rs r = s.rs r) ∧
    t.cur.v = s.cur.v ∧ t.cur.k = s.cur.k ∧ t.cur.f = s.cur.f ∧ t.others = s.others ∧ t.cores = s.cores ∧ t.teams = s.teams ∧
    t.launches = s.launches ∧ t.ctxs = s.ctxs ∧ t.queues = s.queues ∧ t.remotes = s.remotes ∧ t.work = s.work ∧
    (∀ q, q ≠ p → t.cur.rp q = s.cur.rp q) ∧ (i ≠ .mvps p a → t.cur.p = s.cur.p) ∧
    (let marks := fun (g : Group) => g.poisonS.filter (fun e => e.1 != d.val && !(decide (i = .mvps p a) && e.1 == 64 + p.val) &&
        !(decide (i ∈ [.bld n a o9, .badj n a o9]) && e.1 == 80 + n.val));
      marks t.cur = marks s.cur) ∧ t.cur.poisonV = s.cur.poisonV ∧
    (∀ m : Fin 16, m ≠ n → t.cur.b[m] = s.cur.b[m]) ∧ (i ∉ [.bld n a o9, .badj n a o9] → t.cur.b = s.cur.b) ∧
    (i ≠ .eret → t.cur.ih = s.cur.ih) ∧ (i ∉ [.trap o16, .cwr a cr] → t.cur.traps = s.cur.traps) ∧
    (s.cur.stop = .running → t.cur.stop = .running → t.cur.tmask = s.cur.tmask) ∧
    (i ≠ .cwr a cr → t.cur = { s.cur with
      s := t.cur.s, p := t.cur.p, b := t.cur.b, lq := t.cur.lq, poisonS := t.cur.poisonS, softReg := t.cur.softReg, spc := t.cur.spc,
      wait := t.cur.wait, stop := t.cur.stop, tmask := t.cur.tmask, retired := t.cur.retired, roomWait := t.cur.roomWait,
      traps := t.cur.traps, ih := t.cur.ih })

/-- The frame of the scalar stores: whatever happens, no register changes, and a byte of memory outside the 8 or 4 bytes at the
address computed for the store reads as before; where no line is good, every byte does. -/
def Claim.ScalarStoreFrame : Prop :=
  ∀ (s t : State) (i : Instr) (d a : Fin 64) (n : Fin 16) (lvl : Fin 3) (imm : BitVec 9) (w : Nat),
    let o := (s.rs a + BitVec.ofInt 64 (8 * imm.toInt)).toNat
    let va := (recBase s.cur.b[n] + o) % 2 ^ 57
    let k := s.windowKey s.cur lvl o
    exec i s = .next t →
    ((i, w) ∈ [(Instr.sst d n a imm, 8), (.sstw d n a imm, 4)] →
      ∀ j, (∀ u l, s.line .write va 10 (some n.val) = .ok (u, l) → j < l.key va ∨ l.key va + w ≤ j) →
        cellRead t.mem j = cellRead s.mem j) ∧
    (i = .ssts d lvl a imm → ∀ j, j < k ∨ k + 8 ≤ j → cellRead t.mem j = cellRead s.mem j) ∧
    ((i, w) ∈ [(Instr.sst d n a imm, 8), (.sstw d n a imm, 4)] ∨ i = .ssts d lvl a imm →
      t.cur = { s.cur with
        spc := t.cur.spc, wait := t.cur.wait, stop := t.cur.stop, tmask := t.cur.tmask, retired := t.cur.retired,
        roomWait := t.cur.roomWait } ∧
      t.others = s.others)

/-- A scalar instruction leaves unchanged every register, flag and byte it does not name: the claims above together. -/
def Obligations.ScalarFrames : Prop := Claim.ScalarRegisterFrame ∧ Claim.ScalarControlFrame ∧ Claim.ScalarStoreFrame

/-- TMOV and TMOVA (R179, R180): an empty tile does nothing at all, whatever the addresses; otherwise, with both addresses 16-byte
aligned, the row length a multiple of 16, the arrival word 8-byte aligned and every row allowed by its window or page, the copy is
accepted into the open batch. -/
def Claim.TileCopyIssue : Prop :=
  ∀ (s u : State) (a b c : Fin 64) (pc : Fin 32) (fl : Fin 13) (runs : List (List (List Run))) (ta tb tc : Tagged),
    let lo := pairLo pc
    let hi := pairHi pc
    let bad := fun r => stackLacksTag s.cur (s.rs r) = true
    let rows := fun (d : Word) => bits d.toNat 15 0
    let bytes := fun (d : Word) => bits d.toNat 31 16
    let tiles := fun (d : Word) =>
      [({ acc := .write, slot := 10, tag := ta, pieces := tileRows (rows d) (bytes d) (16 * bits d.toNat 63 48) } : Side),
       { acc := .read, slot := 11, tag := tb, pieces := tileRows (rows d) (bytes d) (16 * bits d.toNat 47 32) }]
    let segs := (List.zip (runs[1]?.getD []) (runs[0]?.getD [])).map fun q => matchRuns q.1 q.2
    let key := (runs[2]?.bind fun r => r.head?.bind fun p => p.head?).map fun r => r.2.1
    let allowed := fun d => taggedOf .write (s.rs a) 10 = .ok ta ∧ taggedOf .read (s.rs b) 11 = .ok tb ∧
      ta.addr % 16 = 0 ∧ tb.addr % 16 = 0 ∧ bytes d % 16 = 0
    (s.cur.clean [a, b, c] → ¬ bad a → ¬ bad b →
      let d := s.rs c
      (rows d = 0 ∨ bytes d = 0 → exec (.tmov a b c fl) s = s.falls s) ∧
      (rows d ≠ 0 → bytes d ≠ 0 → allowed d → s.hasRoom fl → s.sides (tiles d) = .ok (u, runs) →
        s.accepts fl (.copy segs none s.cur.batchOpen (rows d * bytes d)) (exec (.tmov a b c fl) s))) ∧
    (s.cur.clean [a, b, lo, hi] → ¬ bad a → ¬ bad b → ¬ bad hi →
      let d := s.rs lo
      (rows d = 0 ∨ bytes d = 0 → exec (.tmova a b pc fl) s = s.falls s) ∧
      (rows d ≠ 0 → bytes d ≠ 0 → allowed d → taggedOf .write (s.rs hi) 12 = .ok tc → tc.addr % 8 = 0 → s.hasRoom fl →
        s.sides (tiles d ++ [{ acc := .write, slot := 12, tag := tc, pieces := [(0, 8)] }]) = .ok (u, runs) →
        s.accepts fl (.copy segs key s.cur.batchOpen (rows d * bytes d)) (exec (.tmova a b pc fl) s)))

/-- BSEAL closes the open batch and gives its number; with 255 incomplete batches it waits. BWAIT waits while its batch, or an
older one, has a copy outstanding, and otherwise completes, making REMOTE_ASYNC pending where a denial is recorded (R181,
R114). -/
def Claim.Batches : Prop :=
  ∀ (s : State) (a b : Fin 64), s.cur.clean [b] → (∀ c ∈ s.beaterChecks, c.1 ≠ s.cur.key) →
    let open_ := s.cur.batchOpen
    let n : BitVec 16 := BitVec.ofNat 16 (s.rs b).toNat
    let older := ∃ x ∈ s.openBatches s.cur, (open_ - n).toNat ≤ (open_ - x).toNat
    (s.batchGap s.cur < 255 →
      exec (.bseal a) s = s.falls ({ s with cur := { s.cur with batchOpen := open_ + 1 } }.ws a (BitVec.ofNat 64 open_.toNat))) ∧
    (255 ≤ s.batchGap s.cur → exec (.bseal a) s = s.waits .sx) ∧
    (older → exec (.bwait b) s = s.waits .batch) ∧
    (¬ older → exec (.bwait b) s = s.falls
      { s with cur := { s.cur with traps := { s.cur.traps with remote := s.cur.traps.remote || s.cur.remstat.d } } })

/-- An addition of n to an arrival word (R229), on the fields of R229's table: a TARGET of 0 means 2^23; COUNT becomes the rest of COUNT + n
by TARGET, GEN grows by the quotient, modulo 2^16, and UNIT and TARGET stay. -/
def Claim.ArrivalAddition : Prop :=
  ∀ (w n : Nat), w < 2 ^ 64 →
    let field := fun (x lo len : Nat) => x / 2 ^ lo % 2 ^ len
    let target := if field w 23 23 = 0 then 2 ^ 23 else field w 23 23
    let r := arrAdd w n
    field r 0 23 = (field w 0 23 + n) % target ∧
    field r 48 16 = (field w 48 16 + (field w 0 23 + n) / target) % 2 ^ 16 ∧
    field r 23 23 = field w 23 23 ∧ field r 46 2 = field w 46 2 ∧ r < 2 ^ 64

/-- COPY_LANDED (R179, R180, R229): every byte of the tile holds what its source held, no other byte of memory changes but the
arrival word, to which what its UNIT counts is added (bytes, or lines of 128 bytes, or no transition; a word of the reserved UNIT is left
unchanged), and the work is done. The rows do not overlap each other or the arrival word, and no row is held by a stack core. -/
def Claim.CopyLanded : Prop :=
  ∀ (s : State) (w : Work) (rows : List (List Seg)) (arrival : Option Nat) (batch : BitVec 16) (total : Nat), s.memOk →
    let p := ((s.group w.group).getD {}).place
    let segs := rows.flatten
    let apart := fun (x y : Nat × Nat) => x.1 + x.2 ≤ y.1 ∨ y.1 + y.2 ≤ x.1
    s.findWork w.id = some w → w.kind = .copy rows arrival batch total → p.onStack = false → s.rows = [] →
    (segs.map fun g => (g.dst, g.len)).Pairwise apart →
    (∀ g ∈ segs, ∀ h ∈ segs, apart (g.dst, g.len) (h.src, h.len)) →
    (∀ k, arrival = some k → ∀ g ∈ segs, apart (k, 8) (g.dst, g.len) ∧ apart (k, 8) (g.src, g.len)) →
    ∃ t, exec (.copyLanded w.id) s = .next t ∧
      (∀ g ∈ segs, ∀ i < g.len, cellRead t.mem (g.dst + i) = cellRead s.mem (g.src + i)) ∧
      (∀ k, arrival = some k → t.read k 8 =
        match bits (s.read k 8) 47 46 with
        | 0 => arrAdd (s.read k 8) total
        | 1 => arrAdd (s.read k 8) 0
        | 2 => arrAdd (s.read k 8) (total / 128)
        | _ => s.read k 8) ∧
      (∀ j, (∀ g ∈ segs, j < g.dst ∨ g.dst + g.len ≤ j) → (∀ k, arrival = some k → j < k ∨ k + 8 ≤ j) →
        cellRead t.mem j = cellRead s.mem j) ∧
      s.finished t w

/-- Tile copies and batches are issued with their counts and land exactly their bytes: the claims above together. -/
def Obligations.CopiesAndBatchesIssueAndLand : Prop :=
  Claim.TileCopyIssue ∧ Claim.Batches ∧ Claim.ArrivalAddition ∧ Claim.CopyLanded

/-- SEAL, UNSEAL and HOME (R182, R183): a range that is not 64 KiB aligned is ALIGN, LEN = 0 completes at once, a length over
2^40 is BOUNDS and a range past 2^57 PROT (log 65, DESIGN CHOICE); otherwise, once the group's own accesses are done and every page is present (and, for SEAL and
UNSEAL, writable), the work is accepted, and with fl = 0 the stream waits for it. HOME asks no W of a page, moves whole pages but host pages
(log 66, DESIGN CHOICE), and gives each the die and the layout that its descriptor and layout record place it at (R338). -/
def Claim.PageWorkIssue : Prop :=
  ∀ (s u : State) (a b c : Fin 64) (fl : Fin 13) (ls : List (Nat × Tlb)), s.cur.clean [a, b, c] →
    let va := (s.rs a).toNat
    let len := (s.rs b).toNat
    let ctx := (s.launchOf s.cur).ctx
    (∀ i ∈ [Instr.seal a b fl, .unseal a b fl, .home a b c fl],
      (va % 2 ^ 16 ≠ 0 → exec i s = s.raises causeAlign 10 (s.rs a)) ∧
      (va % 2 ^ 16 = 0 → len % 2 ^ 16 ≠ 0 → exec i s = s.raises causeAlign 11) ∧
      (va % 2 ^ 16 = 0 → len = 0 → exec i s = s.falls s) ∧
      (va % 2 ^ 16 = 0 → len % 2 ^ 16 = 0 → 2 ^ 40 < len → exec i s = s.raises causeBounds 11) ∧
      (va % 2 ^ 16 = 0 → len % 2 ^ 16 = 0 → len ≠ 0 → len ≤ 2 ^ 40 → 2 ^ 57 < va + len →
        exec i s = s.raises causeProt 10 (s.rs a) 1)) ∧
    (va % 2 ^ 16 = 0 → len % 2 ^ 16 = 0 → len ≠ 0 → len ≤ 2 ^ 40 → va + len ≤ 2 ^ 57 →
      (s.pageLeaves true va len = .ok (u, ls) → ∀ i on, (i, on) ∈ [(Instr.seal a b fl, true), (.unseal a b fl, false)] →
        s.cur.lq = [] → s.settled s.cur.key = true → s.cur.place.onStack = false →
        (fl = 0 → s.acceptsAndWaits (.sealing ctx va len on) (exec i s)) ∧
        (fl ≠ 0 → s.hasRoom fl → s.accepts fl (.sealing ctx va len on) (exec i s))) ∧
      (s.pageLeaves false va len = .ok (u, ls) →
        let d := (s.rs c).toNat
        let pages := (ls.map (·.2)).dedup
        let m := wholePages pages va len
        (m.1 ≤ va ∧ va + len ≤ m.1 + m.2 ∧ ∀ p ∈ pages, m.1 ≤ p.va ∧ p.va + 2 ^ p.size ≤ m.1 + m.2) ∧
        ∀ (fs : List (Nat × Nat × Nat)) (x y : State) (recs : List (Nat × Option Layout)),
          let goals := pages.zipIdx.map fun (p, i) => (p, homeOf recs d i p)
          homeBad d (s.launchOf s.cur).dieMask = false →
          u.layouts ctx ((pages.map (homeRecord d)).dedup.filter (· != 0)) = (y, recs) → y.cur = s.cur →
          (∀ q ∈ goals, q.2.isSome = true) → s.hasRoom fl →
          y.takeFrames (goals.filterMap fun q => if q.1.hm then none else q.2.map fun g => (q.1, g.1, g.2)) = some (fs, x) →
          x = { y with pool := x.pool, poolTaken := x.poolTaken } ∧
          (fl = 0 → x.acceptsAndWaits (.home ctx m.1 m.2 fs) (exec (.home a b c fl) s)) ∧
          (fl ≠ 0 → x.accepts fl (.home ctx m.1 m.2 fs) (exec (.home a b c fl) s))))

/-- SEAL_COMPLETE (R182): it waits for the context's committed accesses; then every cached translation of the range is sealed (or
not), UNSEAL drops the replicas of every page that the range touches, the SEAL bit (bit 6) of every leaf entry is written and no other bit of memory changes,
and the work is done. -/
def Claim.SealComplete : Prop :=
  ∀ (s : State) (w : Work) (ctx va len : Nat) (on : Bool), s.memOk →
    s.findWork w.id = some w → w.kind = .sealing ctx va len on →
    ((∃ y ∈ s.work, y.id ≠ w.id ∧ y.ctx = ctx ∧ y.kind.committed = true) → exec (.sealComplete w.id) s = .next s) ∧
    ((∀ y ∈ s.work, y.id ≠ w.id → y.ctx = ctx → y.kind.committed = false) →
      let entries := (granules va len).filterMap fun a => (s.leafAt w.die ctx a).map (·.entry)
      ∃ t, exec (.sealComplete w.id) s = .next t ∧ s.finished t w ∧
        t.tlb = s.tlb.map (fun l => if l.inRange ctx va len then { l with sealed := on } else l) ∧
        t.replicas = s.replicas.filter (fun r => on || !(r.ctx == ctx && r.page < va + len && va < r.page + 2 ^ r.size)) ∧
        (∀ e ∈ entries, ∀ n < 8, (cellRead t.mem e).getLsbD n = if n = 6 then on else (cellRead s.mem e).getLsbD n) ∧
        (∀ j, j ∉ entries → cellRead t.mem j = cellRead s.mem j))

/-- HOME_COMPLETE (R183): it waits for the context's earlier committed accesses; then, for one page on the device, its bytes stand
in the new frame, the leaf entry names that frame and the layout, no translation of the page stays cached, and the old frame goes
to its die's pool. Several pages are moved one after another in the same way. -/
def Claim.HomeComplete : Prop :=
  ∀ (s : State) (w : Work) (ctx va len : Nat) (pages : List (Nat × Nat × Nat)),
    s.findWork w.id = some w → w.kind = .home ctx va len pages →
    ((∃ y ∈ s.work, y.id < w.id ∧ y.ctx = ctx ∧ y.kind.committed = true) → exec (.homeComplete w.id) s = .next s) ∧
    ((∀ y ∈ s.work, y.id < w.id → y.ctx = ctx → y.kind.committed = false) →
      ∃ t, exec (.homeComplete w.id) s = .next t ∧ t.mem = (pages.foldl (State.movePage ctx w.die) s).mem ∧
        (∀ x ∈ t.work, x.id ≠ w.id)) ∧
    ∀ (page frame lay : Nat) (l : Tlb), s.memOk → s.leafAt w.die ctx page = some l → frame % 2 ^ 9 = 0 → frame < 2 ^ 64 →
      lay < 2 ^ 16 → l.entry + 16 ≤ frame ∨ frame + 2 ^ l.size ≤ l.entry →
      let t := State.movePage ctx w.die s (page, frame, lay)
      (∀ i < 2 ^ l.size, cellRead t.mem (frame + i) = cellRead s.mem (l.pa + i)) ∧
      bits (t.read l.entry 16) 63 9 * 2 ^ 9 = frame ∧ bits (t.read l.entry 16) 127 112 = lay ∧
      bits (t.read l.entry 16) 8 0 = bits (s.read l.entry 16) 8 0 ∧
      t.tlb = s.tlb.filter (fun x => !(x.ctx == ctx && x.va == l.va)) ∧
      t.pool = s.pool ++ [(l.pa / 2 ^ 37, l.pa, l.size)]

/-- SEAL, UNSEAL and HOME are issued as page work and change page states when they complete: the claims above together. -/
def Obligations.PageWorkIssuesAndEnds : Prop := Claim.PageWorkIssue ∧ Claim.SealComplete ∧ Claim.HomeComplete

/-- The integer instructions (R127-R130 with R34 and R35): each element of the result is the exact integer result of the elements of
the sources, clamped to the type's range (rm = 1) or wrapped; every active thread's destination gets its own result (R118-R122). -/
def Claim.LaneIntegers : Prop :=
  ∀ (s : State) (w : LaneFields),
    let ty := w.ty.val
    let n := elemBits ty
    let sgn := signedTy ty
    let lo : Int := if sgn then -(2 ^ (n - 1)) else 0
    let hi : Int := if sgn then 2 ^ (n - 1) - 1 else 2 ^ n - 1
    let fits := fun (e x : Int) => if w.rm.val = 1 then e = max lo (min hi x) else lo ≤ e ∧ e ≤ hi ∧ (e - x) % 2 ^ n = 0
    let all := fun (i : Instr) (op : Nat) (f : Int → Int → Int → Int) => s.laneGood op w →
      ∃ r : Fin 32 → Word32, exec i s = s.lanesTo w (ty == 1) r ∧
        ∀ t j, j < elems ty → fits (elem ty (r t) j) (f (elem ty (s.srcA w t) j) (elem ty (srcB s.cur w t) j) (elem ty (s.srcC w t) j))
    all (.iadd w) 0x00 (fun x y _ => x + y) ∧
    all (.isub w) 0x01 (fun x y _ => x - y) ∧
    all (.imul w) 0x02 (fun x y _ => x * y) ∧
    all (.imulh w) 0x03 (fun x y _ => (x * y).fdiv (2 ^ n)) ∧
    all (.imad w) 0x04 (fun x y z => x * y + z) ∧
    all (.imin w) 0x05 (fun x y _ => if x ≤ y then x else y) ∧
    all (.imax w) 0x06 (fun x y _ => if x ≤ y then y else x) ∧
    all (.iabs w) 0x07 (fun x _ _ => if x < 0 then -x else x) ∧
    all (.ineg w) 0x08 (fun x _ _ => -x) ∧
    all (.idiv w) 0x0A (fun x y _ => if y = 0 then (if sgn then -1 else 2 ^ 32 - 1) else x.tdiv y) ∧
    all (.irem w) 0x0B (fun x y _ => if y = 0 then x else x.tmod y) ∧
    (s.laneGood 0x09 w → ∃ r : Fin 32 → Word32, exec (.idot4 w) s = s.lanesTo w sgn r ∧
      ∀ t, let p := fun j => elem ty (s.srcA w t) j * elem ty (srcB s.cur w t) j
        let sum := p 0 + p 1 + p 2 + p 3 + (if sgn then (s.srcC w t).toInt else ((s.srcC w t).toNat : Int))
        let e : Int := if sgn then (r t).toInt else (r t).toNat
        if w.rm.val = 1 then e = (if sgn then max (-(2 ^ 31)) (min (2 ^ 31 - 1) sum) else max 0 (min (2 ^ 32 - 1) sum))
        else (e - sum) % 2 ^ 32 = 0)

/-- The lane integer members compute the results of their table in every active thread: the claim above. -/
def Obligations.LaneIntegerResults : Prop := Claim.LaneIntegers

/-- The bitwise, shift, bit-field and move instructions (R131-R134, R136), bit by bit: a shift by 32 or more gives 0 or copies of the
sign; a bit field is cut off at bit 31 and an empty one is 0, or changes nothing; BMUX3 looks up its truth table at 4c + 2a + b. -/
def Claim.LaneBitwise : Prop :=
  ∀ (s : State) (w : LaneFields),
    let a := fun t => s.srcA w t
    let b := fun t => srcB s.cur w t
    let c := fun t => s.srcC w t
    let pos := fun t => min ((b t).toNat % 256) 32
    let len := fun t => min ((b t).toNat / 256 % 256) (32 - pos t)
    let writes := fun (i : Instr) (op : Nat) (f : Fin 32 → Word32) => s.laneGood op w → exec i s = s.lanesTo w (w.ty.val == 1) f
    let byBit := fun (i : Instr) (op : Nat) (f : Fin 32 → Nat → Bool) => s.laneGood op w →
      ∃ r : Fin 32 → Word32, exec i s = s.lanesTo w (w.ty.val == 1) r ∧ ∀ t, ∀ k < 32, (r t).getLsbD k = f t k
    byBit (.laneAnd w) 0x10 (fun t k => (a t).getLsbD k && (b t).getLsbD k) ∧
    byBit (.laneOr w) 0x11 (fun t k => (a t).getLsbD k || (b t).getLsbD k) ∧
    byBit (.laneXor w) 0x12 (fun t k => (a t).getLsbD k != (b t).getLsbD k) ∧
    byBit (.not w) 0x13 (fun t k => !(a t).getLsbD k) ∧
    byBit (.laneAndn w) 0x14 (fun t k => (a t).getLsbD k && !(b t).getLsbD k) ∧
    byBit (.bmux3 w) 0x15 (fun t k => w.x.val.testBit
      (4 * ((c t).getLsbD k).toNat + 2 * ((a t).getLsbD k).toNat + ((b t).getLsbD k).toNat)) ∧
    writes (.laneShl w) 0x16 (fun t => BitVec.ofNat 32 (if 32 ≤ (b t).toNat then 0 else (a t).toNat * 2 ^ (b t).toNat)) ∧
    writes (.laneShr w) 0x17 (fun t => BitVec.ofNat 32 (if 32 ≤ (b t).toNat then 0 else (a t).toNat / 2 ^ (b t).toNat)) ∧
    writes (.laneSar w) 0x18 (fun t =>
      BitVec.ofInt 32 (if 32 ≤ (b t).toNat then (if (a t).toInt < 0 then -1 else 0) else (a t).toInt.fdiv (2 ^ (b t).toNat))) ∧
    byBit (.bfe w) 0x19 (fun t k => if k < len t then (a t).getLsbD (pos t + k)
      else decide (w.ty.val = 1) && decide (0 < len t) && (a t).getLsbD (pos t + len t - 1)) ∧
    byBit (.bfi w) 0x1A (fun t k => if pos t ≤ k ∧ k < pos t + len t then (a t).getLsbD (k - pos t) else (c t).getLsbD k) ∧
    writes (.lanePopc w) 0x1B (fun t => BitVec.ofNat 32 ((List.range 32).countP fun k => (a t).getLsbD k)) ∧
    (s.laneGood 0x1C w → ∃ z : Fin 32 → Nat, exec (.laneClz w) s = s.lanesTo w (w.ty.val == 1) (fun t => BitVec.ofNat 32 (z t)) ∧
      ∀ t, z t ≤ 32 ∧ (∀ k < z t, (a t).getLsbD (31 - k) = false) ∧ (z t < 32 → (a t).getLsbD (31 - z t) = true)) ∧
    byBit (.brev w) 0x1D (fun t k => (a t).getLsbD (31 - k)) ∧
    writes (.mov w) 0x22 b ∧
    (s.laneGood 0x23 w → exec (.movid w) s = s.lanesTo w false (fun t => BitVec.ofNat 32 t.val)) ∧
    (s.laneGood 0x21 w →
      exec (.sel w) s = s.lanesTo w false (fun t => if (s.cur.rp (Fin.ofNat 8 w.x.val)).getLsbD t.val then a t else b t))

/-- The comparisons (R135, R140): ICMP holds where it holds for every element; FCMP by IEEE rules, a NaN being unequal and unordered
and nothing else, with NV for a signalling NaN and for an ordered comparison of any NaN. -/
def Claim.LaneComparisons : Prop :=
  ∀ (s : State) (w : LaneFields),
    let x := w.x.val
    let rel := fun (p q : Int) => (x = 0 ∧ p = q) ∨ (x = 1 ∧ p ≠ q) ∨ (x = 2 ∧ p < q) ∨ (x = 3 ∧ p ≤ q) ∨ (x = 4 ∧ q < p) ∨ (x = 5 ∧ q ≤ p)
    let va := fun t => decodeF f32 s.cur.daz (s.srcA w t).toNat
    let vb := fun t => decodeF f32 s.cur.daz (srcB s.cur w t).toNat
    let nan := fun t => (va t).isNan = true ∨ (vb t).isNan = true
    let nv := fun t => ((va t).isSnan || (vb t).isSnan) || (((va t).isNan || (vb t).isNan) && decide (2 ≤ x ∧ x ≤ 5))
    (s.laneGood 0x20 w → x ≤ 5 → ∃ r : Fin 32 → Bool, exec (.icmp w) s = s.lanesTest w r ∧
      ∀ t, r t = true ↔ ∀ j < elems w.ty.val, rel (elem w.ty.val (s.srcA w t) j) (elem w.ty.val (srcB s.cur w t) j)) ∧
    (s.laneGood 0x48 w → x ≤ 7 → ∃ r : Fin 32 → Bool,
      exec (.fcmp w) s = s.lanesTest w r (if (s.laneThreads w).any nv then fNV else 0) ∧
      ∀ t, (nan t → (r t = true ↔ x = 1 ∨ x = 6)) ∧
        (¬ nan t → (r t = true ↔ rel (cmpF (va t) (vb t)) 0 ∨ x = 7)))

/-- The lane bitwise, shift, bit-field and comparison members compute their table's results: the claims above together. -/
def Obligations.LaneBitwiseAndComparisons : Prop := Claim.LaneBitwise ∧ Claim.LaneComparisons

/-- The float arithmetic (R44, R137, R138): one rounding of the exact result in the mode of rm, on .f32; on .bf16x2 each element
rounded to FP32 and then to BF16; FPSTAT and NFFLAG gather the conditions of the active threads. -/
def Claim.LaneFloatArithmetic : Prop :=
  ∀ (s : State) (w : LaneFields),
    let g := s.cur
    let md := g.mode w.rm.val
    let arith := fun (i : Instr) (op : Nat) (x : Nat → FVal → FVal → FVal → Exact) => s.laneGood op w →
      let half := fun (r : Word32) (j : Nat) => decodeF bf16 g.daz (r.toNat / 2 ^ (16 * j) % 2 ^ 16)
      let whole := fun (r : Word32) => decodeF f32 g.daz r.toNat
      let o32 := fun t => roundF f32 md g.ftz (x md (whole (s.srcA w t)) (whole (srcB g w t)) (whole (s.srcC w t)))
      let o16 := fun t j => twice md g.ftz (x 0 (half (s.srcA w t) j) (half (srcB g w t) j) (half (s.srcC w t) j))
      let ts := s.laneThreads w
      (w.ty.val = 0x10 → exec i s = s.lanesTo w false (fun t => BitVec.ofNat 32 (o32 t).1)
        (ts.foldl (fun f t => f ||| (o32 t).2) 0) (ts.foldl (fun f t => f ||| nfOf f32 (o32 t).1) 0)) ∧
      (w.ty.val ≠ 0x10 → exec i s = s.lanesTo w false (fun t => BitVec.ofNat 32 ((o16 t 1).1 * 2 ^ 16 + (o16 t 0).1))
        (ts.foldl (fun f t => f ||| ((o16 t 0).2 ||| (o16 t 1).2)) 0)
        (ts.foldl (fun f t => f ||| (nfOf bf16 (o16 t 0).1 ||| nfOf bf16 (o16 t 1).1)) 0))
    arith (.fadd w) 0x40 (fun rm a b _ => addX rm a b) ∧
    arith (.fsub w) 0x41 (fun rm a b _ => addX rm a b.neg) ∧
    arith (.fmul w) 0x42 (fun _ a b _ => mulX a b) ∧
    arith (.ffma w) 0x43 (fun rm a b c => fmaX rm a b c) ∧
    arith (.fsqrt w) 0x4B (fun _ a _ _ => sqrtX a) ∧
    arith (.fdiv w) 0x4C (fun _ a b _ => divX a b)

/-- The float selections and the functions of one operand (R41, R42, R139, R141-R143): FMIN and FMAX choose an operand, FABS and FNEG
act on the sign bit alone and set no flag, the transcendentals, FFRC, FRND, FSCL, FCLASS and FEXPO give their values. -/
def Claim.LaneFloatFunctions : Prop :=
  ∀ (s : State) (w : LaneFields),
    let g := s.cur
    let ts := s.laneThreads w
    let raw := fun t => (s.srcA w t).toNat
    let plain := fun (i : Instr) (op : Nat) (f : Fin 32 → Word32) => s.laneGood op w → exec i s = s.lanesTo w false f
    let float := fun (i : Instr) (op : Nat) (f : Fin 32 → Nat × Flags5) => s.laneGood op w → w.ty.val = 0x10 →
      exec i s = s.lanesTo w false (fun t => BitVec.ofNat 32 (f t).1)
        (ts.foldl (fun x t => x ||| (f t).2) 0) (ts.foldl (fun x t => x ||| nfOf f32 (f t).1) 0)
    let halves := fun (i : Instr) (op : Nat) (max : Bool) => s.laneGood op w → w.ty.val = 0x11 →
      let f := fun t j => selectF bf16 g.daz max ((s.srcA w t).toNat / 2 ^ (16 * j) % 2 ^ 16) ((srcB g w t).toNat / 2 ^ (16 * j) % 2 ^ 16)
      exec i s = s.lanesTo w false (fun t => BitVec.ofNat 32 ((f t 1).1 * 2 ^ 16 + (f t 0).1))
        (ts.foldl (fun x t => x ||| ((f t 0).2 ||| (f t 1).2)) 0)
        (ts.foldl (fun x t => x ||| (nfOf bf16 (f t 0).1 ||| nfOf bf16 (f t 1).1)) 0)
    float (.fmin w) 0x44 (fun t => selectF f32 g.daz false (raw t) (srcB g w t).toNat) ∧
    float (.fmax w) 0x45 (fun t => selectF f32 g.daz true (raw t) (srcB g w t).toNat) ∧
    halves (.fmin w) 0x44 false ∧
    halves (.fmax w) 0x45 true ∧
    plain (.fabs w) 0x46 (fun t => BitVec.ofNat 32 (raw t % 2 ^ 31)) ∧
    plain (.fneg w) 0x47 (fun t => BitVec.ofNat 32 (if raw t < 2 ^ 31 then raw t + 2 ^ 31 else raw t - 2 ^ 31)) ∧
    float (.frcp w) 0x49 (fun t => transF 0x49 g.daz g.ftz (raw t)) ∧
    float (.frsq w) 0x4A (fun t => transF 0x4A g.daz g.ftz (raw t)) ∧
    float (.fexp2 w) 0x4D (fun t => transF 0x4D g.daz g.ftz (raw t)) ∧
    float (.flog2 w) 0x4E (fun t => transF 0x4E g.daz g.ftz (raw t)) ∧
    float (.fsin w) 0x4F (fun t => transF 0x4F g.daz g.ftz (raw t)) ∧
    float (.fcos w) 0x50 (fun t => transF 0x50 g.daz g.ftz (raw t)) ∧
    float (.ftanh w) 0x51 (fun t => transF 0x51 g.daz g.ftz (raw t)) ∧
    float (.ffrc w) 0x52 (fun t => fraction g.daz g.ftz (raw t)) ∧
    float (.frnd w) 0x53 (fun t => integral (g.mode w.rm.val) g.daz (raw t)) ∧
    float (.fscl w) 0x55 (fun t => roundF f32 (g.mode w.rm.val) g.ftz (scaleX (decodeF f32 g.daz (raw t)) (srcB g w t).toInt)) ∧
    plain (.fclass w) 0x54 (fun t =>
      let mag := raw t % 2 ^ 31
      let neg := 2 ^ 31 ≤ raw t
      BitVec.ofNat 32 (2 ^ (if 0x7FC00000 ≤ mag then 1 else if 0x7F800000 < mag then 0 else if mag = 0x7F800000 then (if neg then 2 else 9)
        else if mag = 0 then (if neg then 5 else 6) else if mag < 0x800000 then (if neg then 4 else 7) else if neg then 3 else 8))) ∧
    (s.laneGood 0x56 w → exec (.fexpo w) s = s.lanesTo w true (fun t => exponentOf g.daz (raw t)))

/-- The value classes of FP32 and BF16 (R36, R38, R43) with DAZ (R25), their canonical NaNs, and the NFFLAG bits of a written element
(R125). -/
def Claim.FloatValues : Prop :=
  f32.nan = 0x7FC00000 ∧ bf16.nan = 0x7FC0 ∧
  ∀ (f : Fmt) (x : Nat) (daz : Bool), (f = f32 ∨ f = bf16) → x < 2 ^ (f.sign + 1) →
    let m := x % 2 ^ f.sign
    let neg := decide (2 ^ f.sign ≤ x)
    let quiet := f.inf + 2 ^ (f.p - 2)
    (quiet ≤ m → decodeF f daz x = .nan false ∧ nfOf f x = 1) ∧
    (f.inf < m → m < quiet → decodeF f daz x = .nan true ∧ nfOf f x = 1) ∧
    (m = f.inf → decodeF f daz x = .inf neg ∧ nfOf f x = if neg then 4 else 2) ∧
    (m < f.inf → nfOf f x = 0 ∧ ∃ k e, decodeF f daz x = .fin neg k e ∧
      (k : ℚ) * 2 ^ e = if daz = true ∧ m < 2 ^ (f.p - 1) then 0 else f.mag m)

/-- Infinities, NaNs and zeros in FADD (and FSUB, which adds the negated b), FMUL, FDIV, FSQRT and FFMA (R37-R40, R138): a NaN operand, or
an invalid operation, gives the canonical NaN, with NV for a signalling NaN or an invalid operation; an infinite exact result stays
infinite in every mode, division of a finite non-zero value by zero with DZ. -/
def Claim.FloatSpecialCases : Prop :=
  ∀ (f : Fmt) (rm : Nat) (ftz n k : Bool) (a b c : FVal) (m : Nat) (e : Int) (fl : Flags5),
    let snan := fun (l : List FVal) => if l.any FVal.isSnan then fNV else 0
    let invalid := Exact.nan fNV
    let num := FVal.fin k m e
    let zero := fun (x : FVal) => ∃ q r, x = .fin q 0 r
    roundF f rm ftz (.nan fl) = (f.nan, fl) ∧ roundF f rm ftz (.inf n fl) = ((if n then 2 ^ f.sign else 0) + f.inf, fl) ∧
    a.neg.rat = -a.rat ∧ a.neg.isNan = a.isNan ∧ a.neg.isSnan = a.isSnan ∧ (FVal.inf n).neg = .inf !n ∧
    (a.isNan = true ∨ b.isNan = true →
      addX rm a b = .nan (snan [a, b]) ∧ mulX a b = .nan (snan [a, b]) ∧ divX a b = .nan (snan [a, b]) ∧
      fmaX rm a b c = .nan (snan [a, b, c])) ∧
    (a.isNan = true → sqrtX a = .nan (snan [a])) ∧
    addX rm (.inf n) (.inf k) = (if n = k then .inf n 0 else invalid) ∧ addX rm (.inf n) num = .inf n 0 ∧ addX rm num (.inf n) = .inf n 0 ∧
    mulX (.inf n) (.inf k) = .inf (n != k) 0 ∧ mulX (.inf n) num = (if m = 0 then invalid else .inf (n != k) 0) ∧
    mulX num (.inf n) = (if m = 0 then invalid else .inf (n != k) 0) ∧
    divX (.inf n) (.inf k) = invalid ∧ divX (.inf n) num = .inf (n != k) 0 ∧ roundF f rm ftz (divX num (.inf n)) = (if n != k then 2 ^ f.sign else 0, 0) ∧
    (∀ q p r, divX (.fin q p r) (.fin k 0 e) = if p = 0 then invalid else .inf (q != k) fDZ) ∧
    sqrtX (.inf n) = (if n then invalid else .inf false 0) ∧ (m ≠ 0 → sqrtX (.fin true m e) = invalid) ∧
    roundF f rm ftz (sqrtX (.fin k 0 e)) = (if k then 2 ^ f.sign else 0, 0) ∧
    (zero a → fmaX rm a (.inf n) c = .nan fNV ∧ fmaX rm (.inf n) a c = .nan fNV) ∧
    (a.isNan = false → b.isNan = false → mulX a b ≠ invalid →
      (c.isNan = true → fmaX rm a b c = .nan (snan [c])) ∧
      (mulX a b = .inf n 0 → c.isNan = false → fmaX rm a b c = if c = .inf !n then invalid else .inf n 0) ∧
      ((∀ q, mulX a b ≠ .inf q 0) → c = .inf n → fmaX rm a b c = .inf n 0))

/-- The one rounding (R37-R40, R138): a finite sum, product, quotient, fused sum or square root is the exact real result rounded once in the
mode, with NX, UF and OF as R39 and R37 say, and FTZ; an exact zero sum of unlike signs is +0, and -0 rounding down (IEEE 754-2019,
which R36 names). -/
def Claim.FloatRounding : Prop :=
  ∀ (f : Fmt) (rm : Nat) (ftz n1 n2 n3 : Bool) (m1 m2 m3 : Nat) (e1 e2 e3 : Int), (f = f32 ∨ f = bf16) → rm ≤ 6 → rm ≠ 5 →
    let a := FVal.fin n1 m1 e1
    let b := FVal.fin n2 m2 e2
    let c := FVal.fin n3 m3 e3
    let down := decide (rm = 2)
    let gives := fun (x : Exact) (v : ℚ) (zeroNeg : Bool) => f.result rm ftz v zeroNeg (roundF f rm ftz x)
    gives (addX rm a b) (a.rat + b.rat) (if m1 = 0 ∧ m2 = 0 ∧ n1 = n2 then n1 else down) ∧
    gives (mulX a b) (a.rat * b.rat) (n1 != n2) ∧
    (m2 ≠ 0 → gives (divX a b) (a.rat / b.rat) (n1 != n2)) ∧
    gives (fmaX rm a b c) (a.rat * b.rat + c.rat) (if m1 * m2 = 0 ∧ m3 = 0 ∧ (n1 != n2) = n3 then n3 else down) ∧
    (m1 ≠ 0 → f.gives rm ftz false (Real.sqrt ((m1 : ℝ) * 2 ^ e1)) (roundF f rm ftz (sqrtX (.fin false m1 e1))))

/-- The selections of R40 and R139: minimumNumber and maximumNumber, -0 below +0; the other operand where one is a NaN, the canonical NaN
where both are; NV for a signalling NaN and no other condition; a subnormal operand is written as it was read (R137). -/
def Claim.FloatSelections : Prop :=
  ∀ (f : Fmt) (daz max : Bool) (x y : Nat), (f = f32 ∨ f = bf16) → x < 2 ^ (f.sign + 1) → y < 2 ^ (f.sign + 1) →
    let nan := fun (z : Nat) => f.inf < z % 2 ^ f.sign
    let snan := fun (z : Nat) => f.inf < z % 2 ^ f.sign ∧ z % 2 ^ f.sign < f.inf + 2 ^ (f.p - 2)
    let read := fun (z : Nat) => if daz = true ∧ z % 2 ^ f.sign < 2 ^ (f.p - 1) then z / 2 ^ f.sign * 2 ^ f.sign else z
    let place := fun (z : Nat) => if z < 2 ^ f.sign then (z : Int) else -((z - 2 ^ f.sign : Nat) : Int) - 1
    let r := selectF f daz max x y
    (r.2 = if snan x ∨ snan y then 16 else 0) ∧
    (nan x → nan y → r.1 = f.nan) ∧ (nan x → ¬ nan y → r.1 = read y) ∧ (¬ nan x → nan y → r.1 = read x) ∧
    (¬ nan x → ¬ nan y → place r.1 = if max then Max.max (place (read x)) (place (read y)) else Min.min (place (read x)) (place (read y)))

/-- The special inputs of the transcendentals (R42), and the values that R41 gives exactly or by one rounding: 1/x and 1/sqrt x, powers of
two and their logarithms, tanh of a small x. That the other results are correctly rounded rests on log 15. -/
def Claim.FloatTranscendentals : Prop :=
  ∀ (daz ftz : Bool) (x : Nat), x < 2 ^ 32 →
    let v := (decodeF f32 daz x).rat
    let neg := decide (2 ^ 31 ≤ x)
    let mag := x % 2 ^ 31
    let nan := 0x7FC00000
    let f := fun op => transF op daz ftz x
    let ops := [0x49, 0x4A, 0x4D, 0x4E, 0x4F, 0x50, 0x51]
    (0x7F800000 < mag → ∀ op ∈ ops, f op = (nan, if mag < nan then fNV else 0)) ∧
    (x = 0x7F800000 → ops.map f = [(0, 0), (0, 0), (x, 0), (x, 0), (nan, fNV), (nan, fNV), (0x3F800000, 0)]) ∧
    (x = 0xFF800000 → ops.map f = [(2 ^ 31, 0), (nan, fNV), (0, 0), (nan, fNV), (nan, fNV), (nan, fNV), (0xBF800000, 0)]) ∧
    (mag = 0 ∨ (daz = true ∧ mag < 2 ^ 23) → let z := if neg then 2 ^ 31 else 0
      ops.map f = [(z + 0x7F800000, fDZ), (z + 0x7F800000, fDZ), (0x3F800000, 0), (0xFF800000, fDZ), (z, 0), (0x3F800000, 0), (z, 0)]) ∧
    (mag < 0x7F800000 → v ≠ 0 →
      f32.gives 0 ftz neg (1 / |(v : ℝ)|) (f 0x49) ∧
      (neg = true → f 0x4A = (nan, fNV) ∧ f 0x4E = (nan, fNV)) ∧
      (neg = false → f32.gives 0 ftz false (1 / Real.sqrt (v : ℝ)) (f 0x4A)) ∧
      (∀ i : Int, v = i → -149 ≤ i → i ≤ 127 → f32.gives 0 ftz false ((2 : ℝ) ^ i) (f 0x4D)) ∧
      (128 ≤ v → f 0x4D = (0x7F800000, fOF ||| fNX)) ∧ (v ≤ -150 → f 0x4D = (0, fUF ||| fNX)) ∧
      (∀ i : Int, v = (2 : ℚ) ^ i → f32.result 0 ftz (i : ℚ) false (f 0x4E)) ∧
      (|v| < (2 : ℚ) ^ (-12 : Int) →
        (2 ^ 23 ≤ mag → f 0x51 = (x, fNX)) ∧
        (mag < 2 ^ 23 → f 0x51 = (if ftz then (if neg then 2 ^ 31 else 0) else x, fUF ||| fNX))))

/-- FFRC, FRND, FSCL and FEXPO (R142, R143): a - trunc a, a rounded to an integer, a times a power of two rounded once, and the floor of the
base-2 logarithm of |a|; with their special inputs. -/
def Claim.FloatParts : Prop :=
  ∀ (daz ftz : Bool) (rm x : Nat) (k : Int), x < 2 ^ 32 → rm ≤ 6 → rm ≠ 5 →
    let d := decodeF f32 daz x
    let v := d.rat
    let neg := decide (2 ^ 31 ≤ x)
    let sign := if neg then 2 ^ 31 else 0
    let nv : Flags5 := if d.isSnan then fNV else 0
    (d.isNan = true → fraction daz ftz x = (0x7FC00000, nv) ∧ integral rm daz x = (0x7FC00000, nv) ∧
      roundF f32 rm ftz (scaleX d k) = (0x7FC00000, nv) ∧ exponentOf daz x = 0x7FFFFFFF) ∧
    (d = .inf neg → fraction daz ftz x = (sign, 0) ∧ integral rm daz x = (sign + 0x7F800000, 0) ∧
      roundF f32 rm ftz (scaleX d k) = (sign + 0x7F800000, 0) ∧ exponentOf daz x = 0x7FFFFFFF) ∧
    (x % 2 ^ 31 < 0x7F800000 →
      f32.result 0 ftz ((if neg then -1 else 1) * (|v| - ⌊|v|⌋)) neg (fraction daz ftz x) ∧
      (fraction daz false x).2 = 0 ∧
      (rm ≤ 4 → ∃ n i : Nat, integral rm daz x = (sign + n, 0) ∧ f32.mag n = (i : ℚ) ∧ roundsInt rm neg ((|v| : ℚ) : ℝ) i) ∧
      f32.result rm ftz (v * 2 ^ k) neg (roundF f32 rm ftz (scaleX d k)) ∧
      (v = 0 → exponentOf daz x = 0x80000000) ∧
      (∀ i : Int, (2 : ℚ) ^ i ≤ |v| → |v| < 2 ^ (i + 1) → exponentOf daz x = BitVec.ofInt 32 i))

/-- The lane floating-point members round the exact result once, with the stated special cases: the claims above together. -/
def Obligations.LaneFloatResults : Prop :=
  Claim.LaneFloatArithmetic ∧ Claim.LaneFloatFunctions ∧ Claim.FloatValues ∧ Claim.FloatSpecialCases ∧ Claim.FloatRounding ∧
    Claim.FloatSelections ∧ Claim.FloatTranscendentals ∧ Claim.FloatParts

/-- Rounding an encoding's own value, in any mode and without flushing, gives the encoding back and sets no flag: every finite FP32
and BF16 value is its own rounding (R36, R37, R43). -/
def Claim.RoundingKeepsValues : Prop :=
  (∀ (x rm : Nat), x < 2 ^ 32 → (decodeF f32 false x).isNan = false → roundF f32 rm false (exactOf (decodeF f32 false x)) = (x, 0)) ∧
  (∀ (x rm : Nat), x < 2 ^ 16 → (decodeF bf16 false x).isNan = false → roundF bf16 rm false (exactOf (decodeF bf16 false x)) = (x, 0)) ∧
  (∀ (x rm : Nat), (decodeF f32 false x).isNan = true → (roundF f32 rm false (exactOf (decodeF f32 false x))).1 = 0x7FC00000)

/-- Rounding leaves a representable value as it is: the claim above. -/
def Obligations.RoundingLeavesValues : Prop := Claim.RoundingKeepsValues

/-- The conversions (R144-R150): CVT between integer types clamps or wraps each element; QCVT and DQCVT raise MXFMT naming b for the
threads whose scale is no positive normal E8M7 value, and otherwise quantise or dequantise each thread's values, QCVT with its saturation
count (NFFLAG.SAT, and RESCALE above the armed threshold); PACK and UNPACK move codes. What each does on one thread is the next claim's. -/
def Claim.LaneConversions : Prop :=
  ∀ (s : State) (w : LaneFields),
    let g := s.cur
    let act := activeMask g w
    let ts := s.laneThreads w
    let src := w.x.val
    let dst := w.ty.val
    let part := fun t j => if j < elems src then elem src (s.srcA w t) j else elem src (s.srcC w t) (j - elems src)
    let cv := fun t => convert w g (s.srcA w t) (s.srcC w t)
    let qn := fun t => quantPair w (s.srcA w t) (srcB g w t) (s.srcC w t)
    let dq := fun t => dequantPair w (s.srcA w t) (srcB g w t)
    let badScale := fun (t : Fin 32) => act.getLsbD t.val = true ∧
      (let e := (srcB g w t).toNat % 2 ^ 16; 2 ^ 15 ≤ e ∨ e / 2 ^ 7 = 0 ∨ e / 2 ^ 7 = 255)
    (s.laneGood 0x80 w →
      exec (.cvt w) s = s.lanesTo w (dst == 1) (fun t => (cv t).val)
        (ts.foldl (fun f t => f ||| (cv t).fl) 0) (ts.foldl (fun f t => f ||| (cv t).nf) 0) ∧
      (isIntTy src = true → isIntTy dst = true → ∀ t, (cv t).fl = 0 ∧ (cv t).nf = 0 ∧ ∀ j < elems dst,
        let lo : Int := if signedTy dst then -(2 ^ (elemBits dst - 1)) else 0
        let hi : Int := if signedTy dst then 2 ^ (elemBits dst - 1) - 1 else 2 ^ elemBits dst - 1
        let e := elem dst (cv t).val j
        if w.rm.val = 1 then e = max lo (min hi (part t j)) else lo ≤ e ∧ e ≤ hi ∧ (e - part t j) % 2 ^ elemBits dst = 0)) ∧
    (∀ i op, (i, op) ∈ [(Instr.qcvt w, 0x81), (.dqcvt w, 0x82)] → s.laneGood op w → (∃ t, badScale t) →
      ∃ m : Word32, (∀ t : Fin 32, m.getLsbD t.val = true ↔ badScale t) ∧
        exec i s = .next (s.laneFault { cause := causeMxfmt, slot := 11, tmask := m } s.cur.clpos)) ∧
    ((∀ t, ¬ badScale t) →
      (s.laneGood 0x81 w →
        let count := ts.foldl (fun n t => n + (qn t).2.1) 0
        let h := (g.raiseStatus (if ts.any fun t => (qn t).2.2 then fNV else 0) 0).writeDst w.d act false
          fun t => (qn (if w.u then lowest act else t)).1
        let largest := match h.traps.rescale with | some m => if m.toNat < count then BitVec.ofNat 64 count else m | none => BitVec.ofNat 64 count
        (count = 0 → exec (.qcvt w) s = State.lanes (s.setCur h)) ∧
        (count ≠ 0 → exec (.qcvt w) s = State.lanes (s.setCur { h with
          nfflag := h.nfflag ||| 8
          traps := if g.rsthr.getLsbD 63 && decide (g.rsthr.toNat % 2 ^ 32 < count) then { h.traps with rescale := some largest } else h.traps }))) ∧
      (s.laneGood 0x82 w → exec (.dqcvt w) s = s.lanesTo w false (fun t => (dq t).val)
        (ts.foldl (fun f t => f ||| (dq t).fl) 0) (ts.foldl (fun f t => f ||| (dq t).nf) 0))) ∧
    (s.laneGood 0x83 w → exec (.pack w) s = s.lanesTo w false (fun t => packCodes (qBits dst) (s.srcA w t) (srcB g w t) (s.srcC w t))) ∧
    (s.laneGood 0x84 w → exec (.unpack w) s = s.lanesTo w false (fun t => unpackCodes (qBits dst) (s.srcA w t) (srcB g w t) (s.srcC w t)))

/-- CVT of one element (R45, R144, R145): from a float to a float or from an integer to a float by one rounding, a NaN to the canonical NaN;
from a float to an integer rounded and then clamped, NV where it clamped or was a NaN or an infinity, NX where rounding changed it; which
elements go where, and the union of their conditions. -/
def Claim.ConversionElements : Prop :=
  (∀ (rm x src dst : Nat) (sat daz ftz : Bool), rm ≤ 6 → rm ≠ 5 →
    let f := if dst = 0x10 then f32 else bf16
    let v := floatElem daz src x
    let neg := match v with | .inf n => n | .fin n _ _ => n | _ => false
    let sign := if neg then 2 ^ f.sign else 0
    let n := elemBits dst
    let lo : Int := if signedTy dst then -(2 ^ (n - 1)) else 0
    let hi : Int := if signedTy dst then 2 ^ (n - 1) - 1 else 2 ^ n - 1
    let code := fun (k : Int) => (k % 2 ^ n).toNat
    let i : Int := if signedTy src ∧ 2 ^ (elemBits src - 1) ≤ x then x - 2 ^ elemBits src else x
    let r := cvtElem rm sat daz ftz src dst x
    (src ∈ [0x10, 0x11] → dst ∈ [0x10, 0x11] →
      (v.isNan = true → r = (f.nan, if v.isSnan then fNV else 0)) ∧ (v = .inf neg → r = (sign + f.inf, 0)) ∧
      (v.isNan = false → v ≠ .inf neg → f.result rm ftz v.rat neg r)) ∧
    (src ∈ [1, 2, 3, 4, 5, 6] → x < 2 ^ elemBits src → dst ∈ [0x10, 0x11] → f.result rm ftz i false r) ∧
    (src ∈ [0x10, 0x11] → dst ∈ [1, 2, 3, 4, 5, 6] → rm ≤ 4 →
      (v.isNan = true → r = (0, fNV)) ∧ (v = .inf neg → r = (code (if neg then lo else hi), fNV)) ∧
      (v.isNan = false → v ≠ .inf neg → ∃ k : Nat, roundsInt rm neg ((|v.rat| : ℚ) : ℝ) k ∧
        let y : Int := if neg then -k else k
        (y < lo → r = (code lo, fNV)) ∧ (hi < y → r = (code hi, fNV)) ∧
        (lo ≤ y → y ≤ hi → r = (code y, if (y : ℚ) = v.rat then 0 else fNX))))) ∧
  ∀ (w : LaneFields) (g : Group) (a c : Word32),
    let src := w.x.val
    let dst := w.ty.val
    let one := fun j => cvtElem (g.mode w.rm.val) (w.rm.val == 1) g.daz g.ftz src dst
      (if j < elems src then rawElem src a j else rawElem src c (j - elems src))
    let r := convert w g a c
    (∀ j < elems dst, rawElem dst r.val j = (one j).1 % 2 ^ elemBits dst) ∧
    (∀ b < 5, r.fl.getLsbD b = (List.range (elems dst)).any fun j => (one j).2.getLsbD b) ∧
    (dst = 0x10 → r.nf = nfOf f32 r.val.toNat) ∧
    (dst = 0x11 → r.nf = nfOf bf16 (r.val.toNat % 2 ^ 16) ||| nfOf bf16 (r.val.toNat / 2 ^ 16)) ∧
    (dst ∈ [1, 2, 3, 4, 5, 6] → r.nf = 0)

/-- Quantising and dequantising (R46-R49, R146, R148): the quotient by the scale rounded once to an integer, ties to even, and clamped to the
largest produced code, with a saturation for each clamp and for an infinity; a NaN is 0 and no saturation. The product of a code and the
scale rounded once. Codes stand in the two halves of a register, and a code is read from its own low bits, sign-extended. -/
def Claim.QuantisedValues : Prop :=
  (∀ (f : Fmt) (neg : Bool) (m : Nat) (e q : Int) (sc qmax : Nat), (f = f32 ∨ f = bf16) → sc < 2 ^ 15 → 0 < sc / 2 ^ 7 → sc / 2 ^ 7 < 255 →
    let s : ℚ := (1 + (sc % 2 ^ 7 : Nat) / 128) * 2 ^ (((sc / 2 ^ 7 : Nat) : Int) - 127)
    let code := fun (k : Nat) => if neg then -(k : Int) else (k : Int)
    (∀ b, quantise (.nan b) sc qmax = (0, 0)) ∧ quantise (.inf neg) sc qmax = (code qmax, 1) ∧
    (∃ k : Nat, roundsInt 0 neg ((m * 2 ^ e / s : ℚ) : ℝ) k ∧
      quantise (.fin neg m e) sc qmax = (code (min k qmax), if qmax < k then 1 else 0)) ∧
    f.result 0 false (q * s) false (roundF f 0 false (dequantise q sc))) ∧
  (∀ ty n, (ty, n) ∈ [(0x20, 4), (0x21, 6), (0x22, 8), (0x23, 12)] → qBits ty = n ∧ qMax n = 2 ^ (n - 1) - 1) ∧
  ∀ (w : LaneFields) (a b c : Word32),
    let sc := b.toNat % 2 ^ 16
    let half := fun j => a.toNat / 2 ^ (16 * j) % 2 ^ 16
    let v0 := if w.x.val = 0x10 then decodeF f32 false a.toNat else decodeF bf16 false (half 0)
    let v1 := if w.x.val = 0x10 then decodeF f32 false c.toNat else decodeF bf16 false (half 1)
    let q := fun v => quantise v sc (qMax (qBits w.ty.val))
    let r := quantPair w a b c
    let n := qBits w.x.val
    let code := fun j => let k := half j % 2 ^ n; if k < 2 ^ (n - 1) then (k : Int) else k - 2 ^ n
    let d := fun f j => roundF f 0 false (dequantise (code j) sc)
    (r.1.toNat % 2 ^ 16 : Nat) = (q v0).1 % 2 ^ 16 ∧ (r.1.toNat / 2 ^ 16 : Nat) = (q v1).1 % 2 ^ 16 ∧
    r.2.1 = (q v0).2 + (q v1).2 ∧ r.2.2 = (v0.isNan || v1.isNan) ∧
    (w.ty.val = 0x10 → dequantPair w a b = { val := BitVec.ofNat 32 (d f32 0).1, fl := (d f32 0).2, nf := nfOf f32 (d f32 0).1 }) ∧
    (w.ty.val = 0x11 → dequantPair w a b =
      { val := BitVec.ofNat 32 ((d bf16 1).1 * 2 ^ 16 + (d bf16 0).1), fl := (d bf16 0).2 ||| (d bf16 1).2,
        nf := nfOf bf16 (d bf16 0).1 ||| nfOf bf16 (d bf16 1).1 })

/-- PACK and UNPACK bit by bit (R149, R150): PACK lays the low n bits of a's halves side by side from bit pos of d, pos signed, and takes the
other bits from c; UNPACK reads two codes of n bits from bit b[4:0] of the stream whose low word is a and whose high word is c, and
sign-extends each. -/
def Claim.PackedCodes : Prop :=
  ∀ (n : Nat) (a b c : Word32), n ∈ [4, 6, 8, 12] →
    let pos := b.toInt
    let stream := fun i => if i < 32 then a.getLsbD i else c.getLsbD (i - 32)
    (∀ k < 32, (packCodes n a b c).getLsbD k =
      if -32 ≤ pos ∧ pos ≤ 31 ∧ pos ≤ k ∧ k < pos + 2 * n then
        (let j := (k - pos).toNat; if j < n then a.getLsbD j else a.getLsbD (16 + j - n))
      else c.getLsbD k) ∧
    ∀ j < 2, ∀ k < 16, (unpackCodes n a b c).getLsbD (16 * j + k) = stream (b.toNat % 32 + n * j + min k (n - 1))

/-- The lane conversions compute the results of their table: the claims above together. -/
def Obligations.LaneConversionResults : Prop :=
  Claim.LaneConversions ∧ Claim.ConversionElements ∧ Claim.QuantisedValues ∧ Claim.PackedCodes

/-- The cross-thread and predicate instructions (R118, R151-R156): every thread reads the values that all threads held before; XPERM
takes its fill where the source is outside the segment or inactive; GTEST and GMASK look at the active threads alone; FOLD gives
every active thread the last of the prefixes that SCAN gives them one by one, the first value alone being an operation only where it is
the only one; PSET applies a truth table to predicates. What the prefixes are is the next claim's. -/
def Claim.LaneCrossThread : Prop :=
  ∀ (s : State) (w : LaneFields),
    let g := s.cur
    let act := activeMask g w
    let a := fun t => s.srcA w t
    let on := fun (t : Fin 32) => act.getLsbD t.val = true
    let same := fun (t u : Fin 32) => on u ∧ a u = a t
    let vs := (threads act).map a
    let x := w.x.val
    let ps := prefixes w g vs
    (s.laneGood 0xA0 w → exec (.xperm w) s = State.lanes (s.setCur (g.writeDst w.d act false fun t =>
      let width := 32 / 2 ^ bits x 4 2
      let base := t.val - t.val % width
      let k := (srcB g w t).toNat
      let far : Int := if k % 64 < 32 then (k % 64 : Nat) else (k % 64 : Nat) - 64
      let src : Int :=
        if x % 4 = 0 then (base + k % 32 % width : Nat)
        else if x % 4 = 1 then t.val + far
        else if x % 4 = 2 then base + ((t.val % width : Nat) + far) % width
        else (base + (t.val % width ^^^ k % 32 % width) : Nat)
      if (base : Int) ≤ src ∧ src < (base + width : Nat) ∧ act.getLsbD src.toNat = true then a (Fin.ofNat 32 src.toNat) else s.srcC w t))) ∧
    (s.laneGood 0xA1 w → ∃ m : Word32, exec (.gmask w) s = State.lanes (s.setCur (g.writeDst w.d act false fun _ => m)) ∧
      ∀ t : Fin 32, m.getLsbD t.val = true ↔ on t ∧ (if x = 0 then a t ≠ 0 else (a t).getLsbD 31 = true)) ∧
    (s.laneGood 0xA2 w → x ≤ 3 → ∃ r : Bool, exec (.gtest w) s = State.lanes (s.setCur (g.writePred w.pd act fun _ => r)) ∧
      (r = true ↔ (x = 0 ∧ ∃ t, on t ∧ a t ≠ 0) ∨ (x = 1 ∧ ∀ t, on t → a t ≠ 0) ∨ (x = 2 ∧ ∀ t u, on t → on u → a t = a u) ∨
        (x = 3 ∧ ∃ t, on t ∧ a t ≠ 0 ∧ ∀ u, on u → a u ≠ 0 → u = t))) ∧
    (s.laneGood 0xA7 w → ∃ r : Fin 32 → Word32, exec (.gpeer w) s = State.lanes (s.setCur (g.writeDst w.d act false r)) ∧
      ∀ t, (x = 0 → ∀ u : Fin 32, (r t).getLsbD u.val = true ↔ same t u) ∧
        (x = 1 → r t = if ∀ u, on u → a u = a t then act else 0) ∧
        (2 ≤ x → r t = BitVec.ofNat 32 ((List.finRange 32).countP fun u => act.getLsbD u.val && a u == a t))) ∧
    (s.laneGood 0xA3 w → exec (.fold w) s = State.lanes (s.setCur ((g.raiseStatus
      ((if ps.length = 1 then ps else ps.drop 1).foldl (fun f p => f ||| p.2) 0)
      (if w.ty.val = 0x10 then nfOf f32 ((ps.getLast?.getD (0, 0)).1) else 0)).writeDst w.d act (w.ty.val == 1)
        fun _ => BitVec.ofNat 32 (ps.getLast?.getD (0, 0)).1))) ∧
    (s.laneGood 0xA4 w →
      let qs := if bit x 3 then (identityOf (x % 8) w.ty.val, (0 : Flags5)) :: prefixes w g vs.dropLast else ps
      ∃ r : Fin 32 → Word32, (∀ k : Nat, (h : k < (threads act).length) → r (threads act)[k] = BitVec.ofNat 32 ((qs.map (·.1))[k]?.getD 0)) ∧
        exec (.scan w) s = State.lanes (s.setCur ((g.raiseStatus (qs.foldl (fun f p => f ||| p.2) 0)
          (if w.ty.val = 0x10 then qs.foldl (fun f p => f ||| nfOf f32 p.1) 0 else 0)).writeDst w.d act (w.ty.val == 1) r))) ∧
    (s.laneGood 0xA5 w → ∃ m : Fin 32 → Bool, exec (.pset w) s = State.lanes (s.setCur (g.writePred w.pd act m)) ∧
      ∀ t : Fin 32, m t = x.testBit
        (4 * ((g.rp (Fin.ofNat 8 w.c.val)).getLsbD t.val).toNat + 2 * ((g.rp (Fin.ofNat 8 w.a.val)).getLsbD t.val).toNat +
          ((g.rp (Fin.ofNat 8 w.b.val)).getLsbD t.val).toNat)) ∧
    (s.laneGood 0xA6 w →
      (x = 1 → exec (.pmov w) s = State.lanes (s.setCur (g.wp w.pd (a (lowest act))))) ∧
      (x ≠ 1 → exec (.pmov w) s = State.lanes (s.setCur (g.writeDst w.d act false fun _ => g.rp (Fin.ofNat 8 w.a.val)))))

/-- The prefixes of FOLD and SCAN (R153, R154): of integers the exact sum, wrapped or clamped on its own, the least or the greatest, or the
bits that all, some or an odd number hold, with no condition; of floats the first value as the operation's result on it alone, and then each
sum or selection of what came before and the next value, in thread order, rounded and flagged by itself (only the values are read under
DAZ; log 30). And the identities of the exclusive form. -/
def Claim.PrefixValues : Prop :=
  (∀ (w : LaneFields) (g : Group) (vs : List Word32),
    let x := w.x.val % 8
    let ps := prefixes w g vs
    let read := fun (v : Word32) => decodeF f32 g.daz v.toNat
    ps.length = vs.length ∧
    ((w.ty.val = 1 ∨ w.ty.val = 2) → ∀ i < vs.length,
      let us := vs.take (i + 1)
      let num := fun (v : Word32) => if w.ty.val = 1 then v.toInt else (v.toNat : Int)
      let lo : Int := if w.ty.val = 1 then -(2 ^ 31) else 0
      let hi : Int := if w.ty.val = 1 then 2 ^ 31 - 1 else 2 ^ 32 - 1
      let sum := (us.map num).sum
      ∃ r : Word32, ps[i]? = some (r.toNat, 0) ∧
        (x = 0 → r = BitVec.ofInt 32 (if w.rm.val = 1 then max lo (min hi sum) else sum)) ∧
        (x = 1 → r ∈ us ∧ ∀ u ∈ us, num r ≤ num u) ∧ (x = 2 → r ∈ us ∧ ∀ u ∈ us, num u ≤ num r) ∧
        ∀ b < 32, (x = 3 → r.getLsbD b = us.all fun u => u.getLsbD b) ∧ (x = 4 → r.getLsbD b = us.any fun u => u.getLsbD b) ∧
          (x = 5 → r.getLsbD b = decide ((us.countP fun u => u.getLsbD b) % 2 = 1))) ∧
    (w.ty.val = 0x10 → ∀ v rest, vs = v :: rest →
      let d := read v
      let flush := g.ftz && x == 0
      (d.isNan = true → ps[0]? = some (0x7FC00000, if d.isSnan then fNV else 0)) ∧
      (d.isNan = false → ps[0]? = some (
        if d.rat = 0 ∧ d ≠ .inf false ∧ d ≠ .inf true then (v.toNat / 2 ^ 31 * 2 ^ 31, 0)
        else if flush ∧ v.toNat % 2 ^ 31 < 2 ^ 23 then (v.toNat / 2 ^ 31 * 2 ^ 31, fUF ||| fNX) else (v.toNat, 0))) ∧
      ∀ i, (h : i + 1 < vs.length) →
        let before := (ps[i]?.getD (0, 0)).1
        let acc := if i = 0 then read v else decodeF f32 false before
        ps[i + 1]? = some (if x = 0 then roundF f32 (g.mode w.rm.val) g.ftz (addX (g.mode w.rm.val) acc (read vs[i + 1]))
          else selectF f32 g.daz (x == 2) (if i = 0 then v.toNat else before) vs[i + 1].toNat))) ∧
  ∀ ty, (ty = 1 ∨ ty = 2 ∨ ty = 0x10) →
    identityOf 0 ty = 0 ∧ identityOf 3 ty = 0xFFFFFFFF ∧ identityOf 4 ty = 0 ∧ identityOf 5 ty = 0 ∧
    identityOf 1 ty = (if ty = 1 then 0x7FFFFFFF else if ty = 2 then 0xFFFFFFFF else 0x7F800000) ∧
    identityOf 2 ty = (if ty = 1 then 0x80000000 else if ty = 2 then 0 else 0xFF800000)

/-- Shuffles, votes, scans and reductions combine the active threads as stated: the claims above together. -/
def Obligations.LaneCrossThreadResults : Prop := Claim.LaneCrossThread ∧ Claim.PrefixValues

/-- What writing a lane result does (R10-R12, R120, R122): the active threads' elements of a v-register and nothing else of it; or an
s-register, sign-extended for .i32 and zero-extended otherwise, s0 discarding it; a predicate's bits of active threads, p0
discarding them, its mark of poison going where all its bits are written (log 62). -/
def Claim.LaneWrites : Prop :=
  ∀ (g : Group) (d : Fin 128) (p : Fin 8) (act : Word32) (sgn : Bool) (f : Fin 32 → Word32) (q : Fin 32 → Bool),
    let h := g.writeDst d act sgn f
    let k := g.writePred p act q
    (∀ hd : d.val < 64, (∀ t : Fin 32, h.v[d.val][t] = if act.getLsbD t.val then f t else g.v[d.val][t]) ∧
      (∀ r : Fin 64, r.val ≠ d.val → h.v[r] = g.v[r]) ∧
      h = { g with v := h.v, poisonV := g.poisonV.filter (fun q => !(q.1 == d.val && act.getLsbD q.2.1)), softReg := h.softReg }) ∧
    (∀ hd : 64 ≤ d.val, h = g.ws ⟨d.val - 64, by omega⟩
      (if sgn then BitVec.ofInt 64 (f (lowest act)).toInt else BitVec.ofNat 64 (f (lowest act)).toNat)) ∧
    (p ≠ 0 → ∀ t : Fin 32, (k.rp p).getLsbD t.val = if act.getLsbD t.val then q t else (g.rp p).getLsbD t.val) ∧
    (∀ r, r ≠ p → k.rp r = g.rp r) ∧ k = { g with p := k.p, poisonS := k.poisonS, softReg := k.softReg } ∧ g.writePred 0 act q = g ∧
    (p ≠ 0 → act = 0xFFFFFFFF → k.poisonS = g.poisonS.filter (fun e => e.1 != 64 + p.val) ∧ k.softReg = g.softReg.filter (fun e => e.1 != 128 + p.val)) ∧
    (act ≠ 0xFFFFFFFF → k.poisonS = g.poisonS ∧ k.softReg = g.softReg)

/-- The place in the clause after a lane instruction (R12, R16, R72, R73): all threads are in the replay mask again; the next
instruction of the clause stands at the head with the registers that this one has pending, and after the last one the clause leaves
the queue and LPC's last value is its address. -/
def Claim.LaneProgress : Prop :=
  ∀ (s : State) (e : LqEntry) (q : List LqEntry) (h : ClauseHeader) (dirty : List Nat), s.cur.lq = e :: q → e.hdr = some h →
    let t := s.laneDone dirty
    t = { s with cur := { s.cur with
      lq := t.cur.lq, lastLpc := t.cur.lastLpc, yielded := t.cur.yielded, replay := 0xFFFFFFFF, retired := s.cur.retired + 1,
      roomWait := false } } ∧
    (e.pos = h.count.val → t.cur.lq = q ∧ t.cur.lastLpc = BitVec.ofNat 64 ((s.launchOf s.cur).lbase + 12 * e.idx) ∧
      t.cur.yielded = h.yieldHint) ∧
    (e.pos ≠ h.count.val → t.cur.lq = { e with pos := e.pos + 1, dirty := e.dirty ++ dirty } :: q ∧ t.cur.lastLpc = s.cur.lastLpc)

/-- CLAUSE_START (R72, R105): the header of the clause at the head of the queue is read once and kept; a malformed one is ILLEGAL and a
clause that leaves .lcode is CLAUSE, both at position 0 naming slot 13; the clause starts once every flag that its header waits for is
zero, and not before. An entry of the queue that holds an uncorrectable error is CHECK there (R375, R378; log 62). -/
def Claim.ClauseStart : Prop :=
  ∀ (s t : State) (key w : Nat) (e : LqEntry) (q : List LqEntry), s.cur.live = true → s.cur.key = key → s.cur.lq = e :: q →
    let l := s.launchOf s.cur
    let inside := fun (n : Nat) => 12 * (e.idx + n) ≤ l.lsize
    let free := fun (h : ClauseHeader) => (List.finRange 12).all fun f => !h.wait.getLsbD f.val || s.cur.f[f] == 0
    (e.started = true ∨ s.cur.stop ≠ .running → exec (.clauseStart key) s = .next s) ∧
    (e.started = false → s.cur.stop = .running → e.bad = true → exec (.clauseStart key) s =
      .next ((s.notePoison (queueKey key) 8 l.ctx).laneFault { cause := causeCheck, slot := 0xFF, hw := true, detail := 3 * 2 ^ 56 } 0)) ∧
    (∀ h, e.started = false → s.cur.stop = .running → e.bad = false → e.hdr = some h →
      exec (.clauseStart key) s = .next (if free h then s.setCur { s.cur with lq := { e with started := true } :: q } else s)) ∧
    (e.started = false → e.bad = false → e.hdr = none → s.cur.stop = .running →
      (¬ inside 1 → exec (.clauseStart key) s = .next (s.laneFault { cause := causeClause, slot := 13 } 0)) ∧
      (inside 1 → s.fetch (l.lbase + 12 * e.idx) 12 = .ok (t, w) →
        (decodeHeader w = none → exec (.clauseStart key) s = .next (t.laneFault { cause := causeIllegal, slot := 13 } 0)) ∧
        ∀ h, decodeHeader w = some h →
          (¬ inside (h.count.val + 2) → exec (.clauseStart key) s = .next (t.laneFault { cause := causeClause, slot := 13 } 0)) ∧
          (inside (h.count.val + 2) → exec (.clauseStart key) s =
            .next (t.setCur { t.cur with lq := { e with hdr := some h, started := free h } :: q }))))

/-- A lane instruction writes active threads only, then the clause moves on; a clause starts at its header: the claims above together. -/
def Obligations.LaneWritesAndClauseProgress : Prop := Claim.LaneWrites ∧ Claim.LaneProgress ∧ Claim.ClauseStart

/-- The order in which a lane instruction's obstacles count (R82, R73, R121, R124, R348, R378): ILLEGAL, then CLAUSE, then what a stack core
lacks; then a poisoned guard; with no active thread nothing but the place in the clause changes; then other poison, then uniformity. What
poison is met is reported. Every lane instruction obeys it. -/
def Claim.LaneObstacles : Prop :=
  ∀ (s : State) (i : Instr) (op : Nat) (w : LaneFields), laneOf i = some (op, w) → s.cur.clause.isSome = true →
    let g := s.cur
    let act := activeMask g w
    let reads := laneOthers op w ++ laneSources op w
    let faults := fun (t : State) (f : FaultInfo) => exec i s = .next (t.laneFault f g.clpos)
    (∀ n, firstSlot (laneChecks op w) = some n → faults s { cause := causeIllegal, slot := n }) ∧
    (firstSlot (laneChecks op w) = none →
      (∀ n, clauseSlot g op w = some n → faults s { cause := causeClause, slot := n, brec := laneRec op w }) ∧
      (clauseSlot g op w = none →
        (stackLacks g op w = true → exec i s = .next { s with cur := { g with stop := .returned, wait := g.wait.kept } }) ∧
        (stackLacks g op w = false →
          (∀ f, guardCheck g w = some f → faults (s.noteReg 0xFFFFFFFF (128 + w.pg.val)) { f with brec := laneRec op w }) ∧
          (guardCheck g w = none → act = 0 → exec i s = .next (s.laneDone (if isLongOp op then laneDests op w else []))) ∧
          (guardCheck g w = none → act ≠ 0 →
            (∀ f, poisonCheck g reads act = some f →
              faults ((reads.flatMap (·.2)).foldl (State.noteReg act) s) { f with brec := laneRec op w }) ∧
            (poisonCheck g reads act = none → w.u = true ∨ op = 0xA6 →
              ∀ f, uniformCheck g (laneSources op w) act = some f → faults s { f with brec := laneRec op w })))))

/-- When these obstacles stand (R73, R78, R123, R124, R348, R378). CLAUSE: a long-latency instruction names a flag that its header does not
give, or a destination or a source is a register that an earlier one of the clause writes. A stack core lacks the remote class, BKCMD, the
seven transcendentals and the cluster's and die's scratchpads. A poisoned guard, predicate, record or source is CHECK of class 3 with the
poison's origin, and sources of a uniform instruction that differ from the lowest active thread's are UNIFORMITY; each names the first such
operand and its threads. -/
def Claim.LaneChecks : Prop :=
  (∀ (g : Group) (op : Nat) (w : LaneFields) (e : LqEntry) (q : List LqEntry) (h : ClauseHeader),
    g.lq = e :: q → e.started = true → e.hdr = some h →
    let long := (0xC0 ≤ op ∧ op ≤ 0xC7) ∨ (0xE0 ≤ op ∧ op ≤ 0xE7)
    let fails := fun (n : Nat) => (n = 8 ∧ long ∧ (if w.pd.val % 2 = 1 then h.flagB else h.flagA) = none) ∨
      (n = 9 ∧ ∃ r ∈ laneDests op w, r ∈ e.dirty) ∨ ∃ x ∈ laneSources op w, x.1 = n ∧ ∃ r ∈ x.2, r ∈ e.dirty
    (clauseSlot g op w = none ↔ ∀ n, ¬ fails n) ∧ ∀ n, clauseSlot g op w = some n ↔ fails n ∧ ∀ m, fails m → n ≤ m) ∧
  (∀ (g : Group) (op : Nat) (w : LaneFields), stackLacks g op w = true ↔ g.place.onStack = true ∧
    ((0xE0 ≤ op ∧ op ≤ 0xE7) ∨ op ∈ [0xC6, 0x49, 0x4A, 0x4D, 0x4E, 0x4F, 0x50, 0x51] ∨ (op ∈ [0xC2, 0xC3, 0xC5] ∧ w.x.val % 4 ≠ 0))) ∧
  (∀ (op : Nat) (w : LaneFields) (x : Nat × List Nat), x ∈ laneOthers op w ↔
    (op = 0x21 ∧ x = (7, [128 + w.x.val % 8])) ∨ (op ∈ [0xC0, 0xC1, 0xC4, 0xC7] ∧ x = (7, [144 + w.x.val % 16])) ∨
    ((laneUse op w).a = .pred ∧ x = (10, [128 + w.a.val % 8])) ∨ ((laneUse op w).b = .pred ∧ x = (11, [128 + w.b.val % 8])) ∨
    ((laneUse op w).c = .pred ∧ x = (12, [128 + w.c.val % 8]))) ∧
  ∀ (g : Group) (w : LaneFields) (srcs : List (Nat × List Nat)) (act : Word32) (f : FaultInfo) (t0 : Fin 32),
    act.getLsbD t0.val = true → (∀ t < t0, act.getLsbD t.val = false) →
    let marked := fun (r : Nat) (t : Fin 32) (o : Nat) => (r < 64 ∧ (r, t.val, o) ∈ g.poisonV) ∨ (64 < r ∧ ∃ e ∈ g.poisonS, e.1 + 64 = r ∧ e.2 = o)
    let bad := fun (rs : List Nat) (t : Fin 32) => act.getLsbD t.val = true ∧ ∃ r ∈ rs, ∃ o, marked r t o
    let differs := fun (rs : List Nat) (t : Fin 32) => act.getLsbD t.val = true ∧ ∃ (r : Nat) (h : r < 64), r ∈ rs ∧ g.v[r][t] ≠ g.v[r][t0]
    let first := fun (P : List Nat → Fin 32 → Prop) (Q : List Nat → Prop) => ∃ pre x post, srcs = pre ++ x :: post ∧
      (∀ y ∈ pre, ∀ t, ¬ P y.2 t) ∧ f.slot = x.1 ∧ (∃ t, P x.2 t) ∧ (∀ t : Fin 32, f.tmask.getLsbD t.val = true ↔ P x.2 t) ∧ Q x.2
    let check := fun (o : Nat) => f = { cause := causeCheck, slot := f.slot, tmask := f.tmask, hw := true, detail := BitVec.ofNat 64 (3 * 2 ^ 56 + o) }
    (poisonCheck g srcs act = none ↔ ∀ x ∈ srcs, ∀ t, ¬ bad x.2 t) ∧
    (poisonCheck g srcs act = some f → first bad fun rs => ∃ o, check o ∧ ∃ r ∈ rs, ∃ t, f.tmask.getLsbD t.val = true ∧ marked r t o) ∧
    (uniformCheck g srcs act = none ↔ ∀ x ∈ srcs, ∀ t, ¬ differs x.2 t) ∧
    (uniformCheck g srcs act = some f → (first differs fun _ => True) ∧ f = { cause := causeUniformity, slot := f.slot, tmask := f.tmask }) ∧
    (guardCheck g w = none ↔ ∀ e ∈ g.poisonS, e.1 ≠ 64 + w.pg.val) ∧
    (guardCheck g w = some f → f.slot = 6 ∧ f.tmask = g.replay ∧ ∃ o, check o ∧ (64 + w.pg.val, o) ∈ g.poisonS)

/-- The types that R79 accepts, opcode by opcode: first and last opcode of a range, types. -/
def Claim.laneTypeRows : List (Nat × Nat × List Nat) :=
  let int6 := [0x01, 0x02, 0x03, 0x04, 0x05, 0x06]
  [(0x00, 0x02, int6), (0x05, 0x06, int6), (0x03, 0x04, [0x01, 0x02, 0x03, 0x04]), (0x07, 0x08, [0x01, 0x03, 0x05]),
    (0x09, 0x09, [0x05, 0x06]), (0x0A, 0x0B, [0x01, 0x02]), (0x10, 0x18, [0x00]), (0x1A, 0x1D, [0x00]), (0x19, 0x19, [0x01, 0x02]),
    (0x20, 0x20, int6), (0x21, 0x22, [0x00]), (0x23, 0x23, [0x02])] ++
  [(0x40, 0x45, [0x10, 0x11]), (0x46, 0x56, [0x10]), (0x80, 0x80, int6 ++ [0x10, 0x11]), (0x81, 0x81, [0x20, 0x21, 0x22, 0x23]),
    (0x82, 0x82, [0x10, 0x11]), (0x83, 0x84, [0x20, 0x21, 0x22, 0x23]), (0xA0, 0xA2, [0x00]), (0xA7, 0xA7, [0x00]),
    (0xA3, 0xA4, [0x01, 0x02, 0x10]), (0xA5, 0xA6, [0x00])] ++
  [(0xC0, 0xC3, [0x30, 0x31, 0x00, 0x32, 0x33]), (0xC4, 0xC5, [0x01, 0x02, 0x32]), (0xC6, 0xC6, [0x01, 0x02, 0x00, 0x10, 0x33]),
    (0xC7, 0xC7, [0x10]), (0xE0, 0xE0, [0x01, 0x02]), (0xE1, 0xE2, [0x01, 0x02, 0x10]), (0xE3, 0xE3, [0x00]),
    (0xE4, 0xE5, [0x32]), (0xE6, 0xE6, [0x00, 0x32]), (0xE7, 0xE7, [0x10])]

/-- How the opcodes use d, a, b, c and pd (R78, R119, R174): fields 0 unused, 1 a register, 2 a register or the immediate, 3 a predicate
code; pd 0 unused, 1 a predicate, 2 a flag, 3 a flag and an order. -/
def Claim.laneFieldUse (op ty x : Nat) : List Nat :=
  let within := fun (rs : List (Nat × Nat)) => rs.any fun r => r.1 ≤ op && op ≤ r.2
  let c := x / 16
  let elements := fun (t : Nat) => if [3, 4, 0x11].contains t then 2 else if [5, 6].contains t then 4 else 1
  if within [(0x04, 0x04), (0x09, 0x09), (0x15, 0x15), (0x1A, 0x1A), (0x43, 0x43), (0x83, 0x84), (0xA0, 0xA0)] then [1, 1, 2, 1, 0]
  else if within [(0x07, 0x08), (0x13, 0x13), (0x1B, 0x1D), (0x46, 0x47), (0x49, 0x4B), (0x4D, 0x54), (0x56, 0x56), (0xA1, 0xA1), (0xA3, 0xA4),
    (0xA7, 0xA7)] then [1, 1, 0, 0, 0]
  else if within [(0x00, 0x19), (0x21, 0x21), (0x40, 0x55), (0x82, 0x82)] && op != 0x48 then [1, 1, 2, 0, 0]
  else if within [(0x20, 0x20), (0x48, 0x48)] then [0, 1, 2, 0, 1]
  else if op = 0x22 then [1, 0, 2, 0, 0]
  else if op = 0x23 then [1, 0, 0, 0, 0]
  else if op = 0x80 then [1, 1, 0, if elements ty == 2 * elements x then 1 else 0, 0]
  else if op = 0x81 then [1, 1, 2, if x == 0x10 then 1 else 0, 0]
  else if op = 0xA2 then [0, 1, 0, 0, 1]
  else if op = 0xA5 then [0, 3, 3, 3, 1]
  else if op = 0xA6 then (if x == 1 then [0, 1, 0, 0, 1] else [1, 3, 0, 0, 0])
  else if within [(0xC0, 0xC0), (0xC2, 0xC2), (0xC7, 0xC7)] then [1, 1, 0, 0, 2]
  else if within [(0xC1, 0xC1), (0xC3, 0xC3)] then [0, 1, 2, 0, 2]
  else if within [(0xC4, 0xC5)] then [1, 1, 2, if c == 7 then 1 else 0, 3]
  else if op = 0xC6 then [0, 1, if c == 14 then 0 else 2, if [6, 11, 13, 14].contains c then 1 else 0, 3]
  else if within [(0xE4, 0xE4), (0xE6, 0xE6)] then [0, 1, 1, 1, 2]
  else [0, 1, 2, 1, 2]

/-- The failing fields of a lane word, by R82's slots: the tables of R33, R76 to R81, R119 and R169. -/
def Claim.laneFails (word : Nat) : List (Nat × Bool) :=
  let op := bits word 95 88
  let uni := bit word 87
  let imm := bit word 86
  let (d, a, b, c) := (bits word 81 75, bits word 74 68, bits word 67 61, bits word 60 54)
  let (pd, rm, ty, x) := (bits word 53 51, bits word 50 48, bits word 47 40, bits word 39 32)
  let memory := 0xC0 ≤ op && op ≤ 0xC7
  let remote := 0xE0 ≤ op && op ≤ 0xE7
  let cmd := x / 16
  let use := Claim.laneFieldUse op ty x
  let (ud, ua, ub, uc, up) := (use.getD 0 0, use.getD 1 0, use.getD 2 0, use.getD 3 0, use.getD 4 0)
  let integer := fun (t : Nat) => 1 ≤ t && t ≤ 6
  let float := fun (t : Nat) => t == 0x10 || t == 0x11
  let beaterType := if cmd ≤ 2 then [0x01, 0x02] else if cmd ≤ 5 then [0x00] else if cmd ≤ 12 then [0x10] else [0x33]
  let orderInPd := op == 0xC4 || op == 0xC5 || op == 0xC6
  let order := if orderInPd then pd / 2 else x / 16 % 4
  let orderBad := memory && (order == 3 || (order == 2 && !(op == 0xC0 || op == 0xC4)))
  let rounding :=
    if [0x00, 0x01, 0x02, 0x04, 0x07, 0x08, 0x09].contains op then rm ≤ 1
    else if [0x40, 0x41, 0x42, 0x43].contains op && ty == 0x11 then rm == 0 || rm == 6
    else if [0x40, 0x41, 0x42, 0x43, 0x4B, 0x4C, 0x55].contains op then rm ≤ 6
    else if op == 0x53 then rm ≤ 5
    else if op == 0x80 then (if float ty then rm ≤ 6 else if float x then rm ≤ 5 else rm ≤ 1)
    else if op == 0xA3 || op == 0xA4 then (if ty == 0x10 then rm ≤ 6 else rm ≤ 1)
    else if memory then (if order == 2 then rm == 6 || (orderBad && rm ≤ 5) else rm ≤ 5)
    else rm == 0
  let level := x % 16 ≤ 2
  let exchange := ty != 0x32 || cmd == 6 || cmd == 7
  let sub :=
    if op == 0x20 then x ≤ 5 else if op == 0x48 || op == 0x21 then x ≤ 7
    else if op == 0x15 || op == 0xA5 || op == 0xE7 then true
    else if op == 0x80 then (integer x || float x) && x != ty &&
      !((ty == 5 || ty == 6) && (x == 1 || x == 2 || x == 0x10))
    else if op == 0x81 then float x else if op == 0x82 then [0x20, 0x21, 0x22, 0x23].contains x
    else if op == 0xA0 then x < 32 && x / 4 ≤ 5
    else if op == 0xA1 || op == 0xA6 then x ≤ 1 else if op == 0xA2 then x ≤ 3 else if op == 0xA7 then x ≤ 2
    else if op == 0xA3 then (if ty == 0x10 then x ≤ 2 else x ≤ 5)
    else if op == 0xA4 then x < 16 && (if ty == 0x10 then x % 8 ≤ 2 else x % 8 ≤ 5)
    else if op == 0xC0 || op == 0xC7 then x / 64 ≤ 1 else if op == 0xC1 then x / 64 == 0
    else if op == 0xC2 || op == 0xC3 then x / 64 == 0 && level
    else if op == 0xC4 then cmd ≤ 8 && exchange else if op == 0xC5 then cmd ≤ 8 && exchange && level
    else if op == 0xC6 then cmd ≤ 14 && (x % 16 == 1 || x % 16 == 2)
    else x == 0
  -- a register group out of alignment (R33), of the width that a data operand of the type has
  let group := if ty == 0x32 then 2 else if ty == 0x33 then 4 else 1
  let (wd, wa, wb, wc) :=
    if op == 0xC0 || op == 0xC2 then (group, 1, 1, 1) else if op == 0xC1 || op == 0xC3 then (1, 1, group, 1)
    else if op == 0xC4 || op == 0xC5 then (group, 1, group, group) else if op == 0xC7 then (2, 1, 1, 1)
    else if remote then (1, 2, if op == 0xE4 || op == 0xE5 || op == 0xE6 then 2 else 1, 1) else (1, 1, 1, 1)
  let field := fun (u width value : Nat) =>
    if u == 0 then value != 0 else if u == 3 then 7 < value else if u == 2 && imm then value != 0 else value < 64 && value % width != 0
  let wide := ty == 0x33 && (op == 0xC0 || op == 0xC1 || op == 0xC2 || op == 0xC3)
  if (Claim.laneTypeRows.filter fun r => r.1 ≤ op && op ≤ r.2.1).isEmpty then [(0, true)]
  else
    [ (1, !memory && !imm && word % 2 ^ 32 != 0),
      (2, !((Claim.laneTypeRows.find? fun r => r.1 ≤ op && op ≤ r.2.1).any fun r => r.2.2.contains ty) ||
        (op == 0xC6 && cmd ≤ 14 && !beaterType.contains ty)),
      (3, !rounding),
      (6, (uni && [0x23, 0xA0, 0xA4, 0xA5, 0xA6, 0xA7].contains op) || (imm && ub != 2) ||
        (imm && (ty == 0x32 || ty == 0x33) && [0xC1, 0xC3, 0xC4, 0xC5].contains op)),
      (7, !sub || (orderBad && !orderInPd)),
      (8, (up == 0 && pd != 0) || (up == 2 && 1 < pd) || (orderBad && orderInPd)),
      (9, if 64 ≤ d && ud == 1 then !uni || wide || (op == 0xC7 && d % 2 != 0) else field ud wd d),
      (10, field ua wa a),
      (11, field ub wb b || (wide && ub == 2 && !imm && 64 ≤ b)),
      (12, field uc wc c) ]

/-- ILLEGAL names the first failing field of a lane word in the order of R82's table, and a word with none is an instruction.
Where an order and a scope are each listed but do not go together, the slot is the scope's; the rounding mode of a CVT whose source
type is not accepted is judged as for integers; and an immediate of a 64- or 128-bit type is the I bit's failure (the model's choices,
log 10). -/
def Claim.LaneSlots : Prop :=
  ∀ (w slot : Nat), w < 2 ^ 96 →
    let fails := fun (n : Nat) => (n, true) ∈ Claim.laneFails w
    (decodeLane w = .error slot ↔ fails slot ∧ ∀ n, fails n → slot ≤ n) ∧
    ((∃ i, decodeLane w = .ok i) ↔ ∀ n, ¬ fails n)

/-- A lane fault stops the group at the clause position with its threads in TMASK; BAR keeps its arrival, and an instruction that has been
accepted, or that would still complete or be accepted, goes on; the waits that R255 names, SLEEP, EXIT and a fault that waits for the queue
are abandoned (R253-R255); no other register and no memory changes. -/
def Claim.LaneFault : Prop :=
  ∀ (s : State) (f : FaultInfo) (pos : Nat),
    s.laneFault f pos = { s with cur := { s.cur with
      stop := .faulted { f with lane := true } pos, tmask := f.tmask, roomWait := false, wait := s.cur.wait.kept } } ∧
    (∀ (x : Wait), (x = .batch ∨ x = .sx ∨ x = .matrix ∨ (∃ scope r, x = .bar scope r) ∨ ∃ id, x = .engine id) → x.kept = x) ∧
    ∀ (x : Wait), x ≠ .batch → x ≠ .sx → x ≠ .matrix → (∀ scope r, x ≠ .bar scope r) → (∀ id, x ≠ .engine id) → x.kept = .none

/-- A lane instruction waits, or faults with its threads and no effect, where the rules say so: the claims above together. -/
def Obligations.LaneObstaclesAndFaults : Prop :=
  Claim.LaneObstacles ∧ Claim.LaneChecks ∧ Claim.LaneSlots ∧ Claim.LaneFault

/-- The frame of the lane instructions that compute (opcodes 0x00 to 0xA7): whatever happens, memory, the s-registers but an s
destination, the v-registers but a v destination, the predicates but pd and every other piece of state stay as they are, but for what the
report of an error changes. -/
def Claim.LaneComputeFrame : Prop :=
  ∀ (s t : State) (i : Instr) (op : Nat) (w : LaneFields), laneOf i = some (op, w) → op < 0xC0 → exec i s = .next t →
    t = { s.reported t with cur := t.cur } ∧
    (∀ k, cellRead t.mem k = cellRead s.mem k) ∧
    (∀ r : Fin 64, r.val + 64 ≠ w.d.val → t.rs r = s.rs r) ∧
    (∀ r : Fin 64, r.val ≠ w.d.val → t.cur.v[r] = s.cur.v[r]) ∧
    (∀ p : Fin 8, p ≠ w.pd → t.cur.rp p = s.cur.rp p) ∧
    t.cur.b = s.cur.b ∧ t.cur.k = s.cur.k ∧ t.cur.f = s.cur.f ∧ t.cur.spc = s.cur.spc ∧ t.cur.utvec = s.cur.utvec ∧
    t.cur.uepc = s.cur.uepc ∧ t.cur.ucause = s.cur.ucause ∧ t.cur.utdata = s.cur.utdata ∧ t.cur.ih = s.cur.ih ∧
    t.cur.fpctl = s.cur.fpctl ∧ t.cur.lscale = s.cur.lscale ∧ t.cur.rsthr = s.cur.rsthr ∧ t.cur.remstat = s.cur.remstat ∧
    t.cur.cyccmp = s.cur.cyccmp ∧ t.cur.batchOpen = s.cur.batchOpen

/-- A lane compute instruction leaves every other register, the accumulators and all of memory unchanged: the claim above. -/
def Obligations.LaneComputeLeavesRest : Prop := Claim.LaneComputeFrame

/-- FENCE (R235): a scope of 6 or more is BOUNDS; it waits until the earlier clauses, lane memory instructions, copies, drains and
QTILEs of the group are done and, from cluster scope upwards, its remote operations answered; then it completes, frees the rows
that a stack core holds, and makes REMOTE_ASYNC pending where a denial is recorded. BAR (R236) beyond team scope needs a
one-stage COOP launch; it waits as a FENCE does, arrives, and completes once it is released; a group that is alone only waits. -/
def Claim.FenceAndBarrier : Prop :=
  ∀ (s : State) (c : Fin 64), s.cur.clean [c] → (∀ b ∈ s.beaterChecks, b.1 ≠ s.cur.key) →
    let scope := (s.rs c).toNat
    let l := s.launchOf s.cur
    let quiet := fun (n : Nat) => s.cur.lq = [] ∧ (∀ w ∈ s.work, w.group = s.cur.key → w.kind.fenced = false) ∧
      (2 ≤ n → s.remotePending s.cur.key = false)
    let freed := if s.cur.place.onStack then { s with rows := s.rows.filter fun r => r.core != s.cur.place.coreIx } else s
    (6 ≤ scope → exec (.fence c) s = s.raises causeBounds 12) ∧
    (scope < 6 → ¬ quiet scope → exec (.fence c) s = s.waits .fence) ∧
    (scope < 6 → quiet scope → exec (.fence c) s = s.falls { freed with cur := { s.cur with
      traps := { s.cur.traps with remote := s.cur.traps.remote || s.cur.remstat.d } } }) ∧
    (∀ n, s.cur.wait = .bar n true → exec (.bar c) s = s.falls s) ∧
    (∀ n, s.cur.wait = .bar n false → exec (.bar c) s = s.waits (.bar n false)) ∧
    ((∀ n r, s.cur.wait ≠ .bar n r) →
      (3 ≤ scope → exec (.bar c) s = s.raises causeBounds 12) ∧
      (scope = 1 ∨ scope = 2 → l.coop = false ∨ l.stages.length ≠ 1 ∨ s.alone s.cur = true →
        exec (.bar c) s = s.raises causeBarrier 12 0 (BitVec.ofNat 64 scope)) ∧
      (scope = 0 ∨ (scope < 3 ∧ l.coop = true ∧ l.stages.length = 1 ∧ s.alone s.cur = false) →
        (¬ quiet (scope + 1) → exec (.bar c) s = s.waits .barFence) ∧
        (quiet (scope + 1) → s.alone s.cur = false → exec (.bar c) s = .next (freed.waiting (.bar scope false))) ∧
        (quiet (scope + 1) → s.alone s.cur = true → exec (.bar c) s = s.falls freed)))

/-- BARRIER_RELEASE (R236): once every participant has arrived at the scope, each one that runs goes on behind its BAR and each other
completes when it runs again; before that nothing happens. No other group and no memory changes. -/
def Claim.BarrierRelease : Prop :=
  ∀ (s : State) (key scope : Nat) (g : Group), ((s.groups.filter (·.live)).map (·.key)).Nodup →
    s.group key = some g → g.wait = .bar scope false →
    let ps := s.participants g scope
    ((∃ h ∈ ps, h.wait ≠ .bar scope false) → exec (.barrierRelease key) s = .next s) ∧
    ((∀ h ∈ ps, h.wait = .bar scope false) → ∃ t, exec (.barrierRelease key) s = .next t ∧
      t = { s with cur := t.cur, others := t.others } ∧
      ∀ h ∈ s.groups, h.live = true → t.group h.key = some (
        if h ∈ ps then
          (if (s.teamOf h).status = .resident ∧ h.stop = .running then
            { h with spc := h.spc + 4, wait := .none, retired := h.retired + 1 } else { h with wait := .bar scope true })
        else h))

/-- FENCE and BAR complete or wait as stated, and a barrier releases its groups together: the claims above together. -/
def Obligations.FencesAndBarriers : Prop := Claim.FenceAndBarrier ∧ Claim.BarrierRelease

/-- Arrival words (R229-R231): ARRSET writes its value to the word at a tagged address, after the group's lane memory instructions and
once its flag has room (R14), and changes no other byte; ARRWAIT waits until the generation is 1 to 32,767 ahead of the one seen and then
gives the word. Neither takes a word on a sealed page. -/
def Claim.ArrivalWords : Prop :=
  ∀ (s t : State) (a b c : Fin 64) (fl : Fin 13) (key : Nat), s.memOk →
    let v := (s.rs b).toNat
    let d := (s.rs c).toNat
    let target := if bits v 45 23 = 0 then 2 ^ 23 else bits v 45 23
    let word := t.read key 8
    let ahead := (bits word 63 48 + 2 ^ 16 - d % 2 ^ 16) % 2 ^ 16
    (s.cur.clean [a, b] → stackLacksTag s.cur (s.rs a) = false → s.tagWord .write (s.rs a) 10 = .ok (t, key) →
      (bits v 47 46 = 3 ∨ target ≤ v % 2 ^ 23 → exec (.arrset a b fl) s = s.raises causeBounds 11) ∧
      (bits v 47 46 ≠ 3 → v % 2 ^ 23 < target → ¬ s.hasRoom fl → exec (.arrset a b fl) s = .next (t.waiting .sx)) ∧
      (bits v 47 46 ≠ 3 → v % 2 ^ 23 < target → s.hasRoom fl → s.laneQuiet = false →
        exec (.arrset a b fl) s = .next (t.waiting .clauses)) ∧
      (bits v 47 46 ≠ 3 → v % 2 ^ 23 < target → s.laneQuiet = true → s.hasRoom fl →
        s.cur.place.onStack = false → t.rowHeld s.cur.place.coreIx key = false →
        ∃ u, exec (.arrset a b fl) s = .next u ∧ u.read key 8 = v ∧
          (∀ j, j < key ∨ key + 8 ≤ j → cellRead u.mem j = cellRead s.mem j) ∧
          u.cur = { s.cur with spc := s.cur.spc + 4, wait := .none, retired := s.cur.retired + 1 })) ∧
    (s.cur.clean [b, c] → stackLacksTag s.cur (s.rs b) = false → s.tagWord .read (s.rs b) 11 = .ok (t, key) →
      (bits d 62 16 ≠ 0 → exec (.arrwait a b c) s = s.raises causeBounds 12) ∧
      ∀ u : State, bits d 62 16 = 0 → t.reachKey (.arrwait (2 ^ 63 ≤ d)) key = .ok u →
        (1 ≤ ahead ∧ ahead ≤ 32767 → exec (.arrwait a b c) s = s.falls (u.ws a (BitVec.ofNat 64 word))) ∧
        (ahead = 0 ∨ 32767 < ahead → exec (.arrwait a b c) s = .next (u.waiting (.arrwait (2 ^ 63 ≤ d))))) ∧
    ∀ (k : Machine.Acc) (x : Word) (l : Tlb), x.toNat < 2 ^ 57 → x.toNat % 8 = 0 → s.line k x.toNat 10 = .ok (t, l) →
      (s.launchOf s.cur).ctx = l.ctx → t.translate s.cur.place.die l.ctx x.toNat = .leaf l → l.sealed = true →
        s.tagWord k x 10 = .error (namedAt causeSealed 10 x k.code)

/-- WAITA (R237): with a canonical, aligned address homed on its die or at the host and a legal condition, it gives the value that meets
the condition, and otherwise waits: by an entry of the wait table of the word's home slice while fewer than 256 are in use and the page is
the device's, else by reading again after 512 cycles and then at doubling intervals up to 65,536. A wake and a poll let it read again. -/
def Claim.AddressWaits : Prop :=
  ∀ (s t : State) (a b : Fin 64) (c : Fin 32) (l : Tlb), s.cur.clean [b, pairLo c, pairHi c] →
    let va := (s.rs b).toNat
    let d := (s.rs (pairLo c)).toNat
    let n := if bit d 4 then 8 else 4
    let x : WaitEntry :=
      { key := l.key va, w64 := bit d 4, mask := if bits d 47 16 = 0 then 2 ^ 32 - 1 else bits d 47 16, cmp := d % 8
        e := if bit d 4 then (s.rs (pairHi c)).toNat else (s.rs (pairHi c)).toNat % 2 ^ 32 }
    (2 ^ 57 ≤ va → exec (.waita a b c) s = s.raises causeProt 11 (s.rs b)) ∧
    (va < 2 ^ 57 → va % n ≠ 0 → exec (.waita a b c) s = s.raises causeAlign 11 (s.rs b)) ∧
    (va < 2 ^ 57 → va % n = 0 → s.line .read va 11 = .ok (t, l) →
      (l.hm = false → l.pa / 2 ^ 37 ≠ s.cur.place.die → exec (.waita a b c) s = s.raises causeRemoteLocal 11 (s.rs b)) ∧
      (l.hm = true ∨ l.pa / 2 ^ 37 = s.cur.place.die →
        (waitaBad d = true → exec (.waita a b c) s = s.raises causeBounds 12) ∧
        (∀ r : State, waitaBad d = false → t.reachKey s.cur.wait.again (l.key va) = .ok r →
          (x.holds t = true → exec (.waita a b c) s = s.falls (r.ws a (BitVec.ofNat 64 (x.value t)))) ∧
          (x.holds t = false → (∀ e i p g u, s.cur.wait ≠ .waita e i p g u) →
            exec (.waita a b c) s = .next (r.waiting
              (if l.hm = false ∧ t.waitEntries (frameStack (l.key va)) < 256 then .waita (bit d 63) (some x) 0 0 false
               else .waita (bit d 63) none (s.now + 512) 1024 false))) ∧
          (∀ e y p g u, x.holds t = false → s.cur.wait = .waita e (some y) p g u →
            exec (.waita a b c) s = .next (r.waiting (.waita e (some x) p g false))) ∧
          (∀ e p g u, x.holds t = false → s.cur.wait = .waita e none p g u →
            exec (.waita a b c) s = .next (r.waiting (.waita e none (s.now + g) (min (2 * g) 65536) false)))))) ∧
    ∀ (key p gap : Nat) (e : Bool) (y : WaitEntry), s.cur.live = true → s.cur.key = key →
      (∀ o ∈ s.others, o.live = true → o.key ≠ key) →
      (s.cur.wait = .waita e (some y) p gap false →
        exec (.waitaWake key) s = .next (if y.holds s then s.waiting (.waita e (some y) p gap true) else s)) ∧
      (s.cur.wait = .waita e none p gap false →
        exec (.waitaPoll key) s = .next (if p ≤ s.now then s.waiting (.waita e none p gap true) else s))

/-- What a wait on an address compares (R237): the 64-bit word, or the 32-bit word under its mask, equal, unequal, and below or not
below signed and unsigned. -/
def Claim.WaitConditions : Prop :=
  ∀ (s : State) (x : WaitEntry), x.e < 2 ^ (if x.w64 then 64 else 32) →
    let n := if x.w64 then 64 else 32
    let v := if x.w64 then s.read x.key 8 else s.read x.key 4 &&& x.mask
    let sv := fun (y : Nat) => if y < 2 ^ (n - 1) then (y : Int) else (y : Int) - 2 ^ n
    x.holds s = true ↔ (x.cmp = 0 ∧ v = x.e) ∨ (x.cmp = 1 ∧ v ≠ x.e) ∨ (x.cmp = 2 ∧ sv v < sv x.e) ∨ (x.cmp = 3 ∧ sv x.e ≤ sv v) ∨
      (x.cmp = 4 ∧ v < x.e) ∨ (5 ≤ x.cmp ∧ x.e ≤ v)

/-- Arrival words are set, counted and waited on, and WAITA ends on its condition: the claims above together. -/
def Obligations.ArrivalWordsAndWaits : Prop := Claim.ArrivalWords ∧ Claim.AddressWaits ∧ Claim.WaitConditions

/-- The stage queues (R238, R239): QTAKE takes a token of the queue on the group's die, of several the one that has waited longest (log 60,
DESIGN CHOICE: R238 promises no order); bit 63 alone once the queue is closed
and empty, and otherwise waits; QEMIT appends a token below 2^63 while the queue is below its depth and the group's own memory
instructions are done; QDONE declares the group done with it. Another stage's group, or a queue that is not there, is BOUNDS, and
a stack core lacks all three. -/
def Claim.StageQueues : Prop :=
  ∀ (s : State) (a b c : Fin 64), s.cur.clean [b, c] → s.cur.place.onStack = false →
    let q := (s.rs b).toNat
    let l := s.launchOf s.cur
    let die := s.cur.place.die
    let x := l.queueAt die q
    let mine := fun (n : Nat) => q < 8 ∧ q + 1 < l.stages.length ∧ (s.teamOf s.cur).nmrun = false ∧ (s.teamOf s.cur).stage = q + n
    let put := fun (ts : List Word) => s.updLaunch l.key fun k => k.setQueue { x with tokens := ts }
    (¬ mine 1 → exec (.qtake a b) s = s.raises causeBounds 11) ∧
    (mine 1 → (∀ t r, x.tokens = t :: r → exec (.qtake a b) s = s.falls ((put r).ws a t)) ∧
      (x.tokens = [] → s.queueClosed l die q = true → exec (.qtake a b) s = s.sets a (BitVec.ofNat 64 (2 ^ 63))) ∧
      (x.tokens = [] → s.queueClosed l die q = false → exec (.qtake a b) s = s.waits .qtake)) ∧
    (¬ mine 0 → exec (.qemit b c) s = s.raises causeBounds 11 ∧ exec (.qdone b) s = s.raises causeBounds 11) ∧
    (mine 0 →
      (2 ^ 63 ≤ (s.rs c).toNat → exec (.qemit b c) s = s.raises causeBounds 12) ∧
      ((s.rs c).toNat < 2 ^ 63 → q ∈ s.cur.done → exec (.qemit b c) s = s.raises causeBounds 11) ∧
      ((s.rs c).toNat < 2 ^ 63 → q ∉ s.cur.done →
        (s.laneQuiet = true → x.tokens.length < l.depth q → exec (.qemit b c) s = s.falls (put (x.tokens ++ [s.rs c]))) ∧
        (s.laneQuiet = false ∨ l.depth q ≤ x.tokens.length → exec (.qemit b c) s = s.waits .qemit)) ∧
      ∃ ds, exec (.qdone b) s = s.falls (s.setCur { s.cur with done := ds }) ∧ ∀ n, n ∈ ds ↔ n = q ∨ n ∈ s.cur.done) ∧
    ((∀ t r, x.tokens = t :: r → ∀ k : Launch, (k.setQueue { x with tokens := r }).queueAt die q = { x with tokens := r }) ∧
      ∀ (k : Launch) (y : StageQueue) (e n : Nat), (e, n) ≠ (y.die, y.q) → (k.setQueue y).queueAt e n = k.queueAt e n)

/-- QTAKE takes a token, QEMIT adds one and QDONE records that the group is done with a stage queue: the claim above. -/
def Obligations.StageQueuesMoveTiles : Prop := Claim.StageQueues

/-- The matrix instructions without an operand in memory (R187, R193, R195, R196, R201, R205, R348): every matrix instruction takes
the return trap on a stack core, raises MXPAIR where the array is not the team's, and stalls while it is slaved; MXSHAPE writes a
shape record unchecked; MXZERO opens a bank, on the partner too for a pair; MXSWAP on an idle pair exchanges the banks at once, on
the partner too where the bank carries the pair link, and is MXFMT with nothing loaded or loading; MXSTAT gives the status. -/
def Claim.MatrixControl : Prop :=
  ∀ (s : State) (a b c : Fin 64) (fl : Fin 13), s.cur.clean [a, b, c] →
    let ix := s.cur.place.coreIx
    let x := (s.rs c).toNat
    let me := s.core ix
    let bank : Fin 2 := if x % 2 = 1 then 1 else 0
    let pair := 2 ≤ x
    let busy := fun (core : Nat) => ∃ w ∈ s.work, w.kind.mulOn core bank = true
    let opened : Bank := { isOpen := true, paired := decide pair, lead := ix }
    let up := s.standby ix
    let loading := ∃ w ∈ s.work, w.kind.loads ix up = true
    (∀ i ∈ [Instr.mxshape a b c, .mxldw a b c fl, .mxswap fl, .mxzero c, .mxmul a b c fl, .mxdrain a b c fl, .mxstat a],
      (s.cur.place.onStack = true → s.cur.lq = [] → exec i s = .next (s.setCur { s.cur with stop := .returned, wait := .none })) ∧
      (s.cur.place.onStack = false → ix ∉ (s.teamOf s.cur).arrays → exec i s = s.raises causeMxpair 0) ∧
      (s.cur.place.onStack = false → ix ∈ (s.teamOf s.cur).arrays → s.slaved ix = true ∨ s.streamTaken = true →
        exec i s = s.waits .sx)) ∧
    (s.arrayGood →
      (∀ k : Fin 8, (s.rs a).toNat = k.val →
        exec (.mxshape a b c) s = s.falls (s.setCur { s.cur with
          k := s.cur.k.set k (s.rs c ++ s.rs b), poisonS := s.cur.poisonS.filter (fun e => e.1 != 96 + k.val)
          softReg := s.cur.softReg.filter (fun e => e.1 != 160 + k.val) })) ∧
      (8 ≤ (s.rs a).toNat → exec (.mxshape a b c) s = s.raises causeMxfmt 10) ∧
      (4 ≤ x → exec (.mxzero c) s = s.raises causeMxfmt 12) ∧
      (x < 4 → pair → ¬ s.pairGood → exec (.mxzero c) s = s.raises causeMxpair 12) ∧
      (x < 4 → (pair → s.pairGood) →
        (busy ix ∨ (pair ∧ busy (partnerOf ix)) → exec (.mxzero c) s = s.waits .matrix) ∧
        (¬ (busy ix ∨ (pair ∧ busy (partnerOf ix))) → ∃ t : State, t = { s with cores := t.cores } ∧ exec (.mxzero c) s = s.falls t ∧
          t.core ix = { me with a := me.a.set bank opened } ∧
          (t.core (partnerOf ix)).a[bank] =
            (if pair then opened else if me.a[bank].paired then {} else (s.core (partnerOf ix)).a[bank]) ∧
          ∀ n, n ≠ ix → n ≠ partnerOf ix → t.core n = s.core n)) ∧
      (me.w[up].loaded = false → ¬ loading → exec (.mxswap fl) s = s.raises causeMxfmt 0) ∧
      (me.w[up].loaded = true ∨ loading → s.hasRoom fl →
        ((∃ w ∈ s.work, w.id < s.nextId ∧ w.kind.arrayOf = some ix ∧ w.kind.isSwap = false) →
          (∀ w ∈ s.work, w.kind.isSwap = false) →
          s.accepts fl (.swap ix (s.linked ix up)) (exec (.mxswap fl) s)) ∧
        ((∀ w ∈ s.work, w.kind.arrayOf ≠ some ix ∧ w.kind.arrayOf ≠ some (partnerOf ix)) → s.cur.live = true →
          (∀ n, s.cur.wait ≠ .engine n) →
          ∃ t, exec (.mxswap fl) s = .next t ∧ t.core ix = { me with act := 1 - me.act } ∧ t.mem = s.mem ∧
            t.work = s.work.filter (fun y => y.id != s.nextId) ∧
            t.core (partnerOf ix) = (let d := s.core (partnerOf ix); if me.w[1 - me.act].link then { d with act := 1 - d.act } else d) ∧
            t.cur = { s.cur with spc := s.cur.spc + 4, wait := .none, retired := s.cur.retired + 1 }))) ∧
    (s.arrayGood → ∃ r, exec (.mxstat a) s = s.sets a r ∧
      (me.a[0].steps < 2 ^ 25 → me.a[1].steps < 2 ^ 25 →
        bits r.toNat 32 8 = me.a[0].steps ∧ bits r.toNat 57 33 = me.a[1].steps ∧ r.getLsbD 0 = me.a[0].isOpen ∧
        r.getLsbD 1 = me.a[1].isOpen ∧ r.getLsbD 2 = false ∧ r.getLsbD 3 = decide (me.act = 1) ∧ r.getLsbD 4 = me.w[me.act].loaded ∧
        r.getLsbD 5 = me.w[1 - me.act].loaded ∧ r.getLsbD 6 = me.w[1 - me.act].link ∧ r.getLsbD 7 = false ∧
        r.getLsbD 58 = (me.a[0].isOpen && me.a[0].paired) ∧ r.getLsbD 59 = (me.a[1].isOpen && me.a[1].paired) ∧ r.toNat < 2 ^ 60))

/-- MXLDW (R194): descriptor bits [63:33] not zero, no rows, rows past the block or past 512 KiB, or a misaligned scale vector are
MXFMT; a pair without the partner MXPAIR; otherwise the load of the standby bank is accepted, with the rows FIRST to FIRST + rows - 1
of the block as its source. WEIGHT_LOAD_COMPLETE fills the bank with exactly those bytes, and the partner's standby bank for a pair,
once the earlier swaps, loads and reads of the bank are done. -/
def Claim.WeightLoads : Prop :=
  ∀ (s : State) (a b c : Fin 64) (fl : Fin 13),
    let ix := s.cur.place.coreIx
    let d := (s.rs b).toNat
    let first := d % 2 ^ 16
    let count := d / 2 ^ 16 % 2 ^ 16
    let pair := d.testBit 32
    (s.cur.clean [a, b, c] → s.arrayGood →
      (2 ^ 33 ≤ d → exec (.mxldw a b c fl) s = s.raises causeMxfmt 11) ∧
      ∀ (s1 s2 s3 : State) (t tc : Tagged) (h : BlockHead) (p q : Bool) (v : ScaleVec) (runs : List (List (List Run))),
        let rows := if count = 0 then h.rows - first else count
        let new : WBank := { loaded := true, fmt := h.fmt, z := h.z, rows := rows, cols := h.cols, pitch := h.pitch, scales := v.vals,
                             orient := v.orient, link := pair, poison := p || q }
        d < 2 ^ 33 → s.readHead (s.rs a) 10 = .ok (s1, t, h, p) →
        (rows = 0 ∨ h.rows < first + rows ∨ 2 ^ 19 < rows * h.pitch → exec (.mxldw a b c fl) s = s.raises causeMxfmt 11) ∧
        (rows ≠ 0 → first + rows ≤ h.rows → rows * h.pitch ≤ 2 ^ 19 →
          ((s.rs c).toNat % 8 ≠ 0 → exec (.mxldw a b c fl) s = s.raises causeMxfmt 12 (s.rs c)) ∧
          ((s.rs c).toNat % 8 = 0 → taggedOf .read (s.rs c) 12 = .ok tc →
            s1.readScales 12 tc 0 (fun o => if o then (h.cols + 31) / 32 else (rows + 31) / 32) = .ok (s2, v, q) →
            (pair = true → ¬ s.pairGood → exec (.mxldw a b c fl) s = s.raises causeMxpair 11) ∧
            ((pair = true → s.pairGood) → s.hasRoom fl →
              s2.sides [{ acc := .read, slot := 10, tag := t, pieces := [(h.off + first * h.pitch, rows * h.pitch)] }] = .ok (s3, runs) →
              ∃ u, exec (.mxldw a b c fl) s = .next u ∧ u.mem = s.mem ∧ u.cores = s.cores ∧ u.cur = s.cur.accepted fl ∧
                u.work = s.work ++ [s.newWork fl (.weight ix (s.standby ix) (s.standby (partnerOf ix)) new
                  (runs.flatten.flatten.map fun r => (r.2.1, r.2.2)) pair)])))) ∧
    ∀ (w : Work) (core : Nat) (bank pbank : Fin 2) (new : WBank) (src : List (Nat × Nat)) (pair : Bool),
      let first := fun (n : Nat) (b : Fin 2) => ∀ y ∈ s.work, y.id < w.id → y.kind.inStream n = true →
        y.kind.isSwap = false ∧ y.kind.readsWeights n b = false ∧ y.kind.loads n b = false
      s.findWork w.id = some w → w.kind = .weight core bank pbank new src pair →
      (¬ first core bank ∨ (pair = true ∧ ¬ first (partnerOf core) pbank) → exec (.weightLoadComplete w.id) s = .next s) ∧
      (first core bank → (pair = true → first (partnerOf core) pbank) → (∀ r ∈ src, s.runHeld core r.1 r.2 = false) →
        ∃ t, exec (.weightLoadComplete w.id) s = .next t ∧ t.mem = s.mem ∧ (∀ y ∈ t.work, y.id ≠ w.id) ∧
          (∃ z, (t.core core).w[bank] =
            { new with data := src.flatMap fun r => readCells s.mem r.1 r.2, poison := z } ∧
            (z = true ↔ new.poison = true ∨ ∃ r ∈ src, s.poisonedAt r.1 r.2 = true) ∧
            (pair = true → (t.core (partnerOf core)).w[pbank] = (t.core core).w[bank])) ∧
          (t.core core).w[1 - bank] = (s.core core).w[1 - bank] ∧ (t.core core).a = (s.core core).a ∧
          ((∀ y ∈ s.work, y.kind.isSwap = false) → t.cur = (s.finishWork w).cur ∧ t.others = (s.finishWork w).others))

/-- Matrix shape, zero, swap and status instructions, and the loading of weights: the claims above together. -/
def Obligations.MatrixShapesAndWeights : Prop := Claim.MatrixControl ∧ Claim.WeightLoads

/-- MXMUL (R197-R200): with a valid shape record, an open chain of the same pairing, a loaded active bank, a streamed block of the
descriptor's format, K and edge ranges inside both operands, scales constant along K and equal to the chain's, and at most 2^24
steps, it is accepted; the chain then has its shape and scales latched and K more steps, and no memory changes. A chain of which a
bank, or its partner's bank, is poisoned is CHECK, an invalid record or a closed bank MXFMT, another pairing MXPAIR. For a pair the
active banks of both cores must be linked: the partner's is the model's choice (log 58, DESIGN CHOICE). -/
def Claim.MatrixMultiply : Prop :=
  ∀ (s s1 s2 s3 : State) (a b c : Fin 64) (fl : Fin 13) (kn : Fin 8) (h : Shape) (t : Tagged) (hd : BlockHead) (p q : Bool)
    (sv : ScaleVec) (runs : List (List (List Run))), s.cur.clean [a, b, c] → s.arrayGood →
    let ix := s.cur.place.coreIx
    let pix := partnerOf ix
    let db := (s.rs b).toNat
    let dc := (s.rs c).toNat
    let bank : Fin 2 := if db.testBit 3 then 1 else 0
    let chain := (s.core ix).a[bank]
    let koff := bits db 31 16
    let skoff := bits dc 31 16
    let seoff := bits dc 47 32
    let act := (s.core ix).act
    let pact := (s.core pix).act
    let zeros := bits db 63 32 = 0 ∧ bits db 15 4 = 0 ∧ bits dc 63 48 = 0 ∧ bits dc 15 8 = 0
    let swapping := fun (n : Nat) (x : Fin 2) =>
      ∃ w ∈ s.work, (w.kind.isSwap = true ∧ w.kind.inStream n = true) ∨ w.kind.loads n x = true
    let bad := chain.poison = true ∨ (chain.paired = true ∧ (s.core pix).a[bank].poison = true)
    db % 8 = kn.val → s.cur.cleanOther [96 + kn.val] → s.cur.lq = [] →
    (chain.isOpen = true → bad → ∃ u, exec (.mxmul a b c fl) s = .next u ∧ u.cores = s.cores ∧ u.mem = s.mem ∧
      ∃ d, u.cur.stop = .faulted { cause := causeCheck, hw := true, detail := d } 0) ∧
    ((chain.isOpen = true → ¬ bad) →
      (¬ zeros ∨ parseShape s.cur.k[kn].toNat = none → exec (.mxmul a b c fl) s = s.raises causeMxfmt 11) ∧
      (zeros → parseShape s.cur.k[kn].toNat = some h →
        (chain.isOpen = false → exec (.mxmul a b c fl) s = s.raises causeMxfmt 11) ∧
        (chain.isOpen = true → h.pair ≠ chain.paired ∨ (chain.paired = true ∧ ¬ (chain.lead = ix ∧ s.pairGood)) →
          exec (.mxmul a b c fl) s = s.raises causeMxpair 11) ∧
        (chain.isOpen = true → h.pair = chain.paired → (chain.paired = true → chain.lead = ix ∧ s.pairGood) →
          (swapping ix act ∨ (h.pair = true ∧ swapping pix pact) → exec (.mxmul a b c fl) s = s.waits .matrix) ∧
          (¬ (swapping ix act ∨ (h.pair = true ∧ swapping pix pact)) →
            let parts := residentParts s ix h
            let vec := fun (w : WBank) => ({ orient := w.orient, vals := w.scales } : ScaleVec)
            let sedge := if h.west then h.n else h.m
            let rsc := parts.flatMap fun x => (List.range x.2.2.2).map fun i => (vec x.2.1).at (!h.order) (x.2.2.1 + i)
            let ssc := (List.range sedge).map fun i => sv.at h.west (seoff + i)
            let lat : Latch := { m := h.m, n := h.n, rows := if h.west then rsc else ssc, cols := if h.west then ssc else rsc }
            let r0 := if h.west then skoff else seoff
            let nr := if h.west then h.k else h.m
            (s.core ix).w[act].loaded = true → (h.pair = true → (s.core ix).w[act].link = true ∧ (s.core pix).w[pact].link = true) →
            (∀ l, chain.latch = some l → l = lat) →
            s.readHead (s.rs a) 10 = .ok (s1, t, hd, p) → hd.fmt = dc % 2 ^ 8 → hd.z = false →
            s1.readScales 10 t 64 (fun o => if o then (hd.cols + 31) / 32 else (hd.rows + 31) / 32) = .ok (s2, sv, q) →
            (∀ x ∈ parts, koff + h.k ≤ (if h.order then x.2.1.cols else x.2.1.rows) ∧
              x.2.2.1 + x.2.2.2 ≤ (if h.order then x.2.1.rows else x.2.1.cols) ∧ (vec x.2.1).constAlong (!h.order) = true) →
            skoff + h.k ≤ (if h.west then hd.rows else hd.cols) → seoff + sedge ≤ (if h.west then hd.cols else hd.rows) →
            sv.constAlong h.west = true → chain.steps + h.k ≤ 2 ^ 24 → s.hasRoom fl →
            s2.sides [{ acc := .read, slot := 10, tag := t, pieces := [(hd.off + r0 * hd.pitch, nr * hd.pitch)] }] = .ok (s3, runs) →
            ∃ u, exec (.mxmul a b c fl) s = .next u ∧ u.mem = s.mem ∧ u.cur = s.cur.accepted fl ∧
              u.work = s.work ++ [s.newWork fl (.mxmul ix bank h.pair h.m h.n h.k h.eoff koff seoff skoff h.west h.order act hd.fmt
                hd.pitch (runs.flatten.flatten.map fun r => (r.2.1, r.2.2)))] ∧
              (u.core ix).a[bank] = { chain with latch := some lat, steps := chain.steps + h.k, poison := p || q } ∧
              (h.pair = true → (u.core pix).a[bank] = { (s.core pix).a[bank] with
                latch := some lat, steps := (s.core pix).a[bank].steps + h.k, poison := (s.core pix).a[bank].poison || p || q })))))

/-- MXMUL_COMPLETE (R199, R377), after the earlier MXMULs on the bank: each of the M × N cells has in every channel the sum of the K
products of its operands added, the others keep theirs; the follower's bank takes the columns from 256 on; poisoned operands poison
the bank, and crossing a multiple of 2^23 steps makes its check due. -/
def Claim.MatrixProducts : Prop :=
  ∀ (s : State) (w : Work) (core : Nat) (bank wb : Fin 2) (pair west order : Bool) (m n k eoff koff seoff skoff fmt pitch : Nat)
    (rows : List (Nat × Nat)),
    let nr := if west then k else m
    let str := (splitRows pitch nr (rows.flatMap fun r => readCells s.mem r.1 r.2)).map
      (rowOperands fmt false (if west then seoff + n else skoff + k))
    let res := fun (c : Nat) =>
      let x := (s.core c).w[if c = core then wb else (s.core c).act]
      (splitRows x.pitch x.rows x.data).map (rowOperands x.fmt x.z x.cols)
    let resident := fun (c e st : Nat) => if order then elemAt (res c) (eoff + e) (koff + st) else elemAt (res c) (koff + st) (eoff + e)
    let product := fun (c i j st : Nat) =>
      if west then resident core i st * elemAt str st (seoff + j) else elemAt str i (skoff + st) * resident c j st
    let sum := fun (c i j : Nat) => ((List.range k).map fun st => product c i j st).sum
    let pix := partnerOf core
    s.findWork w.id = some w →
    w.kind = .mxmul core bank pair m n k eoff koff seoff skoff west order wb fmt pitch rows →
    ((∃ y ∈ s.work, y.id < w.id ∧ y.kind.mulOn core bank = true) → exec (.mxmulComplete w.id) s = .next s) ∧
    ((∀ y ∈ s.work, y.id < w.id → y.kind.mulOn core bank = false) → (∀ r ∈ rows, s.runHeld core r.1 r.2 = false) →
      ∃ t, exec (.mxmulComplete w.id) s = .next t ∧ t.mem = s.mem ∧ (∀ y ∈ t.work, y.id ≠ w.id) ∧
        let old := (s.core core).a[bank]
        let new := (t.core core).a[bank]
        new.latch = old.latch ∧ new.steps = old.steps ∧ new.isOpen = old.isOpen ∧ (t.core core).w = (s.core core).w ∧
        (∀ i j, i < m → j < min n 256 → new.cell i j = (old.cell i j).add (sum core i j)) ∧
        (∀ i j, ¬ (i < m ∧ j < min n 256) → new.cell i j = old.cell i j) ∧
        ((∀ r ∈ rows, s.poisonedAt r.1 r.2 = false) → (s.core core).w[wb].poison = false → pair = false → new.poison = old.poison) ∧
        ((∃ r ∈ rows, s.poisonedAt r.1 r.2 = true) → new.poison = true) ∧
        (pair = true → ∀ i j, i < m → 256 ≤ j → j < n →
          ((t.core pix).a[bank]).cell i (j - 256) = ((s.core pix).a[bank].cell i (j - 256)).add (sum pix i j)) ∧
        ((∀ y ∈ s.work, y.id ≤ w.id) → (new.due = true ↔ old.due = true ∨ (old.steps - k) / 2 ^ 23 ≠ old.steps / 2 ^ 23)))

/-- A cell's three channels give back its sum, and its check residue agrees, for every sum of less than 70,365,522,984,960 in magnitude
(R51, R53): a cell that holds the residues of x reads as x, with the all-ones residues counting as zero, and adding a product p makes
it hold those of x + p. -/
def Claim.AccumulatorCells : Prop :=
  (∀ (c : Cell) (x : Int), -70365522984960 ≤ x → x < 70365522984960 → (c.a : Int) % 65535 = x % 65535 → c.a ≤ 65535 →
    (c.b : Int) = x % 65536 → (c.c : Int) % 32767 = x % 32767 → c.c ≤ 32767 → (c.k : Int) = x % 251 → c.sum = (x, true)) ∧
  ∀ (c : Cell) (x p : Int), (c.a : Int) % 65535 = x % 65535 → (c.b : Int) % 65536 = x % 65536 → (c.c : Int) % 32767 = x % 32767 →
    (c.k : Int) % 251 = x % 251 →
    let d := c.add p
    (d.a : Int) = (x + p) % 65535 ∧ (d.b : Int) = (x + p) % 65536 ∧ (d.c : Int) = (x + p) % 32767 ∧ (d.k : Int) = (x + p) % 251 ∧
      d.row = c.row ∧ d.col = c.col

/-- The operands of a row of a block (R46, R50, R189): in a dense row, element i is the code at bits n i of the row; in a zero-run row each group
of 32 elements begins with its 4-byte bitmap, whose set bits take the codes that follow in order, a clear one or an overrun being zero, and
the next group begins at the next whole byte. A code is sign-extended, the most negative one standing for the negative of the largest. -/
def Claim.RowOperands : Prop :=
  ∀ (fmt n cols : Nat) (row : List Byte), (fmt, n) ∈ [(0x20, 4), (0x21, 6), (0x22, 8), (0x23, 12)] →
    let value := fun (x : Nat) => if x < 2 ^ (n - 1) then (x : Int) else if x = 2 ^ (n - 1) then 1 - 2 ^ (n - 1) else x - 2 ^ n
    let code := fun (bs : List Byte) (i : Nat) => value (ofLeBytes bs / 2 ^ (n * i) % 2 ^ n)
    let map := if 4 ≤ row.length then ofLeBytes (row.take 4) else 0
    let rest := row.drop 4
    let before := fun (i : Nat) => ((List.range i).filter fun j => map.testBit j).length
    (rowOperands fmt false cols row).length = cols ∧ (rowOperands fmt true cols row).length = cols ∧
    (∀ i < cols, (rowOperands fmt false cols row)[i]? = some (code row i)) ∧
    (∀ i < min cols 32, (rowOperands fmt true cols row)[i]? =
      some (if map.testBit i = true ∧ (before i + 1) * n ≤ 8 * rest.length then code rest (before i) else 0)) ∧
    (32 < cols → (rowOperands fmt true cols row).drop 32 = rowOperands fmt true (cols - 32) (rest.drop ((before 32 * n + 7) / 8)))

/-- A matrix multiply adds the exact products to the accumulators in the stated order: the claims above together. -/
def Obligations.MatrixMultiplyAccumulates : Prop := Claim.MatrixMultiply ∧ Claim.MatrixProducts ∧ Claim.RowOperands ∧
  Claim.AccumulatorCells

/-- MXDRAIN (R202-R204, R208) with a good descriptor: while an MXMUL into the bank is unfinished it waits; a cell whose check residue
disagrees, or a poisoned bank of the chain, is CHECK with the bank as it was; otherwise the bank is idle at once and the work holds each row's bytes,
element (i, j) being the cell's sum times its row and column scales in the form asked for (DrainResults); the stream goes on, or waits while
the rescale trap is armed for a requantised drain; that the trap is raised by what was kept at the acceptance is log 43 (DEDUCED). DRAIN_COMPLETE writes exactly those rows, raises NFFLAG and clears the flag. -/
def Claim.MatrixDrain : Prop :=
  ∀ (s u : State) (a b c : Fin 64) (fl : Fin 13) (bank : Fin 2) (l : Latch) (t : Tagged) (ls : Nat × Int)
    (runs : List (List (List Run))),
    let ix := s.cur.place.coreIx
    let d := (s.rs b).toNat
    let sout := (s.rs c).toNat
    let x := parseDrain d
    let chain := (s.core ix).a[bank]
    let part := (s.core (partnerOf ix)).a[bank]
    let ctx := (s.launchOf s.cur).ctx
    let sum := fun (i j : Nat) => if j < 256 then (chain.cell i j).sum.1 else (part.cell i (j - 256)).sum.1
    let scale := fun (r : List (BitVec 16)) (i : Nat) => (r[i]?.getD 0x3F80).toNat
    let outs := (List.range l.m).map fun i => (List.range l.n).map fun j =>
      drainElem x sout ls (scale l.rows i) (scale l.cols j) (sum i j)
    let rows := (List.zip (runs.headD []) outs).flatMap fun q => layRuns q.1 (drainBytes x (q.2.map (·.1)))
    let nf := if x.form ≤ 1 then outs.flatten.foldl (fun z o => z ||| nfOf f32 o.2.1) 0 else 0
    let sat := outs.flatten.foldl (fun z o => z + o.2.2) 0
    let armed := x.form = 2 ∧ s.cur.rsthr.getLsbD 63 = true
    let bad := chain.poison = true ∨ (chain.paired = true ∧ part.poison = true) ∨ (s.mismatch ix bank).isSome = true
    (s.cur.clean [a, b, c] → s.arrayGood → bank = x.bank → (s.rs a).toNat % 16 = 0 → chain.isOpen = true → chain.latch = some l →
      drainBad d x l.n = false → (x.form = 2 → sout < 2 ^ 16 ∧ scaleBad sout = false) → (x.form ≠ 2 → sout = 0) →
      x.pair = chain.paired → chain.lead = ix → (if x.ls then normalF32 s.cur.lscale.toNat = some ls else ls = (1, 0)) →
      (x.wmen = true → s.boundId ix ctx x.slot ≠ 0) → taggedOf .write (s.rs a) 10 = .ok t →
      s.sides [{ acc := .write, slot := 10, tag := t, pieces := tileRows l.m (x.rowBytes l.n) x.pitch }] = .ok (u, runs) →
      ((∃ w ∈ s.work, w.kind.mulOn ix bank = true) → exec (.mxdrain a b c fl) s = .next (u.waiting .matrix)) ∧
      ((∀ w ∈ s.work, w.kind.mulOn ix bank = false) →
        (bad → s.cur.lq = [] → ∃ v, exec (.mxdrain a b c fl) s = .next v ∧
          v.cores = s.cores ∧ v.mem = s.mem ∧ v.work = s.work ∧
          v.cur.stop = .faulted { bankCheck bank (s.mismatch ix bank) with lane := false, tmask := 0xFFFFFFFF } 0) ∧
        (¬ bad → s.hasRoom fl → ∃ v, exec (.mxdrain a b c fl) s = .next v ∧
          v.mem = s.mem ∧ (v.core ix).a[bank] = {} ∧ (chain.paired = true → (v.core (partnerOf ix)).a[bank] = {}) ∧
          v.work = s.work ++ [s.newWork fl (.drain rows nf sat (decide armed))] ∧
          v.cur = if armed then { s.cur with f := s.cur.raised fl, wait := .engine s.nextId } else s.cur.accepted fl))) ∧
    ∀ (w : Work) (ws : List (Nat × List Byte)) (nf : BitVec 4) (sat : Nat) (armed : Bool), s.memOk → s.findWork w.id = some w →
      w.kind = .drain ws nf sat armed →
      (∀ r ∈ ws, s.runHeld ((s.group w.group).getD {}).place.coreIx r.1 r.2.length = false) →
      (ws.Pairwise fun q r => q.1 + q.2.length ≤ r.1 ∨ r.1 + r.2.length ≤ q.1) →
      ∃ t, exec (.drainComplete w.id) s = .next t ∧ t.work = s.work.filter (fun y => y.id != w.id) ∧ t.cores = s.cores ∧
        (∀ r ∈ ws, ∀ i, (h : i < r.2.length) → cellRead t.mem (r.1 + i) = r.2[i]) ∧
        (∀ j, (∀ r ∈ ws, j < r.1 ∨ r.1 + r.2.length ≤ j) → cellRead t.mem j = cellRead s.mem j) ∧
        ∀ g, s.cur = g → g.live = true → g.key = w.group →
          t.cur = (((s.finishWork w).cur.raiseStatus 0 nf).saturated armed sat)

/-- What a drain makes of a sum x (R54), the product v of x, its row's scale, its column's and the loss scale being exact: FP32 and BF16 of v
rounded once to the nearest, ties to even; a Q code, the quotient of v by the output scale rounded so and clamped to the largest produced
code, with one saturation for a clamp; or x itself. A watermark slot is given the FP32 value, the BF16 value widened, or for a code v
rounded to FP32. -/
def Claim.DrainResults : Prop :=
  ∀ (d : DrainDesc) (sout sr sc : Nat) (ls : Nat × Int) (x : Int), 0 < ls.1 →
    let worth := fun (r : Nat) => ((128 + r % 128 : Nat) : ℚ) * 2 ^ (((r / 128 % 256 : Nat) : Int) - 134)
    let v : ℚ := x * worth sr * worth sc * (ls.1 * 2 ^ ls.2)
    let y := drainElem d sout ls sr sc x
    let qmax := 2 ^ ((if d.qfmt = 0x20 then 4 else if d.qfmt = 0x21 then 6 else if d.qfmt = 0x22 then 8 else 12) - 1) - 1
    (d.form = 0 → ∃ r : Nat × Flags5, f32.result 0 false v false r ∧ y = ((r.1 : Int), r.1, 0)) ∧
    (d.form = 1 → ∃ r : Nat × Flags5, bf16.result 0 false v false r ∧ y = ((r.1 : Int), r.1 * 2 ^ 16, 0)) ∧
    (d.form = 2 → ∃ (k : Nat) (r : Nat × Flags5), roundsInt 0 (decide (x < 0)) ((|v / worth sout| : ℚ) : ℝ) k ∧ f32.result 0 false v false r ∧
      y = (if x < 0 then -((min k qmax : Nat) : Int) else (min k qmax : Nat), r.1, if qmax < k then 1 else 0)) ∧
    (d.form = 3 → y = (x, 0, 0))

/-- Which cell a CHECK names (R53): none where every listed cell of the chain agrees, and otherwise one that disagrees, no row of a
disagreeing cell being lower; in one row the leader's array comes before the follower's (the model's choice, log 57). -/
def Claim.ScanMismatch : Prop :=
  ∀ (s : State) (core : Nat) (b : Fin 2),
    let cells := fun (arr : Nat) => if arr = 0 then (s.core core).a[b].cells else
      if arr = 1 ∧ (s.core core).a[b].paired = true then (s.core (partnerOf core)).a[b].cells else []
    (s.mismatch core b = none ↔ ∀ arr, ∀ c ∈ cells arr, c.sum.2 = true) ∧
    ∀ arr row col, s.mismatch core b = some (arr, row, col) →
      (∃ c ∈ cells arr, c.row = row ∧ c.col = col ∧ c.sum.2 = false) ∧
      ∀ arr', ∀ c ∈ cells arr', c.sum.2 = false → row < c.row ∨ (row = c.row ∧ (arr < arr' ∨ (arr = arr' ∧ col ≤ c.col)))

/-- ACCUMULATOR_CHECK (R377): a bank that is open and due has its cells read; agreeing, it is due no more and nothing else changes;
otherwise it is poisoned as well, and a HWCHECK event is written where the log has room. -/
def Claim.AccumulatorCheck : Prop :=
  ∀ (s : State) (core : Nat) (b : Fin 2),
    let k := (s.core core).a[b]
    (k.isOpen = false ∨ k.due = false → exec (.accumulatorCheck core b.val) s = .next s) ∧
    (k.isOpen = true → k.due = true →
      ((∀ c ∈ k.cells, c.sum.2 = true) → ∃ t, exec (.accumulatorCheck core b.val) s = .next t ∧ t = { s with cores := t.cores } ∧
        t.core core = { s.core core with a := (s.core core).a.set b { k with due := false } }) ∧
      ((∃ c ∈ k.cells, c.sum.2 = false) → ∃ t, exec (.accumulatorCheck core b.val) s = .next t ∧ t.mem = s.mem ∧ t.cur = s.cur ∧
        t.core core = { s.core core with a := (s.core core).a.set b { k with due := false, poison := true } } ∧
        (s.evUsed < 4032 → t.log.getLast?.map (·.kind) = some 3)))

/-- MXDRAIN stores the rounded tile, and a checksum mismatch is found when it is drained: the claims above together. -/
def Obligations.MatrixDrainAndChecks : Prop := Claim.MatrixDrain ∧ Claim.DrainResults ∧ Claim.ScanMismatch ∧ Claim.AccumulatorCheck

/-- NMRUN (R184): an entry outside .scode or misaligned is BOUNDS naming a; a block address above 2^57 is PROT and one that is not
32-byte aligned BOUNDS, naming b; otherwise, with the block readable and within its limits, the tile on one stack of the die and an
arrival word that counts bytes, the work is accepted: group i of the block's groups is to take rows floor(i R / G) to
floor((i + 1) R / G) - 1 of all R rows. The fault for an address past 2^57 is the model's choice (log 67). -/
def Claim.StackCoreStart : Prop :=
  ∀ (s q t u v y : State) (a b c : Fin 64) (fl : Fin 13) (l : Tlb) (stack arr : Nat), s.cur.clean [a, b, c] →
    let entry := (s.rs a).toNat
    let blk := (s.rs b).toNat
    let n := parseNm (t.read (l.key blk) 32)
    let team := s.teamOf s.cur
    let all := n.rows * n.planes
    (2 ^ 32 ≤ entry ∨ entry % 4 ≠ 0 ∨ (s.launchOf s.cur).ssize < entry + 4 → exec (.nmrun a b c fl) s = s.raises causeBounds 10) ∧
    (entry < 2 ^ 32 → entry % 4 = 0 → entry + 4 ≤ (s.launchOf s.cur).ssize →
      (2 ^ 57 ≤ blk → exec (.nmrun a b c fl) s = s.raises causeProt 11 (s.rs b)) ∧
      (blk < 2 ^ 57 → blk % 32 ≠ 0 → exec (.nmrun a b c fl) s = s.raises causeBounds 11) ∧
      (blk < 2 ^ 57 → blk % 32 = 0 → s.line .read blk 11 = .ok (q, l) → q.heldCheck (l.key blk) = .ok t →
        t.poisonedAt (l.key blk) 32 = false →
        (n.base % 64 ≠ 0 ∨ n.rowBytes % 64 ≠ 0 ∨ n.rowBytes < 64 ∨ 65472 < n.rowBytes ∨ n.rows = 0 ∨ n.planes = 0 ∨ n.groups = 0 ∨
          8 < n.groups ∨ n.rowStride % 64 ≠ 0 ∨ n.planeStride % 64 ≠ 0 → exec (.nmrun a b c fl) s = s.raises causeBounds 11) ∧
        (nmBad n = false → n.base < 2 ^ 57 → t.nmTile n = .ok (u, stack) → u.tagWord .write (s.rs c) 12 = .ok (v, arr) →
          v.heldCheck arr = .ok y → arrUnit (y.read arr 8) = 0 → s.hasRoom fl →
          y.accepts fl (.nmrun {
            die := s.cur.place.die, stack := stack % 2, launch := (s.launchOf s.cur).key, teamId := team.teamId,
            stage := team.stage, entry := entry, arg := BitVec.ofNat 64 n.arg, blk := s.rs b, arrival := some arr, rowBytes := n.rowBytes,
            pieces := (List.range n.groups).map fun i => (i, i * all / n.groups, (i + 1) * all / n.groups - i * all / n.groups),
            left := n.groups }) (exec (.nmrun a b c fl) s))))

/-- NMRUN_GROUP_START (R184, R9): when stack core i has a free slot, room for a unit window and, where the launch binds them, its
watermark slots (R15), group i starts there at the entry
point, with the argument, the block's address, its first row, its rows and i in s1 to s5 and zero in every other register; the group
belongs to a team of its own that stands for the caller's. The bytes that its EXIT adds are fixed at its start (log 68, the model's choice). -/
def Claim.StackGroupStart : Prop :=
  ∀ (s : State) (w : Work) (n : Nmrun) (p : Nat × Nat × Nat) (r : List (Nat × Nat × Nat)) (pl : Place) (ps : List Place) (win : Window),
    let l := s.launch n.launch
    let ix := 96 + n.die * 16 + n.stack * 8 + p.1
    let size := if 2 ^ 18 < l.deckle[(0 : Fin 3)] then 0 else l.deckle[(0 : Fin 3)]
    s.findWork w.id = some w → w.kind = .nmrun n → n.pieces = p :: r → UnitRef.core ix ∉ s.fenced →
    (l.wmslots ≠ 0 → s.slotsFree [] l.ctx ix = true ∧ s.slotsReady ix l.ctx = true) →
    s.freeStackSlots n.die n.stack p.1 = pl :: ps → firstFit (2 ^ 18) size (s.padsTaken [] 0 n.die 0 [ix]) = some win →
    ∃ (t : State) (g : Group), exec (.nmrunGroupStart w.id) s = .next t ∧ t.cur = s.cur ∧ t.others = s.others ++ [g] ∧
      g.live = true ∧ g.place = pl ∧ pl.stack = some (n.stack, p.1) ∧ g.spc = BitVec.ofNat 64 (l.scode + n.entry) ∧ g.team = s.nextId ∧
      g.rs 1 = n.arg ∧ g.rs 2 = n.blk ∧ g.rs 3 = BitVec.ofNat 64 p.2.1 ∧ g.rs 4 = BitVec.ofNat 64 p.2.2 ∧ g.rs 5 = BitVec.ofNat 64 p.1 ∧
      (∀ x : Fin 64, 5 < x.val → g.rs x = 0) ∧ (∀ (x : Fin 64) (y : Fin 32), g.v[x][y] = 0) ∧ (∀ f : Fin 12, g.f[f] = 0) ∧ g.lq = [] ∧ g.ih = false ∧
      g.nmrun = some (w.id, p.2.2 * n.rowBytes) ∧
      (∀ k, k < 2 ^ 43 → cellRead t.mem k = cellRead s.mem k)

/-- RETURN_TRAP_MIGRATE (R349): a group that has met an instruction its stack core lacks goes on at the same instruction with the same
registers on a core of its die, once its committed work is done, a slot and a window are free there and no team or group of the die is
served before it; its unit window's bytes go with it. -/
def Claim.ReturnTrap : Prop :=
  ∀ (s : State) (key c : Nat) (g : Group) (p : Place) (w : Window), s.memOk → s.group key = some g →
    g.stop = .returned →
    let t := s.teamOf g
    let ready := s.settled key = true ∧ g.wait.goesOn = false ∧ s.firstServed t.die t = true
    (¬ ready ∨ s.returnFit t = none → exec (.returnTrapMigrate key) s = .next s) ∧
    (ready → s.returnFit t = some (p, w) → s.binds t = true → s.slotsReady p.coreIx (s.launchOf g).ctx = false →
      exec (.returnTrapMigrate key) s = .next (s.drainSlots p.coreIx (s.launchOf g).ctx)) ∧
    (ready → s.returnFit t = some (p, w) → (s.binds t = true → s.slotsReady p.coreIx (s.launchOf g).ctx = true) → t.unitCores = [c] → 96 ≤ c → p.coreIx < 96 →
      t.win[(0 : Fin 3)].base + t.win[(0 : Fin 3)].size ≤ 2 ^ 18 → w.size = t.win[(0 : Fin 3)].size → w.base + w.size ≤ 2 ^ 20 →
      t.win[(1 : Fin 3)].size = 0 → t.win[(2 : Fin 3)].size = 0 →
      ∃ u, exec (.returnTrapMigrate key) s = .next u ∧ u.group key = some { g with place := p, stop := .running } ∧
        ∀ i < w.size, cellRead u.mem (unitKey p.coreIx (w.base + i)) = cellRead s.mem (unitKey c (t.win[(0 : Fin 3)].base + i)))

/-- NMRUN starts stack-core groups, which run and return as stated: the claims above together. -/
def Obligations.StackCoresStartAndReturn : Prop := Claim.StackCoreStart ∧ Claim.StackGroupStart ∧ Claim.ReturnTrap

/-- Sending an operation (R219, R220, R371): it takes the next count of its context on its die's stream, goes to the links of the
package, or to a lit out-fibre where it still ends before the slot's dark interval, or waits, while a calender change holds sends to
other packages or no out-fibre can take it; and it is held as unanswered. -/
def Claim.SendOperation : Prop :=
  ∀ (s : State) (group work : Nat) (p : Packet) (src : Option (List (Nat × Nat))) (slot : Option (Nat × Fin 8)) (c : Ctx),
    s.ctxs.find? (fun x => x.num == p.ctx) = some c →
    let n := s.nextCount p.ctx p.sdie p.stream
    let q := { p with scount := n, spkg := s.pkgid, fabid := c.fabid }
    let t := s.sendOp group work p src slot
    t.nextCount p.ctx p.sdie p.stream = n + 1 ∧
    (∀ d m, (d, m) ≠ (p.sdie, p.stream) → t.nextCount p.ctx d m = s.nextCount p.ctx d m) ∧
    t.remotes = s.remotes ++ [{ id := s.nextId, pkt := q, ctx := p.ctx, group := group, work := work, sent := s.ns, src := src, slot := slot }] ∧
    t.inflight = (if p.dpkg = s.pkgid then s.inflight ++ [q] else s.inflight) ∧
    t.heldOut = (if p.dpkg ≠ s.pkgid ∧ (s.holding = true ∨ s.outFibre q = none) then s.heldOut ++ [q] else s.heldOut) ∧
    t.outbox = (if p.dpkg ≠ s.pkgid ∧ s.holding = false ∧ s.outFibre q ≠ none then s.outbox ++ [q] else s.outbox) ∧
    (∀ f, s.outFibre q = some f → (s.lit f).isSome = true ∧ s.inTime f q = true ∧ (q.relayed = true → s.lit f = some p.dpkg)) ∧
    (s.outFibre q = none → ∀ f < 96, s.inTime f q = true → s.lit f ≠ some p.dpkg) ∧
    t.cur = s.cur ∧ t.mem = s.mem ∧ t.work = s.work

/-- The lane remote instructions (R223-R228): for the threads they act on, a malformed or foreign peer is REMOTE_DENY, a misaligned
target or reply slot ALIGN, the payload that is kept for the conflict marker ONCE_ILLEGAL, an unreachable peer REMOTE_UNREACH, a reply
address outside its spaces PROT, a reply block outside the die window DECKLE, in that order, with the failing threads in TMASK and the
address of the lowest of them in ADDR (R256, R403); where everything is good, one operation per thread is sent, in thread order, as one piece of
work on the selected flag. RARRIVE waits for the group's lane memory instructions, and every other one while its thread has a pending lane
access to some byte of the target (R273). -/
def Claim.LaneRemote : Prop :=
  ∀ (s : State) (w : LaneFields) (i : Instr) (op : Nat),
    (i, op) ∈ [(Instr.radd w, 0xE0), (.rmin w, 0xE1), (.rmax w, 0xE2), (.ror w, 0xE3), (.ronce w, 0xE4), (.rarrive w, 0xE5),
      (.rread w, 0xE6), (.raddf w, 0xE7)] →
    s.laneGood op w →
    let g := s.cur
    let ts := s.laneThreads w
    let bytes := if op = 0xE7 then 16 else if op = 0xE4 ∨ op = 0xE5 then 8 else if op = 0xE6 then tyBytes w.ty.val else 4
    let req := fun (t : Fin 32) => ({ thread := t, peer := (g.rv w.c t).toNat, addr := dataOf g w.a 8 t, value := remoteValue g op w t } : RemoteReq)
    let addr := fun t => (req t).addr
    let val := fun t => (req t).value
    let denied := fun t => s.peerBad (req t).peer = true
    let misA := fun t => addr t % bytes ≠ 0
    let misB := fun t => op = 0xE6 ∧ ¬ (val t % 8 = 0 ∧ 8 ≤ val t % 256 ∧ val t % 256 ≤ (if bytes = 8 then 240 else 248))
    let once := fun t => op = 0xE4 ∧ val t % 2 ^ 63 = 2 ^ 63 - 1
    let away := fun t => s.peerReached (req t).peer = false
    let space := fun t => op = 0xE6 ∧ ¬ (val t < 2 ^ 57 ∨ (val t / 2 ^ 60 = 3 ∧ val t / 2 ^ 32 % 2 ^ 28 = 0))
    let block := fun t => op = 0xE6 ∧ val t / 2 ^ 60 = 3 ∧ s.windowSize g 2 < val t % 2 ^ 32 / 256 * 256 + 256
    let held := op = 0xE5 ∧ s.lanePending g.key = true
    let goodLines := fun t => lineGood (s.replyLine op (req t)) = true ∧ lineGood (s.targetLine op (req t)) = true
    let meets := fun t => ∃ l, s.targetLine op (req t) = some (.good l) ∧ s.threadMeets g.key t.val (l.key (addr t), bytes) = true
    let at_ := fun (m : Word32) => BitVec.ofNat 64 (addr (lowest m))
    let whom := fun (m : Word32) => BitVec.ofNat 64 (req (lowest m)).peer
    let mask := fun (m : Word32) (p : Fin 32 → Prop) => ∀ t : Fin 32, m.getLsbD t.val = true ↔
      (if w.u then (activeMask g w).getLsbD t.val = true ∧ ∃ r ∈ ts, p r else t ∈ ts ∧ p t)
    (held → exec i s = .next s) ∧
    (¬ held → (∃ t ∈ ts, denied t) → ∃ m, mask m denied ∧
      exec i s = .next (s.laneFault { cause := causeRemoteDeny, slot := 12, tmask := m, addr := at_ m, detail := whom m } g.clpos)) ∧
    (¬ held → (∀ t ∈ ts, ¬ denied t) → (∃ t ∈ ts, misA t ∨ misB t) → ∃ m, mask m (fun t => misA t ∨ misB t) ∧
      ((∃ t ∈ ts, misA t) → exec i s = .next (s.laneFault { cause := causeAlign, slot := 10, tmask := m, addr := at_ m } g.clpos)) ∧
      ((∀ t ∈ ts, ¬ misA t) → exec i s = .next (s.laneFault
        { cause := causeAlign, slot := 11, tmask := m, addr := BitVec.ofNat 64 (val (lowest m)) } g.clpos))) ∧
    (¬ held → (∀ t ∈ ts, ¬ denied t ∧ ¬ misA t ∧ ¬ misB t) → (∃ t ∈ ts, once t) → ∃ m, mask m once ∧
      exec i s = .next (s.laneFault { cause := causeOnceIllegal, slot := 11, tmask := m, addr := at_ m } g.clpos)) ∧
    (¬ held → (∀ t ∈ ts, ¬ denied t ∧ ¬ misA t ∧ ¬ misB t ∧ ¬ once t) → (∃ t ∈ ts, away t) → ∃ m, mask m away ∧
      exec i s = .next (s.laneFault { cause := causeRemoteUnreach, slot := 12, tmask := m, addr := at_ m, detail := whom m } g.clpos)) ∧
    (¬ held → (∀ t ∈ ts, ¬ denied t ∧ ¬ misA t ∧ ¬ misB t ∧ ¬ once t ∧ ¬ away t) → (∃ t ∈ ts, space t) → ∃ m, mask m space ∧
      exec i s = .next (s.laneFault
        { cause := causeProt, slot := 11, tmask := m, addr := BitVec.ofNat 64 (val (lowest m)), detail := 1 } g.clpos)) ∧
    (¬ held → (∀ t ∈ ts, ¬ denied t ∧ ¬ misA t ∧ ¬ misB t ∧ ¬ once t ∧ ¬ away t ∧ ¬ space t) → (∃ t ∈ ts, block t) → ∃ m, mask m block ∧
      exec i s = .next (s.laneFault
        { cause := causeDeckle, slot := 11, tmask := m, addr := BitVec.ofNat 64 (val (lowest m)), detail := 2 } g.clpos)) ∧
    (¬ held → (∀ t ∈ ts, ¬ denied t ∧ ¬ misA t ∧ ¬ misB t ∧ ¬ once t ∧ ¬ away t ∧ ¬ space t ∧ ¬ block t ∧ goodLines t) → (∃ t ∈ ts, meets t) →
      exec i s = .next s) ∧
    (¬ held → (∀ t ∈ ts, ¬ denied t ∧ ¬ misA t ∧ ¬ misB t ∧ ¬ once t ∧ ¬ away t ∧ ¬ space t ∧ ¬ block t ∧ goodLines t ∧ ¬ meets t) →
      s.room (s.launchOf g).ctx g.place.die (streamOf g.place) ts.length = true → s.holding = false →
      (∀ f, g.flagSel w = some f → g.f[f] < 1023) →
      ∃ (c v t : State), exec i s = .next (t.laneDone (laneDests op w)) ∧ c = { s with tlb := c.tlb } ∧
        v = { c with work := s.work ++ [{ id := s.nextId, group := g.key, ctx := (s.launchOf g).ctx, die := g.place.die, team := g.team, flag := g.flagSel w,
                                          kind := .remote ts.length }]
                     nextId := s.nextId + 1, cur := v.cur } ∧
        v.cur = { g with f := v.cur.f } ∧ (∀ f : Fin 12, v.cur.f[f] = if g.flagSel w = some f then g.f[f] + 1 else g.f[f]) ∧
        t = (ts.map req).foldl (fun u q => (u.noteReply op q).sendOp g.key s.nextId (c.remotePacket op w q)) v)

/-- A remote operation leaves as one packet to the home die of its address: the claims above together. -/
def Obligations.SendsLeaveForHomes : Prop := Claim.SendOperation ∧ Claim.LaneRemote

/-- RBULK (R232, R233): a bad descriptor is BOUNDS; LEN = 0 does nothing; a bad peer REMOTE_DENY, a misaligned destination or arrival
word ALIGN, an unreachable destination REMOTE_UNREACH; otherwise the transfer is accepted into the open batch with one line of 128
bytes for each destination and each line of the source, and as many lines are sent as the stream has room for. RQUIET waits while the
group has remote operations or lines unanswered (R234). -/
def Claim.BulkTransfers : Prop :=
  ∀ (s t : State) (a b : Fin 64) (c : Fin 32) (fl : Fin 13) (tb : Tagged) (runs : List (List (List Run))),
    s.cur.place.onStack = false →
    let d := (s.rs (pairLo c)).toNat
    let arr := (s.rs (pairHi c)).toNat
    let dst := (s.rs a).toNat
    let x := parseBulk d
    let hasArr := arr ≠ 2 ^ 64 - 1
    let peers := bulkPeers x
    let bad := d / 2 ^ 16 % 2 ^ 8 ≠ 0 ∨ 6 < x.mode ∨ x.len % 128 ≠ 0 ∨ (x.peer = 0xFFFF ∧ x.mcount ≠ 0)
    let sources := (runs.headD []).map fun r => r.map (·.2)
    let pkt := fun (p i : Nat) => ({
      kind := 2, op := x.mode, dpkg := if p = 0xFFFF then s.pkgid else peerPkg p,
      ddie := if p = 0xFFFF then t.selfDie (dst + 128 * i) else peerDie p, relayed := false, spkg := s.pkgid, sdie := s.cur.place.die,
      stream := streamOf s.cur.place, fabid := 0, scount := 0, addr := BitVec.ofNat 64 (dst + 128 * i),
      ext := if hasArr then BitVec.ofNat 64 arr else BitVec.allOnes 64, ctx := (s.launchOf s.cur).ctx, virt := p == 0xFFFF } : Packet)
    let lines := peers.flatMap fun p => sources.zipIdx.map fun q => (q.1, pkt p q.2)
    (s.cur.clean [a, b, pairLo c, pairHi c] →
      (bad → exec (.rbulk a b c fl) s = s.raises causeBounds 12) ∧
      (¬ bad → x.len = 0 → exec (.rbulk a b c fl) s = s.falls s) ∧
      (¬ bad → x.len ≠ 0 → s.peerBad x.peer = true ∨ (∃ p ∈ peers, s.peerBad p = true) →
        exec (.rbulk a b c fl) s = s.raises causeRemoteDeny 12 (s.rs a) (BitVec.ofNat 64 x.peer)) ∧
      (¬ bad → x.len ≠ 0 → s.peerBad x.peer = false → (∀ p ∈ peers, s.peerBad p = false) →
        (dst % 128 ≠ 0 → exec (.rbulk a b c fl) s = s.raises causeAlign 10 (s.rs a)) ∧
        (dst % 128 = 0 → hasArr → arr % 8 ≠ 0 → exec (.rbulk a b c fl) s = s.raises causeAlign 12 (s.rs (pairHi c))) ∧
        (∀ p, dst % 128 = 0 → (hasArr → arr % 8 = 0) → peers.find? (fun q => !s.peerReached q) = some p →
          exec (.rbulk a b c fl) s = s.raises causeRemoteUnreach 12 (s.rs a) (BitVec.ofNat 64 p)) ∧
        (dst % 128 = 0 → (hasArr → arr % 8 = 0) → (∀ p ∈ peers, s.peerReached p = true) → taggedOf .read (s.rs b) 11 = .ok tb →
          (∀ o, tb ≠ .pad 0 o) →
          s.sides [{ acc := .read, slot := 11, tag := tb, pieces := (List.range (x.len / 128)).map fun i => (128 * i, 128) }] = .ok (t, runs) →
          (x.peer = 0xFFFF → sidesHalt (t.bulkLines 10 dst x.len ++ if hasArr then t.bulkLines 12 arr 8 else []) = none) → s.hasRoom fl →
          ∃ u : State, exec (.rbulk a b c fl) s = s.falls (u.pump lines.length s.nextId) ∧
            u = { s with tlb := u.tlb, nextId := s.nextId + 1, cur := { s.cur with f := s.cur.raised fl },
                         work := s.work ++ [s.newWork fl (.bulk lines lines.length s.cur.batchOpen)] }))) ∧
    (s.remotePending s.cur.key = true → exec .rquiet s = s.waits .rquiet) ∧
    (s.remotePending s.cur.key = false → exec .rquiet s = s.falls
      { s with cur := { s.cur with traps := { s.cur.traps with remote := s.cur.traps.remote || s.cur.remstat.d } } })

/-- A line of a bulk transfer (R219, R233, R365, R378, R400): while its stream has room, a line leaves with the 128 bytes that its source
holds, once no stack core holds a row of it (R352); a line for a die that cannot be reached is not sent and counts as a denial with reason
0x07, and one with a poisoned source as a denial with reason 0x0A. -/
def Claim.BulkLineSent : Prop :=
  ∀ (s : State) (n : Nat) (w : Work) (src : List (Nat × Nat)) (p : Packet) (r : List (List (Nat × Nat) × Packet)) (left : Nat) (b : BitVec 16),
    s.findWork w.id = some w → w.kind = .bulk ((src, p) :: r) left b →
    let rest : State := { s with work := s.work.map fun x => if x.id == w.id then { x with kind := .bulk r left b } else x }
    (s.room p.ctx p.sdie p.stream 1 = false → State.pump (n + 1) w.id s = s) ∧
    (s.room p.ctx p.sdie p.stream 1 = true → p.dpkg = s.pkgid ∨ s.holding = false →
      let near := s.reachable p.dpkg p.ddie = true
      let held := ∃ q ∈ src, s.runHeld noCore q.1 q.2 = true
      let bad := ∃ q ∈ src, s.poisonedAt q.1 q.2 = true
      (near → held → State.pump (n + 1) w.id s = s.noteHeld src) ∧
      (near → ¬ held → ¬ bad → State.pump (n + 1) w.id s =
        State.pump n w.id (rest.sendOp w.group w.id { p with body := src.flatMap fun q => readCells s.mem q.1 q.2 } (some src))) ∧
      (∀ reason, (¬ near ∧ reason = 0x07) ∨ (near ∧ ¬ held ∧ bad ∧ reason = 0x0A) → 1 < left → s.cur.live = true → s.cur.key = w.group → n = 0 →
        (State.pump (n + 1) w.id s).cur.remstat = s.cur.remstat.deny reason (s.nextCount p.ctx p.sdie p.stream) ∧
        (State.pump (n + 1) w.id s).outbox = s.outbox ∧ (State.pump (n + 1) w.id s).inflight = s.inflight))

/-- RBULK is issued once and leaves line by line, its arrival with the last: the claims above together. -/
def Obligations.BulkTransfersLeaveByLines : Prop := Claim.BulkTransfers ∧ Claim.BulkLineSent

/-- Naming a record (R211, R339): 0, an id above COUNT, or one that is not allocated or is being freed is BOUNDS naming the operand; an
unmapped page of the table is a page miss; otherwise, once its row is free (R352), nothing changes but cached translations. -/
def Claim.RecordNaming : Prop :=
  ∀ (s u : State) (id slot : Nat) (l : Tlb),
    let ctx := (s.launchOf s.cur).ctx
    let tab := (s.ctx ctx).wmtab.toNat
    let va := bits tab 56 16 * 2 ^ 16 + 256 * id
    (id = 0 ∨ tab % 2 ^ 16 < id → s.recordAt id slot = .error (.fault { cause := causeBounds, slot := slot })) ∧
    (id ≠ 0 → id ≤ tab % 2 ^ 16 →
      (s.translate s.cur.place.die ctx va = .absent →
        s.recordAt id slot = .error (.miss [(va / 2 ^ 16 * 2 ^ 16, false)] (pageFault slot (BitVec.ofNat 64 va) 0))) ∧
      (s.translate s.cur.place.die ctx va = .leaf l → s.heldCheck (l.key va) = .ok u →
        ((s.read (l.key va) 4).testBit 16 = false ∨ id ∈ (s.ctx ctx).freeing →
          s.recordAt id slot = .error (.fault { cause := causeBounds, slot := slot })) ∧
        ((s.read (l.key va) 4).testBit 16 = true → id ∉ (s.ctx ctx).freeing → s.recordAt id slot = .ok (u.cache l))))

/-- WMBIND, WMFLUSH (R211, R212): a slot of 8 or more, a mask of 256 or more, or an id of 2^16 or more is MXFMT. Binding the id that is
bound changes nothing; another first flushes the old record's partials as WMFLUSH does, with the stream waiting until they are merged and
until the core's slots are free for the context (R344); it then binds the slot to the record, or to none for 0, with empty statistics and
the record's epoch. WMFLUSH waits for the lane queue and for room in its stream (R219), sends the partials of the slots in its mask that
have any, as one piece of work, and leaves their statistics empty. -/
def Claim.WatermarkSlots : Prop :=
  ∀ (s t : State) (b c : Fin 64) (fl : Fin 13) (slot : Fin 8), s.cur.clean [b, c] →
    let core := s.cur.place.coreIx
    let ctx := (s.launchOf s.cur).ctx
    let id := (s.rs c).toNat
    let m := (s.rs b).toNat
    let partials := fun (u : State) (i : Fin 8) => u.boundId core ctx i ≠ 0 ∧ (u.core core).slots[i].stats ≠ {}
    (8 ≤ m → exec (.wmbind b c) s = s.raises causeMxfmt 11) ∧
    (m < 8 → 2 ^ 16 ≤ id → exec (.wmbind b c) s = s.raises causeMxfmt 12) ∧
    (m = slot.val → id < 2 ^ 16 → (id = 0 ∧ t = s) ∨ (id ≠ 0 ∧ s.recordAt id 12 = .ok t) →
      (s.boundId core ctx slot = id → exec (.wmbind b c) s = s.falls t) ∧
      (s.boundId core ctx slot ≠ id →
        (s.slotFlushing core slot = true → exec (.wmbind b c) s = .next (t.waiting .sx)) ∧
        (s.slotFlushing core slot = false → partials s slot →
          (s.cur.lq ≠ [] → exec (.wmbind b c) s = .next (t.waiting .clauses)) ∧
          (s.cur.lq = [] → s.room ctx s.cur.place.die 6 1 = false → exec (.wmbind b c) s = .next (t.waiting .sx)) ∧
          (s.cur.lq = [] → s.room ctx s.cur.place.die 6 1 = true → ∃ u, exec (.wmbind b c) s = .next u ∧ u.mem = s.mem ∧
            u.cur = { s.cur with wait := .sx } ∧ u.work = s.work ++ [s.newWork 0 (.flush 1)] ∧
            u.remotes.length = s.remotes.length + 1 ∧
            (u.core core).slots = (s.core core).slots.set slot { (s.core core).slots[slot] with stats := {} })) ∧
        (s.slotFlushing core slot = false → ¬ partials s slot →
          (s.slotsReady core ctx = false → exec (.wmbind b c) s = .next ((t.drainSlots core ctx).waiting .sx)) ∧
          (s.slotsReady core ctx = true → ∃ u, exec (.wmbind b c) s = .next u ∧ u.mem = s.mem ∧ u.boundId core ctx slot = id ∧
            (u.core core).slots[slot].stats = {} ∧ (u.core core).slots[slot].epoch = (if id = 0 then 0 else t.recordEpoch ctx id) ∧
            ((s.core core).slotCtx = some ctx → ∀ i, i ≠ slot → (u.core core).slots[i] = (s.core core).slots[i]) ∧
            u.work = s.work ∧ u.cur = { s.cur with spc := s.cur.spc + 4, wait := .none, retired := s.cur.retired + 1 })))) ∧
    (256 ≤ m → exec (.wmflush b fl) s = s.raises causeMxfmt 11) ∧
    (m < 256 → ((List.finRange 8).filter fun i => m.testBit i.val && s.boundId core ctx i != 0).foldlM
        (fun (u : State) i => u.recordAt (u.boundId core ctx i) 11) s = .ok t →
      let l := (List.finRange 8).filter fun i => m.testBit i.val && s.boundId core ctx i != 0 && (s.core core).slots[i].stats != {}
      (s.cur.lq ≠ [] → exec (.wmflush b fl) s = .next (t.waiting .clauses)) ∧
      (s.cur.lq = [] → l = [] → exec (.wmflush b fl) s = s.falls t) ∧
      (s.cur.lq = [] → l ≠ [] → s.room ctx s.cur.place.die 6 l.length = false → exec (.wmflush b fl) s = .next (t.waiting .sx)) ∧
      (s.cur.lq = [] → l ≠ [] → s.room ctx s.cur.place.die 6 l.length = true → s.hasRoom fl → ∃ u, exec (.wmflush b fl) s = .next u ∧ u.mem = s.mem ∧ u.cur = s.cur.accepted fl ∧
        u.work = s.work ++ [s.newWork fl (.flush l.length)] ∧ u.remotes.length = s.remotes.length + l.length ∧
        ∀ i, (u.core core).slots[i] = if i ∈ l then { (s.core core).slots[i] with stats := {} } else (s.core core).slots[i]))

/-- WMRD (R213): the fields of the current or closed half and of the record, zero-extended but for BASEXP; any other descriptor is
MXFMT. WMSCALE (R214): the scale of the closed half under the policy for the format, 1.0 while no half is closed. Both wait for the
group's own flushes. -/
def Claim.WatermarkReads : Prop :=
  ∀ (s t : State) (a b c : Fin 64), s.cur.clean [b, c] →
    let ctx := (s.launchOf s.cur).ctx
    let id := (s.rs b).toNat
    let d := (s.rs c).toNat
    let f := d % 32
    let h := if d.testBit 5 then 144 else 32
    let field := fun (off n : Nat) => exec (.wmrd a b c) s = s.falls (t.ws a (BitVec.ofNat 64 (t.recordRead ctx id off n)))
    let q := d / 2 ^ 8 % 2 ^ 8
    (64 ≤ d ∨ 28 ≤ f ∨ (24 ≤ f ∧ d.testBit 5 = true) → exec (.wmrd a b c) s = s.raises causeMxfmt 12) ∧
    (2 ^ 16 ≤ d ∨ d / 2 ^ 4 % 2 ^ 4 ≠ 0 ∨ 8 ≤ d % 2 ^ 4 ∨ q < 0x20 ∨ 0x23 < q → exec (.wmscale a b c) s = s.raises causeMxfmt 12) ∧
    (s.recordAt id 11 = .ok t →
      (d < 64 → f < 28 → (24 ≤ f → d.testBit 5 = false) →
        (s.flushing s.cur.key = true → exec (.wmrd a b c) s = .next (t.waiting .sx)) ∧
        (s.flushing s.cur.key = false →
          (f < 6 → field (h + 4 * f) 4) ∧ (f = 6 → field (h + 24) 8) ∧ (f = 7 → field (h + 96) 8) ∧
          (8 ≤ f → f < 24 → field (h + 32 + 4 * (f - 8)) 4) ∧ (f = 24 → field 8 8) ∧ (f = 25 → field 16 4) ∧ (f = 27 → field 2 2) ∧
          (f = 26 → exec (.wmrd a b c) s = s.falls (t.ws a ((BitVec.ofNat 8 (t.recordRead ctx id 4 1)).signExtend 64))))) ∧
      (d < 2 ^ 16 → d / 2 ^ 4 % 2 ^ 4 = 0 → d % 2 ^ 4 < 8 → 0x20 ≤ q → q ≤ 0x23 →
        (s.flushing s.cur.key = true → exec (.wmscale a b c) s = .next (t.waiting .sx)) ∧
        (s.flushing s.cur.key = false → exec (.wmscale a b c) s = s.falls (t.ws a (BitVec.ofNat 64 (
          if (t.recordRead ctx id 2 2).testBit 1 then
            policyScale (d % 2 ^ 4) (qMax (qBits q)) (halfStats (t.recordRead ctx id 144 112)) (t.baseExp ctx id)
          else 0x3F80))))))

/-- WMCLOSE and WMRESET (R215), for a record whose 256 bytes lie together, outside the page tables and in no row that another stack core
holds (R352): WMCLOSE gives the closed half the
current half's statistics and EPOCH, empties the current half, raises EPOCH by one and sets VALID; WMRESET empties both halves, zeroes
LATE, raises EPOCH and clears VALID. No byte outside the record changes. While the group has flushes not yet merged the change waits for
them, with the stream (fl = 0) or as work under its flag; a flag that is full stalls it (R14). -/
def Claim.WatermarkCloses : Prop :=
  ∀ (s t : State) (b : Fin 64) (fl : Fin 13) (k : Nat), s.cur.clean [b] → s.memOk → s.cur.live = true → (∀ n, s.cur.wait ≠ .engine n) →
    let ctx := (s.launchOf s.cur).ctx
    let id := (s.rs b).toNat
    let epoch := t.read (k + 8) 8
    let bumped := (epoch + 1) % 2 ^ 64
    let flags := t.read (k + 2) 2
    let only := fun (u : State) => ∀ j, j < k ∨ k + 256 ≤ j → cellRead u.mem j = cellRead s.mem j
    let on := fun (u : State) => u.cur = { s.cur with spc := s.cur.spc + 4, wait := .none, retired := s.cur.retired + 1 }
    s.recordAt id 11 = .ok t → s.runHeld s.cur.place.coreIx k 256 = false →
    (∀ mem p1 p2 p3 off close, off < 256 → (∀ j, j < k ∨ k + 256 ≤ j → cellRead mem j = cellRead t.mem j) →
      { t with mem := mem, poisoned := p1, poisonSeen := p2, soft := p3, nextId := s.nextId + 1,
               work := s.work ++ [s.newWork fl (.record id close)], cur := { s.cur with f := s.cur.raised fl } }.recordKey ctx id off =
        some (k + off)) →
    let waits := exec (.wmclose b fl) s = .next (t.waiting .sx) ∧ exec (.wmreset b fl) s = .next (t.waiting .sx)
    let later := fun (i : Instr) (close : Bool) => ∃ u, exec i s = .next u ∧ u.mem = s.mem ∧ u.cur = s.cur.accepted fl ∧
      u.work = s.work ++ [s.newWork fl (.record id close)]
    (s.flushing s.cur.key = true → fl = 0 → waits) ∧
    (s.flushing s.cur.key = false ∨ fl ≠ 0 → ¬ s.hasRoom fl → waits) ∧
    (∀ x n, (s.work.filter fun y => y.group == s.cur.key).find? (fun y => match y.kind with | .flush _ | .record _ _ => true | _ => false) =
        some x → x.kind = .flush n → fl ≠ 0 → s.hasRoom fl → later (.wmclose b fl) true ∧ later (.wmreset b fl) false) ∧
    (s.flushing s.cur.key = false → s.hasRoom fl →
      (∃ u, exec (.wmclose b fl) s = .next u ∧ on u ∧ only u ∧
        halfStats (u.read (k + 144) 112) = halfStats (t.read (k + 32) 112) ∧ u.read (k + 240) 8 = epoch ∧
        halfStats (u.read (k + 32) 112) = {} ∧ u.read (k + 128) 8 = bumped ∧ u.read (k + 8) 8 = bumped ∧
        u.read (k + 2) 2 = flags ||| 2 ∧ u.read (k + 16) 4 = t.read (k + 16) 4) ∧
      ∃ u, exec (.wmreset b fl) s = .next u ∧ on u ∧ only u ∧
        halfStats (u.read (k + 144) 112) = {} ∧ u.read (k + 240) 8 = 0 ∧ halfStats (u.read (k + 32) 112) = {} ∧
        u.read (k + 128) 8 = bumped ∧ u.read (k + 8) 8 = bumped ∧ u.read (k + 16) 4 = 0 ∧
        (u.read (k + 2) 2).testBit 1 = false ∧ ∀ n, n ≠ 1 → (u.read (k + 2) 2).testBit n = flags.testBit n)

/-- Watermark members name a record, and bind, flush, read, close and reset it as stated: the claims above together. -/
def Obligations.WatermarkRecordsNamed : Prop :=
  Claim.RecordNaming ∧ Claim.WatermarkSlots ∧ Claim.WatermarkReads ∧ Claim.WatermarkCloses

/-- One contribution (R210): TOTAL counts every value; a NaN or an infinity counts only there; a zero counts nowhere else; any other value
moves MAXABS and MINNZ and counts in one bin: 0 below BASEXP, 1 to 14 for the exponents from BASEXP to BASEXP + 13, 15 above. Counts
saturate. Merging takes each field's larger, smaller or saturated sum, in either order. -/
def Claim.WatermarkStatistics : Prop :=
  ∀ (st u v : Stats) (base : Int) (x : Nat),
    let m := x % 2 ^ 31
    let up := fun (n k : Nat) => min (n + 1) (2 ^ k - 1)
    let y := st.add base x
    x < 2 ^ 32 →
    y.total = up st.total 64 ∧ y.sat = st.sat ∧
    (0x7F800000 < m → y = { st with total := y.total, nan := up st.nan 32 }) ∧
    (x = 0x7F800000 → y = { st with total := y.total, pinf := up st.pinf 32 }) ∧
    (x = 0xFF800000 → y = { st with total := y.total, ninf := up st.ninf 32 }) ∧
    (m = 0 → y = { st with total := y.total }) ∧
    (m ≠ 0 → m < 0x7F800000 →
      y.maxabs = max st.maxabs m ∧ y.minnz = (if st.minnz = 0 then m else min st.minnz m) ∧ y.nan = st.nan ∧ y.pinf = st.pinf ∧
      y.ninf = st.ninf ∧ ∀ i : Fin 16,
        let e := (exponentOf false x).toInt - base
        let mine := (i.val = 0 ∧ e < 0) ∨ (1 ≤ i.val ∧ i.val ≤ 14 ∧ e = i.val - 1) ∨ (i.val = 15 ∧ 13 < e)
        y.bins[i] = if mine then up st.bins[i] 32 else st.bins[i]) ∧
    u.merge v = v.merge u ∧ (u.merge v).maxabs = max u.maxabs v.maxabs ∧
    (u.merge v).minnz = (if u.minnz = 0 then v.minnz else if v.minnz = 0 then u.minnz else min u.minnz v.minnz) ∧
    (u.merge v).sat = min (u.sat + v.sat) (2 ^ 32 - 1)

/-- The scale that fits a magnitude (R207, R345): the smallest scale of format E8M7 whose largest code reaches it, or the smallest such
power of two, unless the range of scales ends first; 1.0 for zero. A scale word r is worth (128 + r mod 128) 2^(floor(r / 128) - 134). -/
def Claim.FittedScale : Prop :=
  ∀ (q m : Nat) (e : Int), 0 < q → 0 < m →
    let worth := fun (r : Nat) => ((128 + r % 128 : Nat) : ℚ) * 2 ^ (((r / 128 : Nat) : Int) - 134)
    let size := (m : ℚ) * 2 ^ e
    let r := fitScale false q m e
    let p := fitScale true q m e
    (128 ≤ r ∧ r ≤ 0x7F7F ∧ (r < 0x7F7F → size ≤ q * worth r) ∧ (128 < r → q * worth (r - 1) < size)) ∧
    (p % 128 = 0 ∧ 128 ≤ p ∧ p ≤ 0x7F00 ∧ (p < 0x7F00 → size ≤ q * worth p) ∧ (128 < p → q * worth (p - 128) < size)) ∧
    fitScale false q 0 e = 0x3F80 ∧ fitScale true q 0 e = 0x3F80

/-- The scale of a closed half under each policy (R345, R346), for a finite maximum of m 2^e: FIT and POW2 of the maximum, HEAD of twice
the maximum, CLIP and CLIP2 of the bound U, the smaller of the maximum and 2^(BASEXP + k) for the highest bin k above which, with it,
more than one finite value in 1,024 lies, or the maximum where that bin is none or the last; SATFIT and SATPOW2 with the exponent one
higher, up to the largest scale, where something has saturated; UNIT is 1.0. -/
def Claim.PolicyScales : Prop :=
  ∀ (st : Stats) (base : Int) (q k : Nat), st.maxabs < 0x7F800000 →
    let m := if st.maxabs < 2 ^ 23 then st.maxabs else 2 ^ 23 + st.maxabs % 2 ^ 23
    let e : Int := if st.maxabs < 2 ^ 23 then -149 else (st.maxabs / 2 ^ 23 : Nat) - 150
    let raised := fun (r : Nat) => if st.sat = 0 then r else if r < 254 * 128 then r + 128 else 0x7F7F
    let above := fun (j : Nat) => (((List.finRange 16).filter fun i => decide (j ≤ i.val)).map fun i => st.bins[i]).sum
    let few := (st.total - st.nan - st.pinf - st.ninf) / 1024
    let scale := fun (p : Nat) => policyScale p q st base
    scale 0 = fitScale false q m e ∧ scale 1 = fitScale true q m e ∧ scale 2 = fitScale false q m (e + 1) ∧
    scale 5 = raised (fitScale false q m e) ∧ scale 6 = raised (fitScale true q m e) ∧ scale 7 = 0x3F80 ∧
    (k ≤ 15 → (k ≠ 0 → few < above k) → (∀ j, k < j → j ≤ 15 → above j ≤ few) →
      (k = 0 ∨ k = 15 ∨ (m : ℚ) * 2 ^ e ≤ 2 ^ (base + k) → scale 3 = fitScale false q m e ∧ scale 4 = fitScale true q m e) ∧
      (¬ (k = 0 ∨ k = 15 ∨ (m : ℚ) * 2 ^ e ≤ 2 ^ (base + k)) → scale 3 = fitScale false q 1 (base + k) ∧ scale 4 = fitScale true q 1 (base + k)))

/-- Watermark statistics and the scale fitted from them follow the recorded maxima: the claims above together. -/
def Obligations.WatermarkScalesFollowHistory : Prop := Claim.WatermarkStatistics ∧ Claim.FittedScale ∧ Claim.PolicyScales

/-- QTILE (R206-R208) with good descriptors, addresses and sides, and no poisoned source: it is accepted with its writing to come, held
while the rescale trap is armed; memory does not change until then. What is to be written is, in the places of each block's destination
and nowhere else, the header and the scales (BlockHeads), and for each row its codes: in the row-blocked block under the scale of its 32
rows, in the column-blocked block under the scales of each 32 columns: the scale given (SMODE 0), the record's (SMODE 1), or the one that
fits those 32 rows or columns (SMODE 2). The saturated codes of both blocks are counted. A bad descriptor is MXFMT naming the
descriptor, a misaligned or overlapping destination MXFMT naming a, a misaligned source MXFMT naming b. QTILE_COMPLETE writes exactly
what was to be written, and raises RESCALE only if the trap was armed at the acceptance (log 43, DEDUCED). -/
def Claim.QuantiseTile : Prop :=
  ∀ (s t u : State) (a b : Fin 64) (c : Fin 32) (fl : Fin 13) (ta tb : Tagged) (runs : List (List (List Run))),
    let td := s.rs (pairLo c)
    let qd := s.rs (pairHi c)
    let d := parseQ td qd
    let n := qBits d.qfmt
    let ctx := (s.launchOf s.cur).ctx
    let core := s.cur.place.coreIx
    let bytes := (d.cols * n + 7) / 8
    let off := fun (byCols : Bool) => dataOff (((if byCols then d.cols else d.rows) + 31) / 32)
    let dst := fun (byCols : Bool) => if (if byCols then d.cc else d.rc) then
        [({ acc := .write, slot := 10, tag := ta, pieces := ((if byCols then d.coff else 0), off byCols) ::
          (List.range d.rows).map fun i => ((if byCols then d.coff else 0) + off byCols + i * d.pitch, bytes) } : Side)] else []
    let x := fun (i j : Nat) => ((((runs[0]?.getD []).map fun r => (List.range d.cols).map (d.value (u.runBytes r)))[i]?.getD [])[j]?.getD 0)
    let fits := fun (cells : List Nat) => fitF32 false (qMax n) (maxFinite cells) 0
    let given := if d.smode = 1 then (u.recordScale ctx d.sarg d.policy d.qfmt).1 else d.sarg
    let scale := fun (byCols : Bool) (k : Nat) => if d.smode = 2 then
        fits (if byCols then (List.range d.rows).flatMap fun i => (List.range (min 32 (d.cols - 32 * k))).map fun j => x i (32 * k + j)
              else (List.range (min 32 (d.rows - 32 * k))).flatMap fun i => (List.range d.cols).map fun j => x (32 * k + i) j)
      else given
    let cell := fun (byCols : Bool) (i j : Nat) =>
      quantise (decodeF f32 false (x i j)) (scale byCols ((if byCols then j else i) / 32)) (qMax n)
    let on := fun (byCols : Bool) => if byCols then d.cc else d.rc
    let scales := fun (byCols : Bool) => (List.range (((if byCols then d.cols else d.rows) + 31) / 32)).map (scale byCols)
    let epoch := if d.smode = 1 then (u.recordScale ctx d.sarg d.policy d.qfmt).2 else 0
    let part := fun (byCols : Bool) (i : Nat) => if i = 0 then blockPrefix d byCols (scales byCols) (if d.smode = 1 then d.sarg else 0) epoch
      else leBytes bytes (qPack n ((List.range d.cols).map fun j => (cell byCols (i - 1) j).1))
    let runsOf := fun (byCols : Bool) (i : Nat) => ((runs[if byCols ∧ d.rc = true then 2 else 1]?.getD [])[i]?.getD [])
    let count := fun (byCols : Bool) => ((List.range d.rows).flatMap fun i => (List.range d.cols).map fun j => (cell byCols i j).2).sum
    s.cur.place.onStack = false → s.cur.clean [a, b, pairLo c, pairHi c] →
    (d.bad td qd = true → exec (.qtile a b c fl) s = s.raises causeMxfmt 12) ∧
    (d.bad td qd = false → (s.rs a).toNat % 64 ≠ 0 ∨ d.overlap (s.rs a).toNat = true → exec (.qtile a b c fl) s = s.raises causeMxfmt 10 (s.rs a)) ∧
    (d.bad td qd = false → (s.rs a).toNat % 64 = 0 → d.overlap (s.rs a).toNat = false →
      ((s.rs b).toNat % (if d.bf then 2 else 4) ≠ 0 → exec (.qtile a b c fl) s = s.raises causeMxfmt 11 (s.rs b)) ∧
      ((s.rs b).toNat % (if d.bf then 2 else 4) = 0 → (d.smode = 0 → scaleBad d.sarg = false) → (d.smode = 1 → d.policy < 8) →
        (d.smode = 1 → s.recordAt d.sarg 12 = .ok t ∧ s.flushing s.cur.key = false) → (d.smode ≠ 1 → t = s) →
        (d.wmen = true → s.boundId core ctx d.slot ≠ 0) → taggedOf .read (s.rs b) 11 = .ok tb → taggedOf .write (s.rs a) 10 = .ok ta →
        t.sides ({ acc := .read, slot := 11, tag := tb, pieces := (List.range d.rows).map fun i => (i * d.sstride, d.bytes) } ::
          (dst false ++ dst true)) = .ok (u, runs) →
        (∀ r ∈ runs[0]?.getD [], u.runsPoisoned r = false) → u.runsReach (runs[0]?.getD []).flatten = .ok () → s.hasRoom fl →
        ∃ v ws sat, exec (.qtile a b c fl) s = .next v ∧ v.mem = s.mem ∧
          v.work = s.work ++ [s.newWork fl (.qtile ws sat (s.cur.rsthr.getLsbD 63))] ∧
          v.cur = (if s.cur.rsthr.getLsbD 63 then { s.cur with f := s.cur.raised fl, wait := .engine s.nextId } else s.cur.accepted fl) ∧
          sat = (if d.rc then count false else 0) + (if d.cc then count true else 0) ∧
          ∀ y, y ∈ ws ↔ ∃ (byCols : Bool) (i : Nat), on byCols = true ∧ i ≤ d.rows ∧ ∃ r ∈ runsOf byCols i,
            y = (r.2.1, ((part byCols i).drop r.1).take r.2.2, false))) ∧
    ∀ (w : Work) (ws : List (Nat × List Byte × Bool)) (sat : Nat) (armed : Bool), s.memOk → s.findWork w.id = some w →
      w.kind = .qtile ws sat armed →
      (∀ r ∈ ws, s.runHeld ((s.group w.group).getD {}).place.coreIx r.1 r.2.1.length = false) →
      (ws.Pairwise fun q r => q.1 + q.2.1.length ≤ r.1 ∨ r.1 + r.2.1.length ≤ q.1) →
      ∃ t, exec (.qtileComplete w.id) s = .next t ∧ t.work = s.work.filter (fun y => y.id != w.id) ∧
        (∀ r ∈ ws, ∀ i, (h : i < r.2.1.length) → cellRead t.mem (r.1 + i) = r.2.1[i]) ∧
        (∀ j, (∀ r ∈ ws, j < r.1 ∨ r.1 + r.2.1.length ≤ j) → cellRead t.mem j = cellRead s.mem j) ∧
        ∀ g, s.cur = g → g.live = true → g.key = w.group → t.cur = ((s.finishWork w).cur.saturated armed sat)

/-- The bytes before a block's data (R188): the header's fields in their places, the count of the scales, the orientation and the scales
from byte 64, and zero everywhere else. -/
def Claim.BlockHeads : Prop :=
  ∀ (d : QDesc) (byCols : Bool) (scales : List Nat) (wmid epoch : Nat),
    d.qfmt < 2 ^ 8 → d.rows < 2 ^ 16 → d.cols < 2 ^ 16 → d.pitch < 2 ^ 16 → scales.length < 2 ^ 16 → wmid < 2 ^ 16 →
    (∀ x ∈ scales, x < 2 ^ 16) →
    let p := blockPrefix d byCols scales wmid epoch
    let n := 8 + 2 * scales.length
    let off := 64 + (n + 63) / 64 * 64
    let field := fun (o k : Nat) => ofLeBytes ((p.drop o).take k)
    p.length = off ∧ field 0 1 = d.qfmt ∧ field 1 1 = 0 ∧ field 2 2 = d.rows ∧ field 4 2 = d.cols ∧
    field 6 2 = (d.cols * qBits d.qfmt + 127) / 128 * 16 ∧ field 8 4 = off ∧ field 12 2 = wmid ∧ field 14 2 = 0 ∧
    field 16 4 = epoch % 2 ^ 32 ∧ field 20 44 = 0 ∧ field 64 2 = scales.length ∧ field 66 6 = (if byCols then 1 else 0) ∧
    (∀ i, (h : i < scales.length) → field (72 + 2 * i) 2 = scales[i]) ∧ ∀ i, 64 + n ≤ i → i < off → p[i]? = some 0

/-- QTILE writes the codes, the header and the scales of each block: the claims above together. -/
def Obligations.QuantiseTileWritesBlocks : Prop := Claim.QuantiseTile ∧ Claim.BlockHeads

/-- The address through a record (R159): an access lies outside where its index is not below EXTENT or its last byte lies behind the last
element; the swizzle exchanges bits [9:4] or [12:4] of the offset as R159's table says and keeps every other bit; the address is taken
modulo 2^57. -/
def Claim.RecordAddresses : Prop :=
  ∀ (b : BitVec 256) (x : Word) (w o : Nat),
    let i := x.toNat
    let bits_ := fun (swz : Nat) (f : Nat → Bool) => ∀ k, (swizzle swz o).testBit k = f k
    (recOutside b x w = true ↔ recExtent b ≤ i ∨ (recExtent b - 1) * recStride b + 2 ^ recEsize b < i * recStride b + w) ∧
    recVa b x = (recBase b + swizzle (recSwz b) (i * recStride b)) % 2 ^ 57 ∧ swizzle 0 o = o ∧
    bits_ 1 (fun k => if 4 ≤ k ∧ k ≤ 6 then o.testBit k != o.testBit (k + 3) else o.testBit k) ∧
    bits_ 2 (fun k => if 7 ≤ k ∧ k ≤ 9 then o.testBit k != o.testBit (k + 3) else o.testBit k) ∧
    bits_ 3 (fun k => match k with
      | 9 => o.testBit 9 | 8 => o.testBit 7 | 7 => o.testBit 5 | 6 => o.testBit 8 | 5 => o.testBit 6 | 4 => o.testBit 4 | _ => o.testBit k)

/-- LD, ST, ATOM and ACCRD (R160-R162, R164, R170, R177): while an acquire of the group is pending they wait; a bad record is BOUNDS
naming it for every active thread, a misaligned thread ALIGN, a thread outside a record without zero fill BOUNDS, a store or an atomic
without WR, or a store whose watermark is not bound, PROT naming the record, in that order, with the failing threads in TMASK, the
address of the lowest of them in ADDR (R256), and nothing done. With every line good the instruction is accepted: one piece of work on the selected flag, with an access for every thread
inside the record, at its address; the accesses of an atomic to system-atomic pages go to the host, one request for all the threads that
ADD to a word and one a thread for EXCH and CAS (R172); they wait for a pending lane access of their thread to the word, a release for
every pending lane access (R273, R275), and for room among the 4,096 requests at the host (R355). No memory changes yet. -/
def Claim.RecordAccess : Prop :=
  ∀ (s : State) (w : LaneFields) (i : Instr) (op : Nat) (acc : Acc) (line : Fin 32 → Tlb),
    (i, op, acc) ∈ [(Instr.ld w, 0xC0, Acc.read), (.st w, 0xC1, .write), (.atom w, 0xC4, .atomic), (.accrd w, 0xC7, .read)] →
    s.laneGood op w →
    let g := s.cur
    let act := activeMask g w
    let ts := s.laneThreads w
    let rn : Fin 16 := Fin.ofNat 16 (w.x.val % 16)
    let b := g.b[rn]
    let n := accBytes op w
    let idx := fun (t : Fin 32) => BitVec.ofNat 64 (g.rv w.a t).toNat + (if w.i then 0 else BitVec.ofInt 64 w.imm.toInt)
    let va := fun t => recVa b (idx t)
    let out := fun t => recOutside b (idx t) n = true
    let ctx := (s.launchOf g).ctx
    let readOnly := (op = 0xC1 ∨ op = 0xC4) ∧ recWr b = false
    let unbound := op = 0xC1 ∧ recWmen b = true ∧ (recWmid b = 0 ∨ s.boundId g.place.coreIx ctx (recWmslot b) ≠ recWmid b)
    let live := ts.filter fun t => !recOutside b (idx t) n
    let mask := fun (m : Word32) (p : Fin 32 → Prop) => ∀ t : Fin 32, m.getLsbD t.val = true ↔
      (if w.u then act.getLsbD t.val = true ∧ ∃ r ∈ ts, p r else t ∈ ts ∧ p t)
    let faults := fun (cause slot : Nat) (p : Fin 32 → Prop) (d : Word) => ∃ m, mask m p ∧ exec i s = .next (s.laneFault
      { cause := cause, slot := slot, tmask := m, addr := BitVec.ofNat 64 (va (lowest m)), detail := d, brec := some rn.val } g.clpos)
    let one := fun (t : Fin 32) => ({
      thread := t.val, key := (line t).key (va t), b := laneData g op w t, c := dataOf g w.c (tyBytes w.ty.val) t } : LaneAcc)
    let away := live.filter fun t => op == 0xC4 && (line t).sa
    let hosted := away ≠ []
    let count := if w.x.val / 16 = 0 then (away.map fun t => (one t).key).dedup.length else away.length
    let behind := hosted ∧ ((laneRelease 0xC4 w = true ∧ s.lanePending g.key = true) ∨ 4096 < s.nonPosted + count ∨
      ∃ t ∈ away, s.threadMeets g.key t.val ((one t).key, n) = true)
    (s.acquiring g.key = true → exec i s = .next s) ∧
    (s.acquiring g.key = false →
      (recBad b = true → exec i s = .next (s.laneFault { cause := causeBounds, slot := 7, tmask := act, brec := some rn.val } g.clpos)) ∧
      (recBad b = false →
        ((∃ t ∈ ts, va t % n ≠ 0) → faults causeAlign 10 (fun t => va t % n ≠ 0) 0) ∧
        ((∀ t ∈ ts, va t % n = 0) →
          ((∃ t ∈ ts, out t) → recOob b = false → faults causeBounds 10 out 0) ∧
          ((∀ t ∈ ts, ¬ out t) ∨ recOob b = true →
            (live ≠ [] → readOnly ∨ unbound → faults causeProt 7 (fun t => ¬ out t) (if op = 0xC4 then 2 else 1)) ∧
            (¬ readOnly → ¬ unbound → (∀ t ∈ live, s.lineAt g.place ctx acc (va t) = .good (line t)) →
              (hosted → hostOpOk w = true) →
              (behind → ∃ t, exec i s = .next t ∧ t = { s with tlb := t.tlb }) ∧
              (¬ behind → (∀ f, g.flagSel w = some f → g.f[f] < 1023) →
              ∃ (zero : Word32) (t : State) (reqs : List (List LaneAcc)), mask zero out ∧
                exec i s = .next (t.laneDone (laneDests op w)) ∧ t.mem = s.mem ∧
                t.nextId = s.nextId + 1 ∧ t.others = s.others ∧
                t.work = s.work ++ [{ id := s.nextId, group := g.key, ctx := ctx, die := g.place.die, team := g.team, flag := g.flagSel w,
                                      kind := if away.isEmpty then .laneMem op w (live.map one) zero act
                                              else .hostAtomic w ((live.filter fun u => !(line u).sa).map one) reqs zero act }] ∧
                t.hostOut = s.hostOut ++ reqs.map (s.hostRequest s.nextId (s.pasidOf ctx) w) ∧
                (w.x.val / 16 ≠ 0 → reqs = away.map fun u => [one u]) ∧
                (w.x.val / 16 = 0 → reqs.flatten.Perm (away.map one) ∧ (∀ r ∈ reqs, r ≠ [] ∧ ∀ x ∈ r, ∀ y ∈ r, x.key = y.key) ∧
                  reqs.Pairwise fun p q => ∀ x ∈ p, ∀ y ∈ q, x.key ≠ y.key) ∧ t.cur = { g with f := t.cur.f } ∧
                ∀ f : Fin 12, t.cur.f[f] = if g.flagSel w = some f then g.f[f] + 1 else g.f[f]))))))

/-- A lane memory instruction with a line that is not good (R161, R262): the threads whose lines are good commit, the group stops at the
instruction with the others in TMASK, and the cause is the first present of PROT, SEALED, REMOTE_LOCAL and PAGE; for PAGE alone it parks
and will replay those threads. A system-atomic page that cannot serve the operation is PROT naming the record (R172). A uniform
instruction has one line, its lowest active thread's, and names every active thread. No memory changes. -/
def Claim.PartialAccess : Prop :=
  ∀ (s : State) (w : LaneFields) (i : Instr) (op : Nat) (acc : Acc),
    (i, op, acc) ∈ [(Instr.ld w, 0xC0, Acc.read), (.st w, 0xC1, .write), (.atom w, 0xC4, .atomic), (.accrd w, 0xC7, .read)] →
    s.laneGood op w → s.acquiring s.cur.key = false →
    let g := s.cur
    let act := activeMask g w
    let ts := s.laneThreads w
    let b := g.b[Fin.ofNat 16 (w.x.val % 16)]
    let n := accBytes op w
    let idx := fun (t : Fin 32) => BitVec.ofNat 64 (g.rv w.a t).toNat + (if w.i then 0 else BitVec.ofInt 64 w.imm.toInt)
    let at_ := fun t => s.lineAt g.place (s.launchOf g).ctx acc (recVa b (idx t))
    let none_ := fun t => ∃ l, at_ t = .good l ∧ l.sa = true ∧ op = 0xC4 ∧ hostOpOk w = false
    let prot := fun t => at_ t = .prot ∨ none_ t
    let bad := fun t => (∀ l, at_ t ≠ .good l) ∨ none_ t
    recBad b = false → (∀ t ∈ ts, recVa b (idx t) % n = 0 ∧ recOutside b (idx t) n = false) →
    (op = 0xC1 ∨ op = 0xC4 → recWr b = true) → (op = 0xC1 → recWmen b = false) →
    (op = 0xC4 → s.nonPosted + ts.length ≤ 4096 ∧ (laneRelease 0xC4 w = false ∨ s.lanePending g.key = false) ∧
      ∀ t ∈ ts, ∀ l, at_ t = .good l → s.threadMeets g.key t.val (l.key (recVa b (idx t)), n) = false) →
    (∀ t ∈ ts, ∀ e, at_ t ≠ .zero e) → (∃ t ∈ ts, bad t) → (∀ f, g.flagSel w = some f → g.f[f] < 1023) →
    ∃ v : State, exec i s = .next v ∧ v.mem = s.mem ∧ v.cur.lq = g.lq ∧ v.cur.s = g.s ∧ v.cur.v = g.v ∧
      (∀ t : Fin 32, v.cur.tmask.getLsbD t.val = true ↔ if w.u then act.getLsbD t.val = true else t ∈ ts ∧ bad t) ∧
      ((∀ t ∈ ts, bad t) → v.work = s.work) ∧
      ((∃ t ∈ ts, ¬ bad t) → ∃ x accs, v.work = s.work ++ [x] ∧ x.kind.laneOp = some (op, w, accs) ∧
        ∀ t : Fin 32, (t ∈ ts ∧ ¬ bad t ↔ ∃ y ∈ accs, y.thread = t.val)) ∧
      let stopped := fun (cause slot : Nat) => ∃ f, v.cur.stop = .faulted f g.clpos ∧ f.cause = cause ∧ f.slot = slot
      (∀ t ∈ ts, prot t → (∀ u ∈ ts, u < t → ¬ prot u) → stopped causeProt (if at_ t = .prot then 10 else 7)) ∧
      ((∀ t ∈ ts, ¬ prot t) → (∃ t ∈ ts, at_ t = .sealed) → stopped causeSealed 10) ∧
      ((∀ t ∈ ts, ¬ prot t ∧ at_ t ≠ .sealed) → (∃ t ∈ ts, at_ t = .remote) → stopped causeRemoteLocal 10) ∧
      ((∀ t ∈ ts, ¬ prot t ∧ at_ t ≠ .sealed ∧ at_ t ≠ .remote) →
        ∃ gs f, (v.cur.stop = .parkedFull gs f g.clpos ∨ v.cur.stop = .parked gs f g.clpos) ∧ f.cause = causePage)

/-- Lane addresses are formed and checked against their record, thread by thread: the claims above together. -/
def Obligations.LaneAddressesAndRecordChecks : Prop := Claim.RecordAddresses ∧ Claim.RecordAccess ∧ Claim.PartialAccess

/-- LDS, STS, ATOMS and BKCMD (R168, R170, R173): a thread whose offset is not a multiple of the width (or SUMROW's slot of 16) is ALIGN,
one outside the team's window DECKLE naming the level, with the failing threads in TMASK; otherwise the instruction is accepted with an
access for every thread at its byte of the window. -/
def Claim.ScratchpadAccess : Prop :=
  ∀ (s : State) (w : LaneFields) (i : Instr) (op : Nat) (lvl : Fin 3),
    (i, op) ∈ [(Instr.lds w, 0xC2), (.sts w, 0xC3), (.atoms w, 0xC5), (.bkcmd w, 0xC6)] → s.laneGood op w → w.x.val % 4 = lvl.val →
    let g := s.cur
    let act := activeMask g w
    let ts := s.laneThreads w
    let n := accBytes op w
    let off := fun (t : Fin 32) => (BitVec.ofNat 64 (g.rv w.a t).toNat + (if w.i then 0 else BitVec.ofInt 64 w.imm.toInt) : Word).toNat
    let row := op = 0xC6 ∧ w.x.val / 16 = 11
    let sum := fun (t : Fin 32) => (srcB g w t).toNat
    let size := s.windowSize g lvl
    let misA := fun t => off t % n ≠ 0
    let misB := fun t => row ∧ sum t % 16 ≠ 0
    let outA := fun t => size < off t + n
    let outB := fun t => row ∧ size < sum t + 16
    let mask := fun (m : Word32) (p : Fin 32 → Prop) => ∀ t : Fin 32, m.getLsbD t.val = true ↔
      (if w.u then act.getLsbD t.val = true ∧ ∃ r ∈ ts, p r else t ∈ ts ∧ p t)
    let faults := fun (cause : Nat) (p q : Fin 32 → Prop) (d : Word) => ∃ m a slot, mask m (fun t => p t ∨ q t) ∧
      ((∃ t ∈ ts, p t) → slot = 10) ∧ ((∀ t ∈ ts, ¬ p t) → slot = 11) ∧
      exec i s = .next (s.laneFault { cause := cause, slot := slot, tmask := m, addr := a, detail := d } g.clpos)
    let accs := ts.map fun t => ({
      thread := t.val, key := s.windowKey g lvl (off t), b := if row then s.windowKey g lvl (sum t) else laneData g op w t
      c := dataOf g w.c (if op = 0xC6 then 4 else tyBytes w.ty.val) t } : LaneAcc)
    (s.acquiring g.key = true → exec i s = .next s) ∧
    (s.acquiring g.key = false →
      ((∃ t ∈ ts, misA t ∨ misB t) → faults causeAlign misA misB 0) ∧
      ((∀ t ∈ ts, ¬ misA t ∧ ¬ misB t) →
        ((∃ t ∈ ts, outA t ∨ outB t) → faults causeDeckle outA outB (BitVec.ofNat 64 lvl.val)) ∧
        ((∀ t ∈ ts, ¬ outA t ∧ ¬ outB t) → (∀ f, g.flagSel w = some f → g.f[f] < 1023) →
          ∃ t : State, exec i s = .next (t.laneDone (laneDests op w)) ∧
            t = { s with
              nextId := s.nextId + 1, cur := { g with f := t.cur.f }
              work := s.work ++ [{ id := s.nextId, group := g.key, ctx := (s.launchOf g).ctx, die := g.place.die, team := g.team, flag := g.flagSel w,
                                   kind := .laneMem op w accs 0 act }] } ∧
            ∀ f : Fin 12, t.cur.f[f] = if g.flagSel w = some f then g.f[f] + 1 else g.f[f])))

/-- Lane scratchpad accesses are checked against the alignment and the team's window, and accepted inside it: the claim above. -/
def Obligations.LaneScratchpadWindows : Prop := Claim.ScratchpadAccess

/-- LANE_MEMORY_COMPLETE (R162, R164, R165, R170, R174, R177) for a group that is current, with no poison and no row held: it waits while
an earlier instruction of the group meets it or a release orders it, and behind a burst of a stack core (R351); a load changes no memory and gives each committed thread's
register the bytes at its address; a store leaves in each byte what the last access in thread order wrote, and every other byte as it
was; an atomic or a beater command of one thread makes its word or slot what the tables say, giving the atomic's thread the old word;
SUMROW adds the sixteen words of its row to the slot; ACCRD gives its thread the slot's read-out and its flags (SlotAddition), and the
flag falls by one. -/
def Claim.LaneMemoryComplete : Prop :=
  ∀ (s : State) (x : Work) (op : Nat) (w : LaneFields) (accs : List LaneAcc) (zero act : Word32),
    s.findWork x.id = some x → x.kind = .laneMem op w accs zero act → s.cur.live = true → s.cur.key = x.group → s.memOk →
    s.cur.place.onStack = false →
    let n := accBytes op w
    let ready := s.laneBehind x op w accs = false ∧ ∀ a ∈ accs, s.refreshing s.cur.place a.key = false
    let cmd := w.x.val / 16
    let v : Nat → Int := fun y => if w.ty.val = 1 ∧ 2 ^ 31 ≤ y then (y : Int) - 2 ^ 32 else (y : Int)
    (s.laneBehind x op w accs = true → exec (.laneMemoryComplete x.id) s = .next s) ∧
    (ready → s.rows = [] → (∃ a ∈ accs, ∃ b ∈ s.bursts, s.behindBurst a.key b = true) →
      exec (.laneMemoryComplete x.id) s = .next (s.noteBurst accs)) ∧
    (ready → s.poisoned = [] → s.rows = [] → s.badBeaters = [] → (∀ a ∈ accs, ∀ b ∈ s.bursts, s.behindBurst a.key b = false) →
      ∃ t, exec (.laneMemoryComplete x.id) s = .next t ∧ t.work = s.work.filter (fun y => y.id != x.id) ∧
        t.cur.f = (s.finishWork x).cur.f ∧ t.cur.spc = (s.finishWork x).cur.spc ∧
        (op = 0xC0 ∨ op = 0xC2 → t.mem = s.mem ∧
          (w.u = false → (accs.map (·.thread)).Nodup → ∀ hd : w.d.val < 64, n ≤ 4 → zero = 0 →
            (∀ a ∈ accs, ∀ h : a.thread < 32, t.cur.v[w.d.val][a.thread] = BitVec.ofNat 32 (s.read a.key n)) ∧
            (∀ u : Fin 32, (∀ a ∈ accs, a.thread ≠ u.val) → t.cur.v[w.d.val][u] = s.cur.v[w.d.val][u]) ∧
            ∀ r : Fin 64, r.val ≠ w.d.val → t.cur.v[r] = s.cur.v[r])) ∧
        (op = 0xC1 ∨ op = 0xC3 → t.cur.v = s.cur.v ∧ t.cur.s = s.cur.s ∧
          (∀ pre a post, accs = pre ++ a :: post → ∀ i < n, (∀ q ∈ post, a.key + i < q.key ∨ q.key + n ≤ a.key + i) →
            cellRead t.mem (a.key + i) = BitVec.ofNat 8 (a.b / 2 ^ (8 * i))) ∧
          ∀ j, (∀ a ∈ accs, j < a.key ∨ a.key + n ≤ j) → cellRead t.mem j = cellRead s.mem j) ∧
        (op = 0xC7 → t.mem = s.mem ∧ (w.u = false → (accs.map (·.thread)).Nodup → w.d.val + 1 < 64 → zero = 0 →
          ∀ a ∈ accs, ∀ h : a.thread < 32, ∀ r : Fin 64, (r.val = w.d.val → t.cur.v[r][a.thread] = BitVec.ofNat 32 (slotRead (s.read a.key 16))) ∧
            (r.val = w.d.val + 1 → t.cur.v[r][a.thread] = BitVec.ofNat 32 (s.read a.key 16 / 2 ^ 120)))) ∧
        ∀ a, accs = [a] →
          let m := s.read a.key n
          (∀ j, j < a.key ∨ a.key + n ≤ j → op ≠ 0xC6 ∨ cmd ≠ 11 → cellRead t.mem j = cellRead s.mem j) ∧
          (op = 0xC4 ∨ op = 0xC5 → n ≤ 8 → m < 2 ^ (8 * n) → a.b < 2 ^ (8 * n) →
            t.read a.key n = (
              if cmd = 0 then (m + a.b) % 2 ^ (8 * n) else if cmd = 1 then (if v m ≤ v a.b then m else a.b)
              else if cmd = 2 then (if v m ≤ v a.b then a.b else m) else if cmd = 3 then m &&& a.b else if cmd = 4 then m ||| a.b
              else if cmd = 5 then m ^^^ a.b else if cmd = 6 then a.b else if cmd = 7 then (if m = a.c then a.b else m)
              else if a.b ≤ m then 0 else m + 1) ∧
            (∀ hd : w.d.val < 64, ∀ h : a.thread < 32, n = 4 → w.u = false → zero.getLsbD a.thread = false →
              t.cur.v[w.d.val][a.thread] = BitVec.ofNat 32 m)) ∧
          (op = 0xC6 → a.b < 2 ^ 32 →
            (cmd = 0 → t.read a.key 4 = (m + a.b) % 2 ^ 32) ∧ (cmd = 1 → t.read a.key 4 = if v m ≤ v a.b then m else a.b) ∧
            (cmd = 2 → t.read a.key 4 = if v m ≤ v a.b then a.b else m) ∧ (cmd = 3 → t.read a.key 4 = m ||| a.b) ∧
            (cmd = 4 → t.read a.key 4 = m &&& a.b) ∧ (cmd = 5 → t.read a.key 4 = m ^^^ a.b) ∧
            (cmd = 6 → t.read a.key 16 = slotAdd m a.b (BitVec.ofNat 8 a.c)) ∧
            (7 ≤ cmd → cmd ≤ 12 → cmd ≠ 11 → t.read a.key 4 = beaterNew cmd w.ty.val m a.b a.c) ∧
            (cmd = 13 → t.read a.key 16 = slotAdd (a.c % 256 * 2 ^ 112) a.b (BitVec.ofNat 8 a.c)) ∧
            (cmd = 11 → t.read a.b 16 = (List.range 16).foldl
              (fun l i => slotAdd l (s.read (a.key + 4 * i) 4) (BitVec.ofNat 8 a.c)) (s.read a.b 16) % 2 ^ 128) ∧
            (cmd = 14 → t.read a.key 16 = a.c % 256 * 2 ^ 112)))

/-- HOST_ATOMIC_COMPLETION (R172, R359), for a request of one thread: done at the host, it makes the word there what R170 says and gives the
thread the old one; an error leaves memory as it is, gives that thread 0, and is written to the log as a PCIE event where there is room.
Either way the request is answered: the next is awaited, and after the last the accesses on device pages are left, or the work is done. -/
def Claim.HostAtomics : Prop :=
  ∀ (s : State) (x : Work) (w : LaneFields) (a : LaneAcc) (acc : List LaneAcc) (reqs : List (List LaneAcc)) (zero act : Word32),
    s.findWork x.id = some x → x.kind = .hostAtomic w acc ([a] :: reqs) zero act → zero.getLsbD a.thread = false → s.cur.live = true → s.cur.key = x.group → s.memOk →
    s.cur.place.onStack = false → s.laneBehind x 0xC4 w [a] = false → s.poisoned = [] →
    let n := accBytes 0xC4 w
    let m := s.read a.key n
    let cmd := w.x.val / 16
    let left := if reqs = [] ∧ acc = [] then s.work.filter (fun y => y.id != x.id) else
      s.work.map fun y => if y.id = x.id then
        { y with kind := if reqs = [] then .laneMem 0xC4 w acc zero act else .hostAtomic w acc reqs zero act } else y
    (∃ t, exec (.hostAtomicCompletion x.id true) s = .next t ∧ t.work = left ∧
      (a.b < 2 ^ (8 * n) → t.read a.key n = if cmd = 0 then (m + a.b) % 2 ^ (8 * n) else if cmd = 6 then a.b else if cmd = 7 then
        (if m = a.c then a.b else m) else t.read a.key n) ∧
      (∀ j, j < a.key ∨ a.key + n ≤ j → cellRead t.mem j = cellRead s.mem j) ∧
      (∀ hd : w.d.val < 64, ∀ h : a.thread < 32, n = 4 → w.u = false → t.cur.v[w.d.val][a.thread] = BitVec.ofNat 32 m)) ∧
    ∃ t, exec (.hostAtomicCompletion x.id false) s = .next t ∧ t.work = left ∧ t.mem = s.mem ∧
      (∀ hd : w.d.val < 64, ∀ h : a.thread < 32, n = 4 → w.u = false → t.cur.v[w.d.val][a.thread] = 0) ∧
      (s.evUsed < 4032 → t.log.getLast?.map (·.kind) = some 0x22)

/-- The beater commands on floats (R174): MAXF and MINF are the selections of R40, SCALEF and ADDF the product and the sum rounded once to
nearest even with subnormals honoured, EXPSUB the power of two (R41, R42) of the rounded difference: 1.0 for equal finite values, and +0 for
b = +Inf; a NaN is the canonical one. -/
def Claim.BeaterFloats : Prop :=
  ∀ (m b c ty : Nat), m < 2 ^ 32 → b < 2 ^ 32 →
    let x := decodeF f32 false m
    let y := decodeF f32 false b
    let new := fun (cmd : Nat) => beaterNew cmd ty m b c
    let finite := m % 2 ^ 31 < 0x7F800000 ∧ b % 2 ^ 31 < 0x7F800000
    let minus := fun (z : Nat) => decide (2 ^ 31 ≤ z)
    new 7 = (selectF f32 false true m b).1 ∧ new 8 = (selectF f32 false false m b).1 ∧
    (x.isNan = true ∨ y.isNan = true → new 9 = 0x7FC00000 ∧ new 10 = 0x7FC00000 ∧ new 12 = 0x7FC00000) ∧
    (x.isNan = false → y.isNan = false → new 9 = (roundF f32 0 false (mulX x y)).1 ∧ new 12 = (roundF f32 0 false (addX 0 x y)).1 ∧
      new 10 = (transF 0x4D false false (roundF f32 0 false (addX 0 x y.neg)).1).1) ∧
    (finite →
      (∃ fl, f32.result 0 false (x.rat * y.rat) (minus m != minus b) (new 9, fl)) ∧
      (∃ fl, f32.result 0 false (x.rat + y.rat) (minus m && minus b) (new 12, fl)) ∧
      (∃ t fl, f32.result 0 false (x.rat - y.rat) (minus m && !minus b) (t, fl) ∧ new 10 = (transF 0x4D false false t).1) ∧
      (m = b → new 10 = 0x3F800000)) ∧
    (m % 2 ^ 31 < 0x7F800000 → b = 0x7F800000 → new 10 = 0)

/-- Lane loads, stores and atomics complete with exactly the stated bytes changed: the claims above together. -/
def Obligations.LaneMemoryCompletes : Prop := Claim.LaneMemoryComplete ∧ Claim.HostAtomics ∧ Claim.BeaterFloats

/-- What an addend does to a slot and what a slot reads as (R55-R57). The anchor is tested first, even for a NaN; then a NaN sets N, an
infinity P or M, a magnitude of 2^(A+36) or more R; any other addend, rounded once to nearest even on the grid 2^(A-52), is added to the
sum modulo 2^112. The read-out is the canonical NaN for N, or P with M, an infinity for P or M, and otherwise the sum rounded once. -/
def Claim.SlotAddition : Prop :=
  ∀ (l x : Nat) (a : BitVec 8), l < 2 ^ 128 → x < 2 ^ 32 →
    let anchor : Int := (BitVec.ofNat 8 (l / 2 ^ 112)).toInt
    let sum : Int := (BitVec.ofNat 112 l).toInt
    let y := decodeF f32 false x
    let neg := decide (2 ^ 31 ≤ x)
    let marks := fun (n : Nat) => slotAdd l x a = l ||| 2 ^ n
    let far := (2 : ℚ) ^ (anchor + 36) ≤ |y.rat|
    (a.toInt ≠ anchor → marks 124) ∧
    (a.toInt = anchor →
      (y.isNan = true → marks 120) ∧ (y = .inf false → marks 121) ∧ (y = .inf true → marks 122) ∧
      (x % 2 ^ 31 < 0x7F800000 → far → marks 123) ∧
      (x % 2 ^ 31 < 0x7F800000 → ¬ far → ∃ q : Nat, roundsInt 0 neg ((|y.rat * 2 ^ (52 - anchor)| : ℚ) : ℝ) q ∧
        slotAdd l x a = l / 2 ^ 112 * 2 ^ 112 + ((sum + if neg then -(q : Int) else q) % 2 ^ 112).toNat)) ∧
    let n := l.testBit 120
    let p := l.testBit 121
    let m := l.testBit 122
    (n = true ∨ (p = true ∧ m = true) → slotRead l = 0x7FC00000) ∧
    (n = false → p = true → m = false → slotRead l = 0x7F800000) ∧ (n = false → p = false → m = true → slotRead l = 0xFF800000) ∧
    (n = false → p = false → m = false → ∃ fl, f32.result 0 false ((sum : ℚ) * 2 ^ (anchor - 52)) false (slotRead l, fl))

/-- The order of the addends does not matter to a fixed-point slot (R5, R56): any two with their anchors give the same 16 bytes either
way round, whatever they are, NaNs, infinities and wrong anchors among them. -/
def Claim.SlotOrder : Prop :=
  ∀ (l x y : Nat) (a b : BitVec 8), l < 2 ^ 128 → x < 2 ^ 32 → y < 2 ^ 32 →
    slotAdd (slotAdd l x a) y b = slotAdd (slotAdd l y b) x a ∧ slotAdd l x a < 2 ^ 128

/-- The order of the addends does not matter to a fixed-point accumulator slot, and each addend adds what R56 says: the claims above
together. -/
def Obligations.LaneSlotsOrdered : Prop := Claim.SlotOrder ∧ Claim.SlotAddition

/-- GROUP_END (R112, R184, R302, R313): a group in EXIT ends once its lane queue is empty, its flags are zero and its remote operations are
answered, and not before: it is gone, a recorded denial joins its launch's, its retired instructions join its team's, and with the
last group of a team the team is gone. A group of NMRUN work adds its bytes to the arrival word, once the word's channel is not
being refreshed and no other stack core holds its row (R350, R352), and nothing else in memory changes. -/
def Claim.GroupEnds : Prop :=
  ∀ (s : State) (key : Nat) (g : Group), s.memOk → s.group key = some g →
    let done := g.wait = .exit ∧ s.residentRuns g = true ∧ g.lq = [] ∧ (∀ f : Fin 12, g.f[f] = 0) ∧ s.remotePending key = false
    let last := ∀ h ∈ s.groups, h.live = true → h.team = g.team → h.key = key
    let tm := s.teamOf g
    let late := ∃ id n w m k, g.nmrun = some (id, n) ∧ s.findWork id = some w ∧ w.kind = .nmrun m ∧ m.arrival = some k ∧
      (s.runRefreshing g.place k 8 = true ∨ s.runHeld g.place.coreIx k 8 = true)
    g.key = key → tm.key = g.team → (∃ u ∈ s.teams, u.key = g.team) →
    (¬ done → exec (.groupEnd key) s = .next s) ∧
    (done → late → ∃ t, exec (.groupEnd key) s = .next t ∧ t = { s with rows := t.rows }) ∧
    (done → ¬ late → ∃ t, exec (.groupEnd key) s = .next t ∧ t.group key = none ∧
      (¬ last → (t.team g.team).retired = tm.retired + g.retired + 1) ∧
      (last → ∀ u ∈ t.teams, u.key ≠ g.team) ∧
      (g.nmrun = none → ∀ k, cellRead t.mem k = cellRead s.mem k) ∧
      (∀ id n w m k, g.nmrun = some (id, n) → s.findWork id = some w → w.kind = .nmrun m → m.arrival = some k →
        t.read k 8 = arrAdd (s.read k 8) n % 2 ^ 64 ∧ ∀ j, j < k ∨ k + 8 ≤ j → cellRead t.mem j = cellRead s.mem j) ∧
      (g.remstat.d = true → tm.launch ∈ s.launches.map (·.key) → ¬ last →
        (t.launch tm.launch).denials = (s.launch tm.launch).denials ++ [(tm.die, tm.teamId.toNat, g.git, g.remstat.word)]))

/-- FAULT_RECORD_WRITE (R163, R253, R255-R260): once the stopped group's committed work is done, and the scalar instruction under way has
completed or been accepted, its record takes the next SEQ and, where no earlier record is held back, is written to the lowest free slot
of its context's fault queue, every field at its place, UNIT as R258 lays it out and zero between them; SPC is the first scalar
instruction that has not issued; the group's state is the record's. Where the launch has stopped meanwhile the record is answered as it
is written: its first byte is 0 and its slot stays free (R404; log 48, DEDUCED). FAULT_QUEUE_RETRY writes a record that was held back, once its time has come (R404). -/
def Claim.FaultRecords : Prop :=
  ∀ (s : State) (key pos i : Nat) (g : Group) (f : FaultInfo) (l : Tlb) (c : Ctx), s.group key = some g → g.key = key →
    let ctx := (s.launchOf g).ctx
    let va := c.fqbase + 64 * i
    let k := l.key va
    let free := i < c.fqlen ∧ (∀ e ∈ c.slots, e.1 ≠ i) ∧ ∀ j < i, ∃ e ∈ c.slots, e.1 = j
    let live := fun (n : Nat) => ∃ x ∈ s.launches, x.key = n ∧ x.stopped = false
    let p := g.place
    let plane := f.plane.getD p.plane
    let unit := s.pkgid * 2 ^ 24 + p.die * 2 ^ 21 + (match p.stack with
      | none => p.cluster * 2 ^ 19 + p.core * 2 ^ 17 + plane * 2 ^ 10
      | some (stack, core) => stack * 2 ^ 20 + core * 2 ^ 17 + p.lane * 2 ^ 10) + p.slot * 2 ^ 8
    let sizes := s.pkgid < 256 ∧ p.die < 8 ∧ p.cluster < 4 ∧ p.core < 4 ∧ plane < 128 ∧ p.lane < 64 ∧ p.slot < 4 ∧ ∀ q ∈ p.stack, q.1 < 2 ∧ q.2 < 8
    s.ctxs.find? (fun x => x.num == ctx) = some c → s.translate 0 ctx va = .leaf l →
    (∀ p, walkFrom s 0 ctx va walkLevels (s.ctx ctx).ptroot ≠ .zero p) → s.memOk →
    (g.stop = .faulted f pos →
      (s.settled key = false ∨ g.wait.goesOn = true → exec (.faultRecordWrite key) s = .next s) ∧
      (s.settled key = true → g.wait.goesOn = false → c.held = [] → free → ¬ live (s.launchOf g).key →
        ∃ t d, exec (.faultRecordWrite key) s = .next t ∧ t.faultSeq = s.faultSeq + 1 ∧ t.read k 1 = 0 ∧
          t.read (k + 56) 8 = (s.faultSeq + 1) % 2 ^ 64 ∧ t.ctxs.find? (fun x => x.num == ctx) = some d ∧ d.held = [] ∧ d.slots = c.slots) ∧
      (s.settled key = true → g.wait.goesOn = false → c.held = [] → free → live (s.launchOf g).key → ∃ t, exec (.faultRecordWrite key) s = .next t ∧ t.faultSeq = s.faultSeq + 1 ∧
        t.group key = some { g with stop := .recorded (s.faultSeq + 1) f pos } ∧
        (∃ d, t.ctxs.find? (fun x => x.num == ctx) = some d ∧ d.held = [] ∧
          d.slots = c.slots ++ [(i, s.faultSeq + 1, (s.launchOf g).key)]) ∧
        t.read k 1 = f.cause % 2 ^ 8 ∧ t.read (k + 2) 1 = f.slot % 2 ^ 8 ∧ t.read (k + 3) 1 = pos % 2 ^ 8 ∧
        t.read (k + 1) 1 = (if f.lane then 1 else 0) + (if f.part then 4 else 0) + (if g.place.onStack then 8 else 0) + (if f.hw then 16 else 0) ∧
        t.read (k + 4) 4 = f.tmask.toNat ∧ t.read (k + 8) 8 = g.nextScalar.toNat ∧ t.read (k + 16) 8 = (s.lpc g).toNat ∧
        t.read (k + 24) 8 = f.addr.toNat ∧ t.read (k + 32) 2 = (match f.brec with | some b => (16 + b) % 2 ^ 16 | none => 0) ∧
        t.read (k + 34) 1 = ctx % 2 ^ 8 ∧ t.read (k + 35) 1 = 0 ∧ t.read (k + 46) 2 = 0 ∧ (sizes → t.read (k + 36) 4 = unit) ∧ t.read (k + 40) 4 = (s.teamOf g).teamId.toNat ∧ t.read (k + 44) 1 = g.git % 2 ^ 8 ∧
        t.read (k + 45) 1 = (s.teamOf g).stage % 2 ^ 8 ∧ t.read (k + 48) 8 = f.detail.toNat ∧
        t.read (k + 56) 8 = (s.faultSeq + 1) % 2 ^ 64 ∧ ∀ j, j < k ∨ k + 64 ≤ j → cellRead t.mem j = cellRead s.mem j)) ∧
    ∀ (seq launch at_ : Nat) (bytes : List Byte) (told : Bool), bytes.length = 64 → c.held = [(seq, launch, bytes, told)] → live launch →
      (c.fqhold = none ∨ (c.fqhold = some at_ ∧ s.ns < at_) → exec (.faultQueueRetry ctx) s = .next s) ∧
      (c.fqhold = some at_ → at_ ≤ s.ns → free → ∃ t, exec (.faultQueueRetry ctx) s = .next t ∧ readCells t.mem k 64 = bytes ∧
        (∀ j, j < k ∨ k + 64 ≤ j → cellRead t.mem j = cellRead s.mem j) ∧ t.cur = s.cur ∧ t.others = s.others ∧
        ∃ d, t.ctxs.find? (fun x => x.num == ctx) = some d ∧ d.held = [] ∧ d.fqhold = none ∧ d.slots = c.slots ++ [(i, seq, launch)])

/-- WATCHDOG (R264, R265): once every group of a resident team has stood in a counted wait for the context's limit, every one of them stops
with WATCHDOG, DETAIL naming its wait, and takes a SEQ, in ascending GRPINTEAM order; before that, nothing happens. -/
def Claim.Watchdog : Prop :=
  ∀ (s : State) (team since : Nat), ((s.groups.filter (·.live)).map (·.key)).Nodup →
    let t := s.team team
    let gs := s.groups.filter fun g => g.live && g.team == team
    t.key = team → t.stuckSince = some since →
    (s.stuck t = false ∨ s.now < since + (s.ctx (s.launch t.launch).ctx).wdog → exec (.watchdog team) s = .next s) ∧
    (s.stuck t = true → since + (s.ctx (s.launch t.launch).ctx).wdog ≤ s.now →
      (∀ g ∈ gs, g.lq = [] ∧ s.settled g.key = true) →
      ∃ (u : State) (seq : Nat → Nat), exec (.watchdog team) s = .next u ∧ u.faultSeq = s.faultSeq + gs.length ∧
        (∀ g ∈ gs, ∃ n, Wait.counted g.wait = some n ∧ s.faultSeq < seq g.key ∧ seq g.key ≤ s.faultSeq + gs.length ∧
          u.group g.key = some { g with
            stop := .recorded (seq g.key) { cause := causeWatchdog, detail := BitVec.ofNat 64 n } 0, wait := .none, tmask := 0xFFFFFFFF }) ∧
        ∀ g ∈ gs, ∀ h ∈ gs, g.git < h.git → seq g.key < seq h.key)

/-- A group's end, its fault record and the watchdog act on the launch as stated: the claims above together. -/
def Obligations.GroupEndsAndFaultRecords : Prop := Claim.GroupEnds ∧ Claim.FaultRecords ∧ Claim.Watchdog

/-- Page requests (R330, R331, R360): the next request of the die's next group goes to the host with its PASID, its group's index and
granule, the last of a group marked, while the die may hold one more unanswered; a response that names an outstanding group frees
its entries: success lets a group parked on them go on, with the unfinished threads of an instruction committed in part, and frees the
other entries on a page that it maps but for the unsent ones of a group that has begun to leave; failure makes the group fault with PAGE at
the same place; a response that names none is discarded. A new allowance takes effect, up to the capacity of 8,192 requests (log 24, PRESUMED). -/
def Claim.PageRequests : Prop :=
  ∀ (s : State) (die grp i n pasid : Nat) (m : Merge) (r : List Merge),
    let pid := if h : m.ctx < 64 then s.ctxPasid[m.ctx].toNat % 2 ^ 20 else 0
    let sharesPage := fun (p : Prg) (e : Merge) => e.ctx = p.ctx ∧ ∃ a ∈ s.merges, a.group = p.group ∧ ∃ v : Nat,
      (s.translate p.die p.ctx e.granule).page = some v ∧ (s.translate p.die p.ctx a.granule).page = some v
    (s.nextGroup die = none → exec (.pageRequestSend die) s = .next s) ∧
    (s.nextGroup die = some grp → s.merges.filter (fun x => x.group == grp && !x.sent) = m :: r →
      (s.allowed die = false → exec (.pageRequestSend die) s = .next s) ∧
      (s.allowed die = true → s.prgIndex grp = some i → ∃ t, exec (.pageRequestSend die) s = .next t ∧
        t = { s with merges := t.merges, prgOut := t.prgOut, prgQueue := t.prgQueue, hostOut := t.hostOut } ∧
        t.hostOut = s.hostOut ++ [.pageRequest pid i m.granule m.write r.isEmpty] ∧
        t.merges = s.merges.map (fun x => if x = m then { x with sent := true } else x) ∧
        (r = [] → t.prgQueue = s.prgQueue.filter (fun q => q.2 != grp)) ∧ (r ≠ [] → t.prgQueue = s.prgQueue) ∧
        ((∀ g ∈ s.prgOut, g.group ≠ grp) → t.prgOut = s.prgOut ++ [{ idx := i, pasid := pid, group := grp, die := die, ctx := m.ctx, count := 1 }]))) ∧
    (∀ ok, (∀ p ∈ s.prgOut, p.pasid ≠ pasid ∨ p.idx ≠ i) → exec (.pageRequestResponse pasid i ok) s = .next s) ∧
    (∀ (ok : Bool) (p : Prg) (gs : List Nat) (f : FaultInfo) (pos : Nat),
      s.prgOut.find? (fun q => q.pasid == pasid && q.idx == i) = some p → s.cur.live = true →
      s.cur.stop = .parked gs f pos ∨ s.cur.stop = .parkedFull gs f pos → gs ≠ [] →
      (∀ a ∈ gs, ∃ e ∈ s.merges, e.group = p.group ∧ e.granule = a ∧ e.die = s.cur.place.die ∧ e.ctx = (s.launchOf s.cur).ctx) →
      ∃ t, exec (.pageRequestResponse pasid i ok) s = .next t ∧
        t = { s with prgOut := t.prgOut, merges := t.merges, cur := t.cur, others := t.others } ∧
        t.prgOut = s.prgOut.filter (fun q => !(q.pasid == pasid && q.idx == i)) ∧
        (∀ e, e ∈ t.merges ↔ e ∈ s.merges ∧ e.group ≠ p.group ∧
          (ok = false ∨ ¬ sharesPage p e ∨ (e.sent = false ∧ ∃ q ∈ t.prgOut, q.group = e.group))) ∧
        t.cur = if ok then { s.cur with stop := .running, replay := if f.part then f.tmask else s.cur.replay }
          else { s.cur with stop := .faulted { f with detail := f.detail ||| 4 } pos }) ∧
    exec (.outstandingPageRequestAllocation n) s = .next { s with allowance := min n 8192 }

/-- ZERO_ON_ALLOCATE (R329, R333): the frame of the page is zero, its leaf entry loses ZA and nothing else, no other byte changes, and a
group that waited for it goes on; where no walk waits for a zeroing, nothing happens. REPLICA_FILL (R334): a granule of a sealed page
homed on another die gets a replica while the die's pool has room, and no byte that can be read changes. -/
def Claim.PagesFilled : Prop :=
  ∀ (s : State) (ctx va page at_ e size die : Nat) (l : Tlb), s.memOk →
    let root := (s.ctx ctx).ptroot
    let k := if e.testBit 64 then pasidKey (s.pasidOf ctx) (entryAddr e) else entryAddr e
    (walkFrom s 0 ctx va walkLevels root = .zero page → zaWalk s va walkLevels root = some (at_, e, size) →
      at_ + 16 ≤ k ∨ k + 2 ^ size ≤ at_ → e < 2 ^ 128 → e.testBit 8 = true →
      ∃ t, exec (.zeroOnAllocate ctx va) s = .next t ∧ (∀ i < 2 ^ size, cellRead t.mem (k + i) = 0) ∧ t.read at_ 16 = e - 2 ^ 8 ∧
        (∀ j, j < k ∨ k + 2 ^ size ≤ j → j < at_ ∨ at_ + 16 ≤ j → cellRead t.mem j = cellRead s.mem j) ∧
        t.cur = { s.cur with stop := t.cur.stop } ∧ ((∀ a, s.cur.stop ≠ .zeroing a) → t.cur.stop = s.cur.stop) ∧
        ∀ a, s.cur.stop = .zeroing a → (∀ p, t.translate s.cur.place.die (s.launchOf s.cur).ctx a ≠ .zero p) → t.cur.stop = .running) ∧
    ((∀ p, walkFrom s 0 ctx va walkLevels root ≠ .zero p) → exec (.zeroOnAllocate ctx va) s = .next s) ∧
    (s.translate die ctx va = .leaf l →
      let r : Replica := { die := die, ctx := ctx, granule := va, page := l.va, size := l.size }
      (l.sealed = false ∨ l.hm = true ∨ l.pa / 2 ^ 37 = die → exec (.replicaFill die ctx va) s = .next s) ∧
      (l.sealed = true → l.hm = false → l.pa / 2 ^ 37 ≠ die → va % 2 ^ 16 = 0 → r ∉ s.replicas →
        ((s.replicas.filter fun x => x.die == die).length + 1) * 2 ^ 16 ≤ s.params.replicaGiB * 2 ^ 30 →
        ∃ t, exec (.replicaFill die ctx va) s = .next t ∧ t = { s with tlb := t.tlb, replicas := s.replicas ++ [r] }))

/-- ATS (R361): a translation that the host gives is kept with its size, the oldest of 4,096 going first; an invalidation drops those that
reach into its range at once, and is answered when no work that may have used them is left, whatever other invalidation still waits; a
request of no bytes answers the first one that waits and is ready. -/
def Claim.AddressTranslationService : Prop :=
  ∀ (s : State) (pasid addr len : Nat) (r : Translated),
    let rest := s.ats.filter fun q => !(q.1 == pasid && q.2.1 == addr)
    let kept := s.ats.filter fun q => !(q.1 == pasid && q.2.1 < addr + len && addr < q.2.1 + 2 ^ q.2.2.1)
    let mine := fun (w : Work) => ∃ h : w.ctx < 64, s.ctxPasid[w.ctx].toNat % 2 ^ 20 = pasid
    let told := s.hostOut ++ [.invalidateCompletion pasid addr]
    let ready := fun (w : Nat × Nat × List Nat) => w.1 = pasid ∧ w.2.1 = addr ∧ ∀ x ∈ s.work, x.id ∉ w.2.2
    exec (.translationCompletion pasid addr none) s = .next { s with ats := rest } ∧
    (rest.length ≤ 4095 → exec (.translationCompletion pasid addr (some r)) s = .next { s with ats := rest ++ [(pasid, addr, r.size, r.addr)] }) ∧
    (4095 < rest.length → exec (.translationCompletion pasid addr (some r)) s =
      .next { s with ats := rest.drop (rest.length - 4095) ++ [(pasid, addr, r.size, r.addr)] }) ∧
    (len ≠ 0 →
      ((∀ w ∈ s.work, ¬ mine w) → exec (.atsInvalidate pasid addr len) s = .next { s with ats := kept, hostOut := told }) ∧
      ((∃ w ∈ s.work, mine w) → ∃ t ids, exec (.atsInvalidate pasid addr len) s = .next t ∧
        t = { s with ats := kept, atsWaits := s.atsWaits ++ [(pasid, addr, ids)] } ∧ ∀ n, n ∈ ids ↔ ∃ w ∈ s.work, mine w ∧ w.id = n)) ∧
    ((∀ w ∈ s.atsWaits, ¬ ready w) → exec (.atsInvalidate pasid addr 0) s = .next s) ∧
    ∀ (before after : List (Nat × Nat × List Nat)) (w : Nat × Nat × List Nat), s.atsWaits = before ++ w :: after → ready w →
      (∀ x ∈ before, ¬ ready x) → exec (.atsInvalidate pasid addr 0) s = .next { s with atsWaits := before ++ after, hostOut := told }

/-- An absent page is requested, filled and the parked group resumed: the claims above together. -/
def Obligations.PagesRequestedAndFilled : Prop := Claim.PageRequests ∧ Claim.PagesFilled ∧ Claim.AddressTranslationService

/-- Writes of BAR0's registers (R356-R358, R394): CTXPASID while its context does not exist, BAR2WIN, the base and the completion word of a
queue that is not enabled, the MSI-X table and the parameter block's address keep their writable bits; every other write has no
effect. A TAIL of the event log lets held entries in (R385); an atomic to a BAR is Unsupported Request (R355); DOE discovery names its
three protocols in turn, in the bytes of PCI Express, and the mask bits of the MSI-X table are where PCI Express has them (log 24,
PRESUMED). While an access of the host waits, each later one waits behind it, in arrival order (R352, R359). That a write of
a register without a writable field has no effect is the model's choice (log 52). -/
def Claim.HostRegisters : Prop :=
  ∀ (s : State) (off bar n : Nat) (val : Word) (tail : BitVec 32) (c : Fin 64) (e : LogEntry),
    let put := fun (o : Nat) (t : State) => exec (.registerWrite o val) s = .next t
    let x := s.queue n
    (∀ (prio : Nat) (data : List Byte), s.hostPending ≠ [] → ∀ i ∈ [.registerWrite off val, .queueEnable n prio, .queueDisable n prio,
        .qtailWrite n tail, .evtailWrite tail, .parameterBlockLoad, .bar2Read off n, .bar2Write off data],
      exec i s = .next { s with hostPending := s.hostPending ++ [i] }) ∧
    exec (.barAtomicOp bar off) s = .next { s with hostOut := s.hostOut ++ [.unsupported, .aer false 20] } ∧
    (n < 3 → exec (.doeDiscovery n) s = .next { s with hostOut := s.hostOut ++ [.doe [1, 0, BitVec.ofNat 8 n, BitVec.ofNat 8 ((n + 1) % 3)]] }) ∧
    (s.hostPending = [] →
    (s.hasCtx c.val = false → put (0x8000 + 8 * c.val) { s with ctxPasid := s.ctxPasid.set c (val &&& 0x800FFFFF) }) ∧
    (s.hasCtx c.val = true → put (0x8000 + 8 * c.val) s) ∧
    put 0x9000 { s with bar2win := val &&& 0xFFC0000000 } ∧ put 0x180000 { s with pbAddr := val &&& 0xFFFFFFFFFFFFFFC0 } ∧
    (n < 256 → x.en = false → put (0x10000 + 64 * n) (s.setQueue { x with base := val &&& 0x01FFFFFFFFFFFFC0 }) ∧
      put (0x10000 + 64 * n + 8) (s.setQueue { x with comp := val &&& 0x01FFFFFFFFFFFFF8 })) ∧
    (n < 256 → x.en = true → put (0x10000 + 64 * n) s ∧ put (0x10000 + 64 * n + 8) s) ∧
    (off ≠ 0x9000 → off ≠ 0x180000 → off < 0x8000 ∨ (0x8200 ≤ off ∧ off < 0x10000) ∨ (0x14000 ≤ off ∧ off < 0x20000) ∨ 0x21040 ≤ off →
      put off s) ∧
    (off < 0x1040 → off % 8 = 0 → ∃ t, put (0x20000 + off) t ∧ t.bar0 (0x20000 + off) = val ∧
      t.mem = s.mem ∧ t.cur = s.cur ∧ (∀ o, o < 0x1040 → o ≠ off → t.bar0 (0x20000 + o) = s.bar0 (0x20000 + o)) ∧
      (off % 16 = 8 → val.getLsbD 32 = false → off / 16 ∈ s.msixPending → t.hostOut = s.hostOut ++ [.msix (off / 16)])) ∧
    (s.evHeld = [] → exec (.evtailWrite tail) s = .next { s with evTail := tail }) ∧
    (s.evHeld = [e] → (s.evHead + 2 ^ 32 - tail.toNat) % 2 ^ 32 < 4096 → ∃ t, exec (.evtailWrite tail) s = .next t ∧ t.evTail = tail ∧
      t.evHeld = [] ∧ t.evHead = s.evHead + 1 ∧ t.log.getLast? = some { e with seq := s.evHead, time := s.ns } ∧ t.mem = s.mem ∧ t.cur = s.cur))

/-- The aperture (R357, R359, R378): BAR2 shows the device's frames from the window's base, its bits below BAR2's size ignored; a read
gives the bytes there, marked where they are poisoned, a write stores them and no others, and neither is checked against a page;
beyond the frames it is Unsupported Request. A row that a stack core holds makes the access wait, to be performed when the row is free
(R352). -/
def Claim.Aperture : Prop :=
  ∀ (s : State) (off len : Nat) (data : List Byte), s.memOk → s.hostPending = [] →
    let a := s.bar2win.toNat / 2 ^ s.bar2Log * 2 ^ s.bar2Log + off
    let unsupported : Out := .next { s with hostOut := s.hostOut ++ [.unsupported, .aer false 20] }
    (2 ^ 40 < a + len → s.runHeld 224 a len = false → exec (.bar2Read off len) s = unsupported) ∧
    (2 ^ 40 < a + data.length → s.runHeld 224 a data.length = false → exec (.bar2Write off data) s = unsupported) ∧
    (a + len ≤ 2 ^ 40 → s.runHeld 224 a len = false → ∃ t, exec (.bar2Read off len) s = .next t ∧ t.mem = s.mem ∧ t.cur = s.cur ∧
      HostMsg.bar2Data ((List.range len).map fun i => cellRead s.mem (a + i)) (s.poisonedAt a len) ∈ t.hostOut) ∧
    (a + data.length ≤ 2 ^ 40 → s.runHeld 224 a data.length = false → ∃ t, exec (.bar2Write off data) s = .next t ∧
      (∀ i, (h : i < data.length) → cellRead t.mem (a + i) = data[i]) ∧
      (∀ j, j < a ∨ a + data.length ≤ j → cellRead t.mem j = cellRead s.mem j) ∧
      t = { s with mem := t.mem, poisoned := t.poisoned, poisonSeen := t.poisonSeen, soft := t.soft }) ∧
    (s.runHeld 224 a data.length = true → exec (.bar2Write off data) s =
      .next { s.noteRun 224 a data.length with hostPending := [.bar2Write off data] }) ∧
    (s.runHeld 224 a len = true → exec (.bar2Read off len) s = .next { s.noteRun 224 a len with hostPending := [.bar2Read off len] })

/-- PARAMETER_BLOCK_LOAD (R394): refused with its error code while a context exists, where the header or the body is malformed, the
signature does not hold or the version is below the fused minimum; otherwise the block's fields are in force and the load is logged.
Nothing else of the device changes. -/
def Claim.ParameterBlock : Prop :=
  ∀ s : State, s.hostPending = [] →
    let k := hostKey s.pbAddr.toNat
    let head := s.read k 16
    let len := bits head 127 96
    let bs := readCells s.mem k len
    let b := ofLeBytes bs
    let good := bits head 31 0 = 0x4D524150 ∧ bits head 47 32 = 1 ∧ bits head 63 48 = 0 ∧ len % 64 = 0 ∧ 192 ≤ len ∧ len ≤ 2 ^ 20
    let signed_ := Config.signatureValid (bs.take (len - 96)) (bs.drop (len - 96)) = true
    let fails := fun (code : Nat) => exec .parameterBlockLoad s = .next { s with params := { s.params with err := code } }
    (s.ctxs ≠ [] → fails 0x08) ∧
    (s.ctxs = [] → ¬ good → fails 0x01) ∧
    (s.ctxs = [] → good → ¬ signed_ → fails 0x09) ∧
    (s.ctxs = [] → good → signed_ → blockBodyBad b len = true → fails 0x01) ∧
    (s.ctxs = [] → good → signed_ → blockBodyBad b len = false → bits b 95 64 < Config.fusedMinimumSvn → fails 0x0C) ∧
    (s.ctxs = [] → good → signed_ → blockBodyBad b len = false → Config.fusedMinimumSvn ≤ bits b 95 64 →
      ∃ t, exec .parameterBlockLoad s = .next t ∧ t.mem = s.mem ∧ t.cur = s.cur ∧ t.params.loaded = true ∧ t.params.err = 0 ∧
        t.params.svn = bits b 95 64 ∧ t.params.drain = bits b 191 128 ∧ t.params.replicaGiB = bits b 223 192 ∧
        t.params.migrationGiB = bits b 255 224 ∧ t.params.slack = bits b 271 256 ∧ t.params.maxVolt = bits b 287 272 ∧
        t.params.mxChecks = bits b 303 288 ∧ t.params.chBursts = bits b 319 304 ∧ t.params.spadWords = bits b 463 448 ∧
        (s.evUsed < 4032 → t.log.getLast?.map (·.kind) = some 0x30))

/-- Host reads and writes of registers, aperture and parameter block have their stated effect: the claims above together. -/
def Obligations.HostRegisterAccess : Prop := Claim.HostRegisters ∧ Claim.Aperture ∧ Claim.ParameterBlock

/-- Queue registers (R298, R299): enabling a queue starts its counts again and zeroes its completion word, while entries that have started
run on to their end, those complete but not yet counted getting their status records; an enabled queue takes only a new priority;
disabling stops further entries and gives up a WAIT; a TAIL that is ahead appends entries and one that is not is ignored. -/
def Claim.QueueRegisters : Prop :=
  ∀ (s : State) (q prio : Nat) (tail : BitVec 32), s.memOk → s.hostPending = [] → q < 256 →
    let x := s.queue q
    let p := min (prio % 64) 47
    let d := (tail - x.tail).toNat
    let y := { x with tail := tail, appended := x.appended + d }
    (x.en = true → exec (.queueEnable q prio) s = .next (s.setQueue { x with prio := p })) ∧
    (x.en = false → ∃ t, exec (.queueEnable q prio) s = .next t ∧ t.read (hostKey (bits x.comp.toNat 56 3 * 8)) 8 = 0 ∧
      t.queue q = { x with
        en := true, prio := p, tail := 0, appended := x.started, counted := x.started, first := x.started
        open_ := x.open_.filter fun f => f.done.isNone, waiting := none } ∧
      (∀ (f : Entry) (bs : List Byte), x.open_ = [f] → f.done = some bs → bs.length = 16 → f.ref.status ≠ 0 →
        f.ref.status + 16 ≤ bits x.comp.toNat 56 3 * 8 ∨ bits x.comp.toNat 56 3 * 8 + 8 ≤ f.ref.status →
        readCells t.mem (hostKey f.ref.status) 16 = bs) ∧
      ∀ n, n ≠ q → t.queue n = s.queue n) ∧
    exec (.queueDisable q prio) s = .next (s.setQueue { x with en := false, prio := p, waiting := none }) ∧
    (x.en = false ∨ 2 ^ 31 ≤ d → exec (.qtailWrite q tail) s = .next s) ∧
    (x.en = true → d < 2 ^ 31 → (∀ h, (s.setQueue y).nextEntry q = some h → h.cmd.isSome = true) →
      exec (.qtailWrite q tail) s = .next (s.setQueue y)) ∧
    (x.en = true → d < 2 ^ 31 → ∀ h, (s.setQueue y).nextEntry q = some h → h.cmd = none → x.appended + d = x.started + 1 →
      exec (.qtailWrite q tail) s = .next (((s.setQueue y).startEntry h).refuse h.ref 0x01))

/-- A command runs only as the next entry of its queue (R299, R300): where the queue is disabled, held by a WAIT, empty, or its next entry
is a fence or barrier that must wait, or another, nothing happens. -/
def Claim.CommandOrder : Prop :=
  ∀ (s : State) (e : EntryRef) (i : Instr) (p : LaunchPayload) (cp : CtxPayload) (a b c d : Nat) (v : Word) (add : Bool) (g : BitVec 8)
    (u : BitVec 32),
    let x := s.queue e.queue
    (x.en = false ∨ x.waiting.isSome = true ∨ x.appended ≤ x.started → s.nextEntry e.queue = none) ∧
    (∀ h, s.nextEntry e.queue = some h → h.ref.queue = e.queue ∧ h.ref.n = x.started + 1) ∧
    (i ∈ [.launch e p, .copy e a b c d, .signal e a v add, .wait e a v, .ctxcreate e cp, .ctxdestroy e a, .wmalloc e a b g, .wmfree e a b c,
        .tlbinv e a b c, .calload e a, .health e a, .retry e a b, .terminate e a b, .release e a u] →
      (∀ h, s.nextEntry e.queue = some h → ¬ (h.cmd = some i ∧ h.ref = e)) → s.waitsOf e i = none → exec i s = .next s)

/-- The completion of an entry (R301, R302): once every earlier entry of its queue is complete, its status record, at the address it names,
holds the code, the reason, the denials, the result and the detail; then the completion word holds the number of entries complete
since the queue was enabled, and where the entry asks for one a message goes out, or is kept pending while its vector is masked (log 24,
PRESUMED). Before that nothing is written. Of an entry that had
started before the queue was enabled again only the status record is written (R298). -/
def Claim.EntryCompletion : Prop :=
  ∀ (s : State) (e : EntryRef) (x : Queue) (f : Entry) (code reason denials result detail : Nat), s.memOk →
    s.queues.find? (fun y => y.q == e.queue) = some x → f.ref = e → f ∈ x.open_ →
    let t := s.complete e code reason denials result detail
    let st := hostKey e.status
    let word := bits x.comp.toNat 56 3 * 8
    let cw := hostKey word
    let masked := (s.msixWord (16 * e.queue + 8)).getLsbD 32 = true
    (e.n ≤ x.first → (t.queue e.queue).open_ = x.open_.filter (fun g => g.ref != e) ∧ (t.queue e.queue).counted = x.counted ∧
      t.hostOut = s.hostOut ∧ (e.status ≠ 0 → t.read st 1 = code % 2 ^ 8 ∧ t.read (st + 1) 1 = reason % 2 ^ 8) ∧
      ∀ j, j < st ∨ st + 16 ≤ j → cellRead t.mem j = cellRead s.mem j) ∧
    (x.first < e.n → (∃ g ∈ x.open_, g.ref.n = x.counted + 1 ∧ g.ref ≠ e) → (x.open_.map (·.ref.n)).Nodup →
      (∀ g ∈ x.open_, g.ref.n = x.counted + 1 → g.done = none) → t.mem = s.mem ∧ t.hostOut = s.hostOut) ∧
    (x.first < e.n → x.open_ = [f] → e.n = x.counted + 1 → e.status ≠ 0 → e.status + 16 ≤ word ∨ word + 8 ≤ e.status →
      t.read st 1 = code % 2 ^ 8 ∧ t.read (st + 1) 1 = reason % 2 ^ 8 ∧ t.read (st + 2) 2 = min denials 0xFFFF ∧
      t.read (st + 4) 4 = result % 2 ^ 32 ∧ t.read (st + 8) 8 = detail % 2 ^ 64 ∧
      t.read cw 8 = (x.counted + 1 - x.first) % 2 ^ 64 ∧ (t.queue e.queue).counted = x.counted + 1 ∧ (t.queue e.queue).open_ = [] ∧
      (∀ j, j < st ∨ st + 16 ≤ j → j < cw ∨ cw + 8 ≤ j → cellRead t.mem j = cellRead s.mem j) ∧
      t.hostOut = (if e.notify ∧ ¬ masked then s.hostOut ++ [.msix e.queue] else s.hostOut) ∧ t.cur = s.cur ∧ t.others = s.others)

/-- SIGNAL and WAIT (R303): SIGNAL writes its value to host memory, or adds it, and completes; WAIT completes at once where the word has
reached its value, and otherwise holds its queue until it has. -/
def Claim.SignalAndWait : Prop :=
  ∀ (s : State) (e : EntryRef) (va : Nat) (val : Word) (add : Bool) (h : Head), s.memOk → s.nextEntry e.queue = some h → h.ref = e →
    let u := s.startEntry h
    let old := s.read (hostKey va) 8
    (h.cmd = some (.signal e va val add) → ∃ t : State, exec (.signal e va val add) s = .next (t.complete e 0) ∧
      t.read (hostKey va) 8 = (if add then (old + val.toNat) % 2 ^ 64 else val.toNat) ∧
      (∀ j, j < hostKey va ∨ hostKey va + 8 ≤ j → cellRead t.mem j = cellRead s.mem j) ∧ t.queues = u.queues ∧ t.cur = s.cur) ∧
    (h.cmd = some (.wait e va val) →
      (val.toNat ≤ old → exec (.wait e va val) s = .next (u.complete e 0)) ∧
      (old < val.toNat → exec (.wait e va val) s = .next (u.setQueue { u.queue e.queue with waiting := some (e, va, val) })))

/-- QUEUE_WAIT_SATISFIED (R303): a WAIT that holds its queue completes once its word has reached its value, and not before. -/
def Claim.WaitSatisfied : Prop :=
  ∀ (s : State) (q va : Nat) (e : EntryRef) (val : Word), (s.queue q).waiting = some (e, va, val) →
    (s.read (hostKey va) 8 < val.toNat → exec (.queueWaitSatisfied q) s = .next s) ∧
    (val.toNat ≤ s.read (hostKey va) 8 →
      exec (.queueWaitSatisfied q) s = .next ((s.setQueue { s.queue q with waiting := none }).complete e 0))

/-- Queue entries start and complete in order, and signals and waits act as stated: the claims above together. -/
def Obligations.QueueCommandsInOrder : Prop :=
  Claim.QueueRegisters ∧ Claim.CommandOrder ∧ Claim.EntryCompletion ∧ Claim.SignalAndWait ∧ Claim.WaitSatisfied

/-- CTXCREATE (R305, R320, R363): a context whose PASID is not valid or whose record table is not in device memory is refused with reason
0x01, a number or a FABID in use with 0x08; otherwise the context exists with the payload's fields, its records are zero, and the entry
completes. CTXDESTROY stops the context's launches; once none of them, nor any work, remote operation or page request of it, is left, its
translations, replicas, windows and partials, and the scratchpad bytes it left behind, are gone, and so is the context (R306). -/
def Claim.Contexts : Prop :=
  ∀ (s : State) (e : EntryRef) (p : CtxPayload) (h : Head) (n k : Nat), s.nextEntry e.queue = some h → h.ref = e →
    let u := s.startEntry h
    let pages := tablePages p.wmtab
    let c : Ctx := {
      num := p.ctx, ptroot := p.ptroot, shbase := p.shbase, shsize := p.shsize, wmtab := p.wmtab, fqbase := p.fqbase, fqlen := p.fqlen
      debug := p.debug, wdog := 2 ^ (if p.wdog = 0 then 32 else p.wdog), fabid := p.fabid, savebase := p.savebase, savesize := p.savesize }
    let v : State := { u with ctxs := s.ctxs ++ [c] }
    let size := 256 * (p.wmtab.toNat % 2 ^ 16)
    let apart := fun mem => ∀ j, j < k ∨ k + size ≤ j → cellRead mem j = cellRead s.mem j
    let valid := ∃ hc : p.ctx < 64, s.ctxPasid[p.ctx].getLsbD 31 = true
    let taken := s.hasCtx p.ctx = true ∨ 64 ≤ s.ctxs.length ∨ (p.fabid ≠ 0 ∧ ∃ x ∈ s.ctxs, x.fabid = p.fabid)
    (h.cmd = some (.ctxcreate e p) →
      (¬ valid → exec (.ctxcreate e p) s = .next (u.complete e 2 1)) ∧
      (valid → taken → exec (.ctxcreate e p) s = .next (u.complete e 2 8)) ∧
      (valid → ¬ taken → (∃ a ∈ pages, v.tablePage p.ctx a = false) → exec (.ctxcreate e p) s = .next (u.complete e 2 1)) ∧
      (valid → ¬ taken → (∀ a ∈ pages, v.tablePage p.ctx a = true) → ∃ t : State, exec (.ctxcreate e p) s = .next (t.complete e 0) ∧
        t.ctxs = s.ctxs ++ [c] ∧ t.queues = u.queues ∧
        (p.wmtab.toNat % 2 ^ 16 = 0 → t.mem = s.mem ∧ t.cur = s.cur) ∧
        (s.memOk → (∀ a ∈ pages, v.zeroFrame p.ctx a = v) → (∀ mem p1 p2 p3, apart mem → ∀ j < p.wmtab.toNat % 2 ^ 16,
            { v with mem := mem, poisoned := p1, poisonSeen := p2, soft := p3 }.recordKey p.ctx (j + 1) 0 = some (k + 256 * j)) →
          apart t.mem ∧ t.read k size = 0))) ∧
    (h.cmd = some (.ctxdestroy e n) →
      (s.hasCtx n = false ∨ (s.ctx n).destroying.isSome = true → exec (.ctxdestroy e n) s = .next (u.complete e 2 3)) ∧
      (s.hasCtx n = true → (s.ctx n).destroying = none → ∃ t, exec (.ctxdestroy e n) s = .next t ∧
        (t.ctx n).destroying = some e ∧ t.mem = s.mem ∧ (∀ l ∈ t.launches, l.ctx = n → l.stopped = true) ∧
        (∀ l ∈ s.launches, l.ctx ≠ n → l ∈ t.launches)))

/-- CTXDESTROY's end (R306, R330): everything of the context is gone, and a group that was parked on one of its merge entries, or on the
table being full, goes on, with the unfinished threads of an instruction committed in part; no other group changes. -/
def Claim.ContextGone : Prop :=
  ∀ (s : State) (e : EntryRef) (n : Nat) (ids : List Nat), s.nextEntry e.queue = none → s.waitsOf e (.ctxdestroy e n) = some ids →
    (s.ctxBusy n = true → exec (.ctxdestroy e n) s = .next s) ∧
    (s.ctxBusy n = false → ∃ t : State, exec (.ctxdestroy e n) s = .next (t.complete e 0) ∧ (∀ c ∈ t.ctxs, c.num ≠ n) ∧
      (∀ l ∈ t.tlb, l.ctx ≠ n) ∧ (∀ r ∈ t.replicas, r.ctx ≠ n) ∧ (∀ w ∈ t.windows, w.ctx ≠ n) ∧ (∀ m ∈ t.merges, m.ctx ≠ n) ∧
      (∀ c ∈ t.cores, c.slotCtx ≠ some n) ∧ (∀ r ∈ t.padLeft, r.2.2 ≠ n) ∧
      (∀ r ∈ s.padLeft, r.2.2 = n → ∀ i < r.2.1, cellRead t.mem (r.1 + i) = 0) ∧
      (∀ c ∈ s.ctxs, c.num ≠ n → c ∈ t.ctxs) ∧ t.cur = { s.cur with stop := t.cur.stop, replay := t.cur.replay } ∧
      ((∀ m ∈ s.merges, m.ctx ≠ n) → (∀ g ∈ s.cur :: s.others, ∀ a, g.stop ≠ .zeroing a) → t.cur = s.cur ∧ t.others = s.others) ∧
      ∀ gs f pos, s.cur.live = true → (∃ m ∈ s.merges, m.ctx = n) → s.cur.stop = .parkedFull gs f pos →
        t.cur.stop = .running ∧ t.cur.replay = if f.part then f.tmask else s.cur.replay)

/-- COPY (R303, R384): refused for no context, lost in a failed one; one of 0 bytes completes at once; a page that is not there makes it
FAULTED, a non-empty range past 2^57 or a page without the permission, or of a running launch's code (R83), LOST, and then nothing is
copied; a range within one page is copied whole, with the bytes that the source held where the two overlap (log 51, DEDUCED), and no
other byte changes. -/
def Claim.CopyCommand : Prop :=
  ∀ (s : State) (e : EntryRef) (src dst bytes ctx : Nat) (h : Head) (x y : Tlb), s.memOk →
    s.nextEntry e.queue = some h → h.ref = e → h.cmd = some (.copy e src dst bytes ctx) →
    let i := Instr.copy e src dst bytes ctx
    let u := s.startEntry h
    let alive := s.hasCtx ctx = true ∧ (s.ctx ctx).failed = none
    let short := src % 2 ^ 16 + bytes ≤ 2 ^ 16 ∧ dst % 2 ^ 16 + bytes ≤ 2 ^ 16 ∧ 0 < bytes ∧ src + bytes ≤ 2 ^ 57 ∧ dst + bytes ≤ 2 ^ 57
    let still := u.zeroFrame ctx src = u ∧ u.zeroFrame ctx dst = u
    let may := y.w = true ∧ y.sealed = false ∧ u.codePage ctx dst = false
    (s.hasCtx ctx = false → exec i s = .next (u.complete e 2 3)) ∧
    (s.hasCtx ctx = true → ∀ q, (s.ctx ctx).failed = some q → exec i s = .next (u.complete e 4 (detail := q))) ∧
    (alive → bytes = 0 → exec i s = .next (u.complete e 0)) ∧
    (alive → 0 < bytes → (∀ a, u.zeroFrame ctx a = u) → 2 ^ 57 < src + bytes ∨ 2 ^ 57 < dst + bytes → exec i s = .next (u.complete e 4)) ∧
    (alive → still → short →
      (u.translate 0 ctx src = .absent → u.translate 0 ctx dst = .leaf y → may → exec i s = .next (u.complete e 1)) ∧
      (u.translate 0 ctx src = .leaf x →
        (x.r = false → exec i s = .next (u.complete e 4)) ∧
        (x.r = true → u.translate 0 ctx dst = .absent → exec i s = .next (u.complete e 1)) ∧
        (x.r = true → u.translate 0 ctx dst = .leaf y →
          (¬ may → exec i s = .next (u.complete e 4)) ∧
          (may → ∃ t : State, exec i s = .next (t.complete e 0) ∧ t.queues = u.queues ∧ t.cur = s.cur ∧ t.others = s.others ∧
            (∀ n < bytes, cellRead t.mem (y.key dst + n) = cellRead s.mem (x.key src + n)) ∧
            ∀ j, j < y.key dst ∨ y.key dst + bytes ≤ j → cellRead t.mem j = cellRead s.mem j))))

/-- WMALLOC (R340): the lowest run of count consecutive ids within 1 to COUNT whose records all have ALLOC clear; the first goes to RESULT.
Each record of the run gets its ID, FLAGS = ALLOC, BASEXP, EPOCH 1 and nothing else; a count of 0 or without a run is refused with
0x0B. The records lie outside the page tables. -/
def Claim.RecordAllocation : Prop :=
  ∀ (s : State) (e : EntryRef) (ctx count first k : Nat) (g : BitVec 8) (h : Head), s.memOk →
    s.nextEntry e.queue = some h → h.ref = e → h.cmd = some (.wmalloc e ctx count g) →
    let i := Instr.wmalloc e ctx count g
    let u := s.startEntry h
    let n := (s.ctx ctx).wmtab.toNat % 2 ^ 16
    let run := fun f => ∀ j < count, u.recordFree ctx (f + j) = true
    let apart := fun mem => ∀ j, j < k ∨ k + 256 * count ≤ j → cellRead mem j = cellRead s.mem j
    (s.hasCtx ctx = false → exec i s = .next (u.complete e 2 3)) ∧
    (s.hasCtx ctx = true → count = 0 ∨ (∀ f, 1 ≤ f → f + count ≤ n + 1 → ¬ run f) → exec i s = .next (u.complete e 2 0x0B)) ∧
    (s.hasCtx ctx = true → count ≠ 0 → 1 ≤ first → first + count ≤ n + 1 → run first → (∀ f, 1 ≤ f → f < first → ¬ run f) →
      (∀ mem p1 p2 p3, apart mem → ∀ j < count,
        { u with mem := mem, poisoned := p1, poisonSeen := p2, soft := p3 }.recordKey ctx (first + j) 0 = some (k + 256 * j)) →
      ∃ t : State, exec i s = .next (t.complete e 0 0 0 first) ∧ t.queues = u.queues ∧ t.cur = s.cur ∧ t.ctxs = s.ctxs ∧ apart t.mem ∧
        ∀ j < count,
          let r := k + 256 * j
          t.read r 2 = (first + j) % 2 ^ 16 ∧ t.read (r + 2) 2 = 1 ∧ t.read (r + 4) 1 = g.toNat ∧ t.read (r + 5) 3 = 0 ∧
          t.read (r + 8) 8 = 1 ∧ t.read (r + 16) 240 = 0)

/-- WMFREE (R341): refused with 0x0B where count is 0 or an id lies outside 1 to COUNT or is not allocated; otherwise every slot bound to a
freed id, on a core or saved with a team's arrays, is unbound with its partials, the entry waits for the flushes that carry partials for those ids, and then every freed record
is zero and no other byte of memory has changed. -/
def Claim.RecordRelease : Prop :=
  ∀ (s : State) (e : EntryRef) (ctx first count k : Nat),
    let i := Instr.wmfree e ctx first count
    let freed := fun n => first ≤ n ∧ n < first + count
    let c := s.ctx ctx
    (∀ h : Head, s.nextEntry e.queue = some h → h.ref = e → h.cmd = some i →
      let u := s.startEntry h
      let bad := count = 0 ∨ first = 0 ∨ c.wmtab.toNat % 2 ^ 16 < first + count - 1 ∨
        ∃ n, freed n ∧ (u.recordFree ctx n = true ∨ n ∈ c.freeing)
      (s.hasCtx ctx = false → exec i s = .next (u.complete e 2 3)) ∧
      (s.hasCtx ctx = true → bad → exec i s = .next (u.complete e 2 0x0B)) ∧
      (s.hasCtx ctx = true → ¬ bad → ∃ t, exec i s = .next t ∧ t.mem = s.mem ∧ t.cur = s.cur ∧ t.remotes = s.remotes ∧
        (∀ n, n ∈ (t.ctx ctx).freeing ↔ n ∈ c.freeing ∨ freed n) ∧
        (∀ d ∈ t.cores ++ t.teams.flatMap (·.arraysSaved), d.slotCtx = some ctx → ∀ j : Fin 8, d.slots[j].id ≠ 0 → ¬ freed d.slots[j].id) ∧
        (∀ d ∈ t.cores ++ t.teams.flatMap (·.arraysSaved), ∀ q ∈ d.slotsKept, q.1 = ctx → ∀ j : Fin 8, q.2[j].1 ≠ 0 → ¬ freed q.2[j].1) ∧
        ∀ d ∈ s.cores, d.slotCtx = some ctx → ∃ d' ∈ t.cores, d'.ix = d.ix ∧ ∀ j : Fin 8,
          d'.slots[j] = if freed d.slots[j].id then {} else d.slots[j])) ∧
    (∀ ids : List Nat, s.memOk → s.nextEntry e.queue = none → s.waitsOf e i = some ids →
      let apart := fun mem => ∀ j, j < k ∨ k + 256 * count ≤ j → cellRead mem j = cellRead s.mem j
      ((∃ r ∈ s.remotes, r.id ∈ ids) → exec i s = .next s) ∧
      ((∀ r ∈ s.remotes, r.id ∉ ids) →
        (∀ mem p1 p2 p3, apart mem → ∀ j < count,
          { s with mem := mem, poisoned := p1, poisonSeen := p2, soft := p3 }.recordKey ctx (first + j) 0 = some (k + 256 * j)) →
        ∃ t : State, exec i s = .next (t.complete e 0) ∧ t.queues = s.queues ∧ t.cur = s.cur ∧ apart t.mem ∧
          t.read k (256 * count) = 0 ∧ (s.hasCtx ctx = true → ∀ n, n ∈ (t.ctx ctx).freeing ↔ n ∈ c.freeing ∧ ¬ freed n)))

/-- TLBINV (R328): the context's cached translations of the range (of every range for LEN = 0), widened to whole granules, go at once, and
a walk in progress there starts again; the entry completes when the work accepted before is done: then the replicas of every page with a
byte in the range are gone, and a WAITA of the context reads its word again. -/
def Claim.TranslationInvalidation : Prop :=
  ∀ (s : State) (e : EntryRef) (ctx va len : Nat),
    let i := Instr.tlbinv e ctx va len
    let lo := va / 2 ^ 16 * 2 ^ 16
    let hi := (va + len + 2 ^ 16 - 1) / 2 ^ 16 * 2 ^ 16
    let hit := fun (a n : Nat) => len = 0 ∨ (a < hi ∧ lo < a + n)
    (∀ h : Head, s.nextEntry e.queue = some h → h.ref = e → h.cmd = some i →
      let u := s.startEntry h
      (s.hasCtx ctx = false → exec i s = .next (u.complete e 2 3)) ∧
      (s.hasCtx ctx = true → ∃ t, exec i s = .next t ∧ t.mem = s.mem ∧ t.work = s.work ∧
        t.cur = { s.cur with stop := t.cur.stop } ∧ ((∀ a, s.cur.stop ≠ .zeroing a) → t.cur = s.cur) ∧
        (∀ a, s.cur.live = true → (s.launchOf s.cur).ctx = ctx → s.cur.stop = .zeroing a → len = 0 ∨ (lo ≤ a ∧ a < hi) →
          t.cur.stop = .running) ∧
        ∀ x : Tlb, x ∈ t.tlb ↔ x ∈ s.tlb ∧ ¬ (x.ctx = ctx ∧ hit x.va (2 ^ x.size)))) ∧
    (∀ ids : List Nat, s.nextEntry e.queue = none → s.waitsOf e i = some ids →
      ((∃ w ∈ s.work, w.id ∈ ids) → exec i s = .next s) ∧
      ((∀ w ∈ s.work, w.id ∉ ids) → ∃ t : State, exec i s = .next (t.complete e 0) ∧ t = { s with replicas := t.replicas, cur := t.cur, others := t.others } ∧
        t.cur = { s.cur with wait := t.cur.wait } ∧
        (s.cur.live = true → (s.launchOf s.cur).ctx = ctx → ∀ ext x p gap due, s.cur.wait = .waita ext x p gap due →
          t.cur.wait = .waita ext x p gap true) ∧ ((∀ ext x p gap due, s.cur.wait ≠ .waita ext x p gap due) → t.cur = s.cur) ∧
        ∀ r, r ∈ t.replicas ↔ r ∈ s.replicas ∧ ¬ (r.ctx = ctx ∧ hit r.page (2 ^ r.size))))

/-- Context, copy, record and translation commands succeed or are refused as stated: the claims above together. -/
def Obligations.ContextAndCopyCommands : Prop :=
  Claim.Contexts ∧ Claim.ContextGone ∧ Claim.CopyCommand ∧ Claim.RecordAllocation ∧ Claim.RecordRelease ∧
  Claim.TranslationInvalidation

/-- LAUNCH is refused (R252, R302, R304, R307, R309, R311, R312, R337): 0x03 for no context, 0x05 for a die mask that is zero or names a
fenced die, then the reason of a bad object, kernel or stage declaration, 0x07 for a cooperative grid of several stages, 0x06 for a layout
record that does not place the teams, 0x04 for a cooperative grid that the dies cannot hold, as where a die would get more than MAX(0) of
its teams; in a failed context it is lost at once (R384). -/
def Claim.LaunchRefused : Prop :=
  ∀ (s : State) (e : EntryRef) (p : LaunchPayload) (h : Head) (k : Kernel) (r q : Nat),
    s.nextEntry e.queue = some h → h.ref = e → h.cmd = some (.launch e p) →
    let i := Instr.launch e p
    let u := s.startEntry h
    let c := s.ctx p.ctx
    let alive := s.hasCtx p.ctx = true ∧ c.destroying = none
    let mask := p.dieMask ≠ 0 ∧ ∀ d < 8, p.dieMask.getLsbD d = true → UnitRef.die d ∉ s.fenced
    let read := (u.loadKernel p.ctx p).1
    let w := if p.place then read.layout p.ctx p.layout else (read, none)
    let placed := w.1.placement p w.2
    let l := w.1.newLaunch e p k placed
    let refused := fun (v : State) n => exec i s = .next (v.complete e 2 n)
    (¬ alive → refused u 3) ∧
    (alive → c.failed = some q → exec i s = .next (u.complete e 4 (detail := q))) ∧
    (alive → c.failed = none →
      (¬ mask → refused u 5) ∧
      (mask → (u.loadKernel p.ctx p).2 = .error r → refused read r) ∧
      (mask → (u.loadKernel p.ctx p).2 = .ok k →
        (p.coop = true → k.stages.length ≠ 1 → refused read 7) ∧
        (p.coop = false ∨ k.stages.length = 1 →
          (p.place = true → placed = none → refused w.1 6) ∧
          (p.place = false ∨ placed.isSome = true → p.coop = true →
            (w.1.gridFits l = false → refused w.1 4) ∧
            (∀ (d : Fin 8) (st : Stage), k.stages = [st] → st.max < l.assigned[d] → refused w.1 4)))))

/-- What the front end reads through a context's translation (R323, R329, R333, R378): the bytes of a page that may be read; nothing where
the page is absent or the range passes 2^57; nothing of bytes that hold poison, which is noted. -/
def Claim.FrontEndReads : Prop :=
  ∀ (s : State) (ctx va n : Nat) (l : Tlb), 0 < n → va % 2 ^ 16 + n ≤ 2 ^ 16 →
    (2 ^ 57 < va + n → s.takeVa ctx va n = (s, none)) ∧
    (va + n ≤ 2 ^ 57 → (∀ page, walkFrom s 0 ctx va walkLevels (s.ctx ctx).ptroot ≠ .zero page) →
      (s.translate 0 ctx va = .absent → s.takeVa ctx va n = (s, none)) ∧
      (s.translate 0 ctx va = .leaf l →
        (l.r = false → s.takeVa ctx va n = (s, none)) ∧
        (l.r = true → s.poisonedAt (l.key va) n = false → s.takeVa ctx va n = (s, some (s.read (l.key va) n))) ∧
        (l.r = true → s.poisonedAt (l.key va) n = true → s.takeVa ctx va n = (s.notePoison (l.key va) n ctx, none))))

/-- The object that a LAUNCH names (R59, R307, R308, R312): with a header that cannot be read, a wrong MAGIC or VERSION, a kernel index that
the object does not have, an offset of .scode that is not 64 KiB aligned or of .lcode that is not 16-byte aligned, 0x02; with a kernel
record whose entry, groups or stage count is out of range, 0x02; with a good record of one stage and no safe points, the kernel's
fields, a stage 0 whose MIN exceeds MAX or whose DEPTH is outside 1 to 4,096 giving 0x07; with two stages, the second's entry not a
multiple of 4, 0x07. -/
def Claim.LaunchObject : Prop :=
  ∀ (s : State) (ctx h k st : Nat) (p : LaunchPayload),
    let load := s.loadKernel ctx p
    let q := fun (x n : Nat) => x / 2 ^ (8 * n) % 2 ^ 64
    let a1 := s.takeVa ctx p.obj 128
    let a2 := a1.1.takeVa ctx (p.obj + q h 64 + 64 * p.kidx) 64
    let a3 := a2.1.takeVa ctx (p.obj + q h 72 + q k 32) (16 * bits k 47 40)
    let a4 := a3.1.takeVa ctx (p.obj + q h 72 + q k 24) 0
    let formed := fun (n : Nat) => bits st (128 * n + 95) (128 * n + 88) = 0 ∧ 1 ≤ bits st (128 * n + 87) (128 * n + 80) ∧
      bits st (128 * n + 87) (128 * n + 80) ≤ 3
    (a1.2 = none → load = (a1.1, .error 2)) ∧
    (a1.2 = some h →
      (bits h 31 0 ≠ 0x52504F4A ∨ bits h 47 32 ≠ 1 ∨ bits h 63 48 ≤ p.kidx ∨ q h 8 % 2 ^ 16 ≠ 0 ∨ q h 24 % 4 ≠ 0 ∨ q h 32 % 16 ≠ 0 ∨
        q h 40 % 12 ≠ 0 ∨ 2 ^ 57 < p.obj + q h 8 + q h 16 → load = (a1.1, .error 2)) ∧
      (headerBad p.obj h = false → p.kidx < bits h 63 48 →
        (a2.2 = none → load = (a2.1, .error 2)) ∧
        (a2.2 = some k →
          (bits k 31 0 % 4 ≠ 0 ∨ q h 24 < bits k 31 0 + 4 ∨ bits k 39 32 = 0 ∨ 64 < bits k 39 32 ∨ bits k 47 40 = 0 ∨
            8 < bits k 47 40 → load = (a2.1, .error 2)) ∧
          (kernelBad h k = false → bits k 191 160 = 0 → a3.2 = some st → a4.2.isSome = true → formed 0 →
            let fits := bits st 47 32 ≤ bits st 63 48 ∧ 1 ≤ bits st 79 64 ∧ bits st 79 64 ≤ 4096 ∧ bits st 31 0 + 4 ≤ q h 24
            (bits k 47 40 = 2 → formed 1 → bits st 159 128 % 4 ≠ 0 → load = (a4.1, .error 7)) ∧
            (bits k 47 40 = 1 → st < 2 ^ 128 → ¬ fits → load = (a4.1, .error 7)) ∧
            (bits k 47 40 = 1 → st < 2 ^ 128 → fits → ∃ n, load = (a4.1, .ok n) ∧ n.image = q h 8 ∧ n.ssize = q h 24 ∧ n.lcode = q h 32 ∧
              n.lsize = q h 40 ∧ n.groups = bits k 39 32 ∧ n.wmslots = bits k 55 48 ∧ n.safePoints = [] ∧
              n.deckle[0] = bits k 95 64 ∧ n.deckle[1] = bits k 127 96 ∧ n.deckle[2] = bits k 159 128 ∧
              n.stages = [{ entry := bits k 31 0, min := bits st 47 32, max := bits st 63 48, depth := bits st 79 64
                            mxuse := if p.mxuse.toNat % 4 = 0 then bits st 87 80 else p.mxuse.toNat % 4
                            expect := bits st 127 96 }])))))

/-- LAUNCH starts (R304, R309, R311): the launch takes the kernel's bounds and the priority of its queue; under PLACE = 0 the i-th of n dies of
the mask gets stage-0 teams i TEAMS / n up to (i + 1) TEAMS / n, rounded down; every queue instance opens at MIN; its teams wait for
placement, and nothing else has begun. -/
def Claim.LaunchStarts : Prop :=
  ∀ (s : State) (e : EntryRef) (p : LaunchPayload) (h : Head) (k : Kernel),
    s.nextEntry e.queue = some h → h.ref = e → h.cmd = some (.launch e p) →
    let u := s.startEntry h
    let c := s.ctx p.ctx
    let mask := p.dieMask ≠ 0 ∧ ∀ d < 8, p.dieMask.getLsbD d = true → UnitRef.die d ∉ s.fenced
    let read := (u.loadKernel p.ctx p).1
    let w := if p.place then read.layout p.ctx p.layout else (read, none)
    let v := w.1
    let placed := v.placement p w.2
    let dies := (List.range 8).filter fun d => p.dieMask.getLsbD d
    let below := fun (d : Nat) => (dies.filter (· < d)).length
    s.hasCtx p.ctx = true → c.destroying = none → c.failed = none → mask → (u.loadKernel p.ctx p).2 = .ok k →
    (p.place = true → placed.isSome = true) →
    (p.coop = true → k.stages.length = 1 ∧ v.gridFits (v.newLaunch e p k placed) = true) →
    ∃ t l, exec (.launch e p) s = .next t ∧ t.launches.length = v.launches.length + 1 ∧ t.launches.getLast? = some l ∧
      t.queues = u.queues ∧ t.mem = v.mem ∧ t.cur = v.cur ∧ t.others = v.others ∧ t.launchOrder = v.launchOrder + 1 ∧
      l.key = v.nextId ∧ l.order = v.launchOrder ∧ l.ctx = p.ctx ∧ l.args = BitVec.ofNat 64 p.args ∧ l.scode = p.obj + k.image ∧
      l.ssize = k.ssize ∧ l.lbase = p.obj + k.lcode ∧ l.lsize = k.lsize ∧ l.teams = p.teams ∧ l.groups = k.groups ∧ l.stages = k.stages ∧
      l.deckle = k.deckle ∧ l.dieMask = p.dieMask ∧ l.coop = p.coop ∧ l.idem = p.idem ∧ l.placed = placed ∧ l.entry = some e ∧
      l.prio = (s.queue e.queue).prio ∧ l.faulted = none ∧ l.lost = none ∧ l.denials = [] ∧
      (p.place = false → ∀ d : Fin 8, l.assigned[d] = if p.dieMask.getLsbD d.val then
        (below d.val + 1) * p.teams / dies.length - below d.val * p.teams / dies.length else 0) ∧
      (∀ ds, placed = some ds → ∀ d : Fin 8, l.assigned[d] = (ds.filter (· == d.val)).length) ∧
      (∀ d ∈ dies, ∀ q, ∀ st : Stage, k.stages[q + 1]? = some st → l.queueAt d q = { die := d, q := q, target := st.min }) ∧
      ∀ x ∈ t.teams, x ∈ v.teams ∨ (x.launch = v.nextId ∧ x.status = .waiting v.now ∧ x.stage = 0)

/-- LAUNCH_END (R261, R302, R319, R384): a launch in which nothing is left to run is gone and its entry complete, DONE or, with denials,
DENIED; one that has been terminated or lost ends once its work has come to rest, FAULTED or LOST with its number. Until then, and where
no launch has that number, nothing happens. -/
def Claim.LaunchEnds : Prop :=
  ∀ (s : State) (key q : Nat) (l : Launch) (e : EntryRef),
    let i := Instr.launchEnd key
    let quiet := (∀ t ∈ s.teams, t.launch ≠ key) ∧ l.created = l.assigned ∧ s.nmrunsOf key = [] ∧
      ∀ d, l.dieMask.getLsbD d = true → ∀ n < l.stages.length - 1, (l.queueAt d n).tokens = [] ∧ s.queueClosed l d n = true
    let gone := fun (t : State) => { t with launches := t.launches.filter fun x => x.key != key }
    ((∀ x ∈ s.launches, x.key ≠ key) → exec i s = .next s) ∧
    (s.launches.find? (fun x => x.key == key) = some l → l.entry = some e →
      (l.lost = none → l.faulted = none →
        (¬ quiet → exec i s = .next s) ∧
        (quiet → l.denials = [] → exec i s = .next ((gone s).complete e 0)) ∧
        (quiet → l.denials ≠ [] → exec i s = .next ((gone s).complete e 3 0 l.denials.length 0 l.firstDenial))) ∧
      (l.lost ≠ none ∨ l.faulted ≠ none → s.launchAtRest l = false → exec i s = .next s) ∧
      ∀ code, (l.lost = some q ∧ code = 4) ∨ (l.lost = none ∧ l.faulted = some q ∧ code = 1) → s.launchAtRest l = true →
        ∃ t : State, exec i s = .next (t.complete e code 0 l.denials.length 0 q) ∧ (∀ x ∈ t.launches, x.key ≠ key) ∧
          (∀ x ∈ t.teams, x.launch ≠ key) ∧ (∀ x ∈ s.launches, x.key ≠ key → x ∈ t.launches) ∧ t.queues = s.queues)

/-- The denial that DETAIL names (R302): the recorded REMSTAT of the lowest group by die, then TEAMID, then GRPINTEAM. -/
def Claim.FirstDenial : Prop :=
  ∀ (l : Launch) (d : Nat × Nat × Nat × Word), d ∈ l.denials →
    (∀ x ∈ l.denials, x ≠ d → d.1 < x.1 ∨ (d.1 = x.1 ∧ (d.2.1 < x.2.1 ∨ (d.2.1 = x.2.1 ∧ d.2.2.1 < x.2.2.1)))) →
    l.firstDenial = d.2.2.2.toNat

/-- RETRY, TERMINATE and RELEASE (R113, R261, R302): with no context 0x03, with no group stopped so 0x0A; RETRY lets the group run again at
its stopping point, with the threads of TMASK where the instruction was partly committed, and otherwise with those that it had still to
run (log 40); TERMINATE marks the launch faulted with the record's SEQ and frees every slot of the launch (R404); RELEASE lets a group at BRK go on at BRK + 4. -/
def Claim.StoppedAnswers : Prop :=
  ∀ (s : State) (e : EntryRef) (ctx seq pos : Nat) (unit : BitVec 32) (imm : BitVec 16) (f : FaultInfo) (h : Head) (i : Instr),
    s.nextEntry e.queue = some h → h.ref = e → h.cmd = some i →
    let u := s.startEntry h
    let at_ := fun (g : Group) => g.live = true ∧ (s.launchOf g).ctx = ctx
    let record := fun (g : Group) => at_ g ∧ (s.launchOf g).stopped = false ∧ ∃ f p, g.stop = .recorded seq f p
    let broke := fun (g : Group) => at_ g ∧ s.unitOf g.place = unit ∧ ∃ m, g.stop = .brk m
    let l := s.launchOf s.cur
    (i ∈ [.retry e ctx seq, .terminate e ctx seq, .release e ctx unit] → s.hasCtx ctx = false → exec i s = .next (u.complete e 2 3)) ∧
    (s.hasCtx ctx = true →
      (i ∈ [.retry e ctx seq, .terminate e ctx seq] → (∀ g ∈ s.groups, ¬ record g) → exec i s = .next (u.complete e 2 0x0A)) ∧
      (i = .release e ctx unit → (∀ g ∈ s.groups, ¬ broke g) → exec i s = .next (u.complete e 2 0x0A)) ∧
      (i = .retry e ctx seq → record s.cur → s.cur.stop = .recorded seq f pos → ∃ t : State, exec i s = .next (t.complete e 0) ∧
        t.cur = { s.cur with stop := .running, replay := if f.part then f.tmask else s.cur.replay } ∧
        (∀ x ∈ (t.ctx ctx).slots, x ∈ (s.ctx ctx).slots ∧ x.2.1 ≠ seq ∨ x.2.1 ∈ (s.ctx ctx).held.map (·.1))) ∧
      (i = .terminate e ctx seq → record s.cur → l ∈ s.launches → ∃ t : State,
        exec i s = .next (t.complete e 0) ∧ (t.launch l.key).faulted = some seq ∧ (t.launch l.key).stopped = true ∧ t.cur = s.cur ∧
        ∀ x ∈ (t.ctx ctx).slots, x.2.2 ≠ l.key) ∧
      (i = .release e ctx unit → broke s.cur → s.cur.stop = .brk imm → (∀ g ∈ s.others, g.key ≠ s.cur.key) →
        exec i s = .next ({ u with cur := { s.cur with stop := .running, spc := s.cur.spc + 4, retired := s.cur.retired + 1 } }.complete e 0)))

/-- A launch is refused, started, ended or denied as the launch rules say: the claims above together. -/
def Obligations.LaunchesStartAndEnd : Prop :=
  Claim.LaunchRefused ∧ Claim.FrontEndReads ∧ Claim.LaunchObject ∧ Claim.LaunchStarts ∧ Claim.LaunchEnds ∧ Claim.FirstDenial ∧
  Claim.StoppedAnswers

/-- A team placed (R9, R245, R246, R267): all its groups stand in free slots of cores of one cluster of its die, none of them fenced, with its
windows clear of those that other teams have or still hold in place, and inside the arrays, and with the arrays its matrix use declares, which no resident team owns;
every group starts at its stage's entry with s1 = ARGS, the always-true p0, and every other register zero. No byte outside the windows
changes. -/
def Claim.TeamPlaced : Prop :=
  ∀ (s u : State) (x : Team), x ∈ s.teams → (∀ y ∈ s.teams, y.key = x.key → y = x) →
    let l := s.launch x.launch
    let use := ((l.stages[x.stage]?).map (·.mxuse)).getD 1
    let limit := fun (n : Fin 3) => if n = 0 then 2 ^ 20 else if n = 1 then 2 ^ 23 else 48 * 2 ^ 20
    l.coop = false → x.isSaved = false → s.tryPlace x = some u →
    ∃ (y : Team) (gs : List Group), y ∈ u.teams ∧ y = { x with
        status := .resident, cluster := y.cluster, win := y.win, unitCores := y.unitCores, arrays := y.arrays, victim := .none,
        placedAt := s.now, stuckSince := none, urgent := false, held := [], claiming := [], area := [] } ∧
      y.cluster < 3 ∧ y.unitCores.Nodup ∧
      (∀ c ∈ y.unitCores, c / 4 = x.die * 3 + y.cluster ∧ s.coreFenced c = false) ∧
      (use = 3 → ∃ c, c % 2 = 0 ∧ y.unitCores = [c, c + 1]) ∧ (use = 2 → ∃ c, y.unitCores = [c]) ∧
      y.arrays = (if use < 2 then [] else y.unitCores) ∧
      (∀ z ∈ s.teams, z.status = .resident → ∀ c ∈ z.unitCores, c ∈ z.arrays → c ∉ y.arrays) ∧
      (∀ n : Fin 3, y.win[n].size = l.deckle[n] ∧ (l.deckle[n] ≠ 0 → y.win[n].base + l.deckle[n] ≤ limit n) ∧
        ∀ z ∈ s.teams, z.die = x.die → ∀ p ∈ z.pads, p.lvl = n → z.inPlace p = true →
          (n = 0 → ∃ c ∈ y.unitCores, z.unitCores[p.ix]? = some c) → (n = 1 → z.cluster = y.cluster) →
          z.win[n].base + z.win[n].size ≤ y.win[n].base ∨ y.win[n].base + y.win[n].size ≤ z.win[n].base) ∧
      gs.length = l.groups ∧ u.others = s.others ++ gs ∧ u.cur = s.cur ∧
      (gs.map fun g => (g.place.coreIx, g.place.lane, g.place.slot)).Nodup ∧
      (∀ (n : Nat) (g : Group), gs[n]? = some g →
        g = { key := g.key, live := true, team := x.key, git := n, place := g.place, s := (Vector.replicate 64 0).set 1 l.args
              spc := BitVec.ofNat 64 (l.scode + ((l.stages[x.stage]?).map (·.entry)).getD 0), base := s.now } ∧
        g.place.coreIx ∈ y.unitCores ∧ g.place.lane < 64 ∧ g.place.slot < 4 ∧ g.place.stack = none ∧
        ∀ h ∈ s.groups, h.live = true → (∃ z ∈ s.teams, z.key = h.team ∧ z.status = .resident ∧ g.place.coreIx ∈ z.unitCores) →
          h.place.coreIx = g.place.coreIx → ¬ (h.place.lane = g.place.lane ∧ h.place.slot = g.place.slot)) ∧
      ∀ k, (∀ q ∈ y.pads, k < q.key ∨ q.key + q.len ≤ k) → cellRead u.mem k = cellRead s.mem k

/-- A team of a die is served first (R309, R310, R349): no team that has waited too long has a higher priority; no other that waits and is
before it, by priority, then by launch, then by stage and TEAMID, could be placed now; and no group that has met the return trap and is
before it could move now. -/
def Claim.ServedFirst (s : State) (die : Nat) (x : Team) : Prop :=
  let prio := fun (t : Team) => (s.launch t.launch).prio
  let order := fun (t : Team) => (s.launch t.launch).order
  let before := fun (t u : Team) => prio u < prio t ∨ (prio u = prio t ∧ (order t < order u ∨ (order t = order u ∧
    (t.stage < u.stage ∨ (t.stage = u.stage ∧ t.teamId.toNat ≤ u.teamId.toNat)))))
  let free := fun (t : Team) => ∀ u ∈ s.offers die, u.urgent = true → prio u ≤ prio t
  free x ∧ (∀ y ∈ s.offers die, y.key ≠ x.key → before y x → free y → s.tryPlace y = none) ∧
  ∀ y ∈ s.returning die, y.key ≠ x.key → before y x → ¬ before x y → s.returnFit y = none

/-- TEAM_PLACE (R286, R309-R311): the teams that wait on a die, new ones, saved ones whose remote operations are answered, and parked ones that
their stage wants or whose instance has closed, are served higher priority first, within one priority the launch that started first,
then the lower TEAMID, and a stage-0 team only while fewer than MAX(0) are resident; a new one that is served first is placed; one that
has waited too long keeps teams of lower priority out. Where nobody waits, nothing happens. -/
def Claim.PlacementOrder : Prop :=
  ∀ (s : State) (die : Nat), (∀ t ∈ s.teams, t.victim ≠ .flush) → (s.teams.map (·.key)).Nodup →
    let prio := fun (t : Team) => (s.launch t.launch).prio
    let order := fun (t : Team) => (s.launch t.launch).order
    let free := fun (t : Team) => ∀ u ∈ s.offers die, u.urgent = true → prio u ≤ prio t
    (s.offers die).Pairwise (fun t u => prio u < prio t ∨ (prio u = prio t ∧
      (order t < order u ∨ (order t = order u ∧ (t.stage < u.stage ∨ (t.stage = u.stage ∧ t.teamId.toNat ≤ u.teamId.toNat)))))) ∧
    (∀ t ∈ s.offers die, t ∈ s.teams ∧ t.die = die ∧ (s.launch t.launch).stopped = false ∧
      ((∃ n, t.status = .waiting n) ∧
          (t.stage = 0 → (s.residents t.launch 0 die).length < (((s.launch t.launch).stages[0]?).map (·.max)).getD 0) ∨
        (∃ parked, t.status = .saved parked) ∧ (t.nmrun = false →
          (∀ g ∈ s.groups, g.live = true → g.team = t.key → s.remotePending g.key = false) ∧
          (t.status = .saved true → s.queueClosed (s.launch t.launch) t.die (t.stage - 1) = true ∨
            (s.residents t.launch t.stage t.die).length < ((s.launch t.launch).queueAt t.die (t.stage - 1)).target)))) ∧
    ((∀ t ∈ s.offers die, ¬ free t) → exec (.teamPlace die) s = .next s) ∧
    (∀ x u, x ∈ s.offers die → x.isWaiting = true → (s.launch x.launch).coop = false → Claim.ServedFirst s die x → s.tryPlace x = some u →
      (∀ y ∈ s.offers die, free y → s.drainFor y = s) → exec (.teamPlace die) s = .next u)

/-- The times of placement and pre-emption (R310, R314, R315, R317): a team that has waited 2^20 cycles, new, saved or parked, becomes urgent;
a save asked for 65,536 cycles ago has timed out; a drain past twice its budget becomes a save where the free parts of the save area have
room together, which sets aside as many of them for the team as it needs, else a drain without a budget. -/
def Claim.PlacementTimes : Prop :=
  ∀ (s : State) (key n : Nat) (x : Team), x ∈ s.teams → (s.teams.map (·.key)).Nodup → x.key = key →
    let gives := fun (i : Instr) (y : Team) => exec i s = .next { s with teams := s.teams.map fun z => if z.key = key then y else z }
    let ctx := (s.launch x.launch).ctx
    let clear := fun (v w : Window) => v.base + v.size ≤ w.base ∨ w.base + w.size ≤ v.base
    (x.status = .waiting n →
      (n + 2 ^ 20 ≤ s.now → gives (.placementWaitExpiry key) { x with urgent := true }) ∧
      (s.now < n + 2 ^ 20 → exec (.placementWaitExpiry key) s = .next s)) ∧
    (∀ parked, x.status = .saved parked →
      (x.leftAt + 2 ^ 20 ≤ s.now → gives (.placementWaitExpiry key) { x with urgent := true }) ∧
      (s.now < x.leftAt + 2 ^ 20 → exec (.placementWaitExpiry key) s = .next s)) ∧
    (x.status = .resident → exec (.placementWaitExpiry key) s = .next s) ∧
    (x.victim = .save n false →
      (n + 65536 ≤ s.now → gives (.savePointTimeout key) { x with victim := .save n true }) ∧
      (s.now < n + 65536 → exec (.savePointTimeout key) s = .next s)) ∧
    ((∀ m, x.victim ≠ .save m false) → exec (.savePointTimeout key) s = .next s) ∧
    (x.victim = .drain n → (s.launch x.launch).coop = false →
      (s.retiredOf x < n → exec (.drainBudgetExpiry key) s = .next s) ∧
      (n ≤ s.retiredOf x → s.saveRoom [x] = true → ∃ ws : List Window,
        gives (.drainBudgetExpiry key) { x with victim := .save s.now false, area := ws } ∧
        (ws.map (·.size)).sum = s.saveNeed x ∧ ws.Pairwise clear ∧ ∀ w ∈ ws, w.base + w.size ≤ (s.ctx ctx).savesize ∧
          ∀ y ∈ s.teams, (s.launch y.launch).ctx = ctx → ∀ v ∈ y.area, clear v w) ∧
      (n ≤ s.retiredOf x → s.saveRoom [x] = false → gives (.drainBudgetExpiry key) { x with victim := .drainFree })) ∧
    ((∀ m, x.victim ≠ .drain m) → exec (.drainBudgetExpiry key) s = .next s)

/-- STAGE_ARBITER (R311), once for each period of 1,024 cycles that is over: every stage's target moves by one towards more where its queue is over three quarters full, towards fewer where it
is under one quarter, within MIN and MAX; new teams are created up to it, beside those resident, parked or offered already (log 50),
while the queue holds tokens, and none for a queue that is closed and empty. -/
def Claim.StageArbiter : Prop :=
  ∀ (s : State) (d : Fin 8) (n : Nat) (l : Launch) (st : Stage), (s.launches.map (·.key)).Nodup → l ∈ s.launches →
    l.stopped = false → l.dieMask.getLsbD d.val = true → l.stages[n + 1]? = some st →
    let die := d.val
    let q := l.queueAt die n
    let occ := q.tokens.length
    let depth := l.depth n
    let want := if 3 * depth < 4 * occ then min (q.target + 1) st.max else if 4 * occ < depth then max (q.target - 1) st.min else q.target
    let count := fun (u : State) => (u.teams.filter fun x => x.launch == l.key && x.stage == n + 1 && x.die == die && !x.nmrun &&
      x.status != .saved false).length
    (s.now / 1024 ≤ s.arbiters[d] → exec (.stageArbiter die) s = .next s) ∧
    (s.arbiters[d] < s.now / 1024 → ∃ t m, exec (.stageArbiter die) s = .next t ∧ t.arbiters = s.arbiters.set d (s.arbiters[d] + 1) ∧
      m ∈ t.launches ∧ m.key = l.key ∧ (m.queueAt die n) = { q with target := want } ∧
      (q.tokens ≠ [] → count t = max (count s) want) ∧ count s ≤ count t ∧ count t ≤ max (count s) want ∧
      (n = 0 → q.tokens = [] → s.queueClosed l die 0 = true → count t = count s) ∧
      (∀ x ∈ s.teams, x ∈ t.teams) ∧ t.mem = s.mem ∧ t.cur = s.cur ∧ t.others = s.others)

/-- Teams are placed in index order on dies that have room, with stages arbitrated: the claims above together. -/
def Obligations.TeamsPlacedInOrder : Prop :=
  Claim.TeamPlaced ∧ Claim.PlacementOrder ∧ Claim.PlacementTimes ∧ Claim.StageArbiter

/-- A flushed team (R314): once its committed work is done its groups, windows and arrays are gone, its registers with them, and it waits
again from its entry with the same TEAMID; memory stays as it is. TEAM_PLACE begins with this. -/
def Claim.TeamFlushed : Prop :=
  ∀ (s : State) (x : Team) (die : Nat), x ∈ s.teams → (s.teams.map (·.key)).Nodup → x.status = .resident → x.victim = .flush →
    x.die = die → (∀ y ∈ s.teams, y.victim = .flush → y = x) → s.teamSettled x = true →
    let t := s.flushTeam x
    exec (.teamPlace die) s = exec (.teamPlace die) t ∧ t.mem = s.mem ∧
    { key := x.key, launch := x.launch, teamId := x.teamId, stage := x.stage, die := x.die, status := .waiting s.now : Team } ∈ t.teams ∧
    (∀ y ∈ s.teams, y.key ≠ x.key → y ∈ t.teams) ∧ (∀ g ∈ t.groups, g.live = true → g.team ≠ x.key) ∧
    (∀ g ∈ s.groups, g.live = true → g.team ≠ x.key → g ∈ t.groups) ∧
    ∀ c ∈ x.arrays, ∀ b : Fin 2, (t.core c).a[b] = {} ∧ (t.core c).w[b] = {}

/-- What is done with a victim (R313, R317): with r its retired count, E the mean of the stage's ended teams (EXPECT before any), and D its
budget: flush where IDEM and 4 r < E, drain where E - r is at most D, else save where the save area has room, else drain without a
budget. -/
def Claim.VictimChoice : Prop :=
  ∀ (s : State) (x : Team),
    let l := s.launch x.launch
    let i := Fin.ofNat 8 x.stage
    let r := s.retiredOf x
    let e := if l.endedTeams[i] = 0 then ((l.stages[x.stage]?).map (·.expect)).getD 0 else l.endedRetired[i] / l.endedTeams[i]
    let d := s.params.drain * (l.prio + 1)
    s.choice l [x] x =
      if l.idem = true ∧ 0 < e ∧ 4 * r < e then .flush
      else if 0 < e ∧ (e : Int) - r ≤ d then .drain (r + 2 * d)
      else if s.saveRoom [x] = true then .save s.now false
      else .drainFree

/-- Room for a team that cannot be placed (R310, R316): nothing is done while the teams that are leaving and the claims under way will make
it; else windows that saved teams hold are claimed, those that stand in the way among the fewest of the most recently saved teams' that
do, and no others; else victims are taken: resident teams of its die of strictly lower priority, as few as will do, and each of them is
told what becomes of it. -/
def Claim.VictimsTaken : Prop :=
  ∀ (s : State) (x : Team) (gone : List Nat) (vs : List Team), (s.teams.map (·.key)).Nodup →
    let l := s.launch x.launch
    let prio := fun (t : Team) => (s.launch t.launch).prio
    let fits := fun ws => (s.fitAny (gone ++ s.withThem ws) x).isSome = true
    let c := s.claimed
    let held := s.heldPads [x.die]
    let enough := fun ws => (c.unhold ws).fitsWithout s.going x
    let only := fun (t : State) => t = { s with teams := t.teams } ∧ t.teams.map (·.key) = s.teams.map (·.key)
    let waits := (∀ t ∈ s.teams, t.victim ≠ .flush) ∧ s.offers x.die = [x] ∧ s.drainFor x = s ∧ s.tryPlace x = none
    l.coop = false →
    (s.victimsFor gone x = some vs → (∀ v ∈ vs, v ∈ s.teams ∧ v.status = .resident ∧ v.die = x.die ∧ v.victim = .none ∧ prio v < prio x) ∧ fits vs ∧
    (∀ ws : List Team, ws.Sublist (s.candidates [x.die] (prio x)) → ws.length < vs.length → ¬ fits ws) ∧
    (s.candidates [x.die] (prio x)).Pairwise (fun t u => prio t < prio u ∨ (prio t = prio u ∧ u.placedAt ≤ t.placedAt))) ∧
    (waits → enough [] = true → exec (.teamPlace x.die) s = .next s) ∧
    (waits → enough [] = false → ∀ n, n ≤ held.length → enough (held.take n) = true → (∀ m < n, enough (held.take m) = false) →
      ∃ t, exec (.teamPlace x.die) s = .next t ∧ only t ∧
        (∀ y ∈ s.teams, ∃ z ∈ t.teams, z = { y with claiming := z.claiming } ∧
          ∀ i, i ∈ z.claiming → i ∈ y.claiming ∨ (y.key, i) ∈ held.take n) ∧
        ((t.claimed.fitsWithout s.going x = true))) ∧
    (waits → (∀ n ≤ held.length, enough (held.take n) = false) → (c.unhold held).victimsFor s.going x = some vs →
      ∃ t, exec (.teamPlace x.die) s = .next t ∧ only t ∧ (∀ v ∈ vs, ∃ y ∈ t.teams, y.key = v.key ∧ y.victim ≠ .none) ∧
        ∀ y ∈ s.teams, y.victim ≠ .none ∨ y.key ∉ s.withThem vs → y ∈ t.teams)

/-- A team saved (R192, R315, R316, R318) by TEAM_SAVE or TEAM_PARK: every group keeps its registers, but those its safe point names dead;
CYCLE stands still, a BAR keeps its arrival; the windows stay where they are, held; the arrays' state goes with the team; no byte of
memory changes outside the team's part of the save area, and every other group stays. It is done only when every group of it is at its
save point with its work settled; a parked team only when it is surplus and all its groups wait in QTAKE on an empty open instance. -/
def Claim.TeamSaved : Prop :=
  ∀ (s : State) (x : Team), s.memOk → x ∈ s.teams → (s.teams.map (·.key)).Nodup →
    let l := s.launch x.launch
    let q := l.queueAt x.die (x.stage - 1)
    let asked := ∃ n o, x.victim = .save n o ∧ s.teamSettled x = true ∧
      ∀ g ∈ s.groups, g.live = true → g.team = x.key → s.atSavePoint g o = true
    let surplus := x.status = .resident ∧ x.nmrun = false ∧ 1 ≤ x.stage ∧ q.target < (s.residents x.launch x.stage x.die).length ∧
      q.tokens = [] ∧ s.queueClosed l x.die (x.stage - 1) = false ∧ s.teamSettled x = true ∧ s.saveRoom [x] = true ∧
      ∀ g ∈ s.groups, g.live = true → g.team = x.key → g.stop = .running ∧ g.wait = .qtake
    let leaves := fun (i : Instr) (parked : Bool) (x : Team) =>
      let n := s.saveRest x
      (∀ r ∈ s.areaVas x x.padBytes n, ∀ p, walkFrom s 0 l.ctx r.2.1 walkLevels (s.ctx l.ctx).ptroot ≠ .zero p) →
      ∃ t y, exec i s = .next t ∧ y ∈ t.teams ∧
      y = { x with status := .saved parked, victim := .none, held := x.pads.map (·.ix), savedAt := s.nextId, leftAt := s.now, arrays := [], stuckSince := none,
                   arraysSaved := x.arrays.map fun c => s.core c } ∧
      (∀ k, (∀ r ∈ s.areaRuns x x.padBytes n, k < r.2.1 ∨ r.2.1 + r.2.2 ≤ k) → cellRead t.mem k = cellRead s.mem k) ∧
      (∀ z ∈ s.teams, z.key ≠ x.key → z ∈ t.teams) ∧
      (∀ g ∈ s.groups, ¬ (g.live = true ∧ g.team = x.key) → g ∈ t.groups) ∧
      (∀ g ∈ s.groups, g.live = true → g.team = x.key → ∃ h ∈ t.groups, h.key = g.key ∧ h.base = s.now - g.base ∧ h.spc = g.spc ∧
        h.f = g.f ∧ h.place = g.place ∧
        (∀ a b, g.wait = .bar a b → h.wait = .bar a b) ∧ (∀ a, g.wait = .sleep a → h.wait = .sleep a) ∧ (g.wait = .qtake → h.wait = .none) ∧
        (g.stop = .running → h.stop = .running) ∧
        (s.safePoint g = none → h.s = g.s ∧ h.v = g.v ∧ h.p = g.p ∧ h.k = g.k ∧ h.b = g.b) ∧
        ∀ p, s.safePoint g = some p →
          (∀ r : Fin 64, h.s[r] = (if p.s.getLsbD r.val then g.s[r] else 0) ∧
            ∀ i : Fin 32, h.v[r][i] = if p.v.getLsbD r.val then g.v[r][i] else 0) ∧
          (∀ r : Fin 8, h.p[r] = (if r = 0 ∨ p.p.getLsbD r.val then g.p[r] else 0) ∧ h.k[r] = if p.k.getLsbD r.val then g.k[r] else 0) ∧
          ∀ r : Fin 16, h.b[r] = if p.b.getLsbD r.val then g.b[r] else 0) ∧
      ∀ c ∈ x.arrays, ∀ b : Fin 2, (t.core c).a[b] = {} ∧ (t.core c).w[b] = {}
    (l.coop = false → x.status = .resident → asked → leaves (.teamSave x.key) false x) ∧
    (l.coop = false → ¬ (x.status = .resident ∧ asked) → exec (.teamSave x.key) s = .next s) ∧
    (surplus → ∀ w, s.areasFor [x] = some [(x.key, w)] → leaves (.teamPark x.key) true { x with area := w }) ∧
    (¬ surplus → exec (.teamPark x.key) s = .next s)

/-- WINDOW_CLAIM (R316): the windows of a saved team that are being claimed are copied, byte for byte, to its parts of the save area, and are
no longer held; the others stay. TEAM_RESTORE (R31, R286, R310, R316): a saved team that is served first comes back: a window still held
to its place where that is free, with every byte as it was, and otherwise with its bytes copied to its new place; one that has been claimed
with its bytes from the save area; and every group as it was saved, CYCLE going on from where it stood; elsewhere each group goes to the
core that takes its core's part. The pages of the save area are mapped, and their tables lie outside it. -/
def Claim.TeamRestored : Prop :=
  ∀ (s : State) (x : Team), s.memOk → x ∈ s.teams → (s.teams.map (·.key)).Nodup →
    let l := s.launch x.launch
    let apart := fun (a b : Nat × Nat) => a.1 + a.2 ≤ b.1 ∨ b.1 + b.2 ≤ a.1
    let outside := fun (k : Nat) (rs : List (Nat × Nat)) => ∀ r ∈ rs, k < r.1 ∨ r.1 + r.2 ≤ k
    let mine := fun (g : Group) => g.live = true ∧ g.team = x.key
    let at_ := fun (q : Pad) => (q.key, q.len)
    let runs := fun (q : Pad) => s.areaRuns x q.off q.len
    let ps := x.pads.filter fun q => x.held.contains q.ix && x.claiming.contains q.ix
    let area := ps.flatMap fun q => (runs q).map (·.2)
    let steady := fun (written : List (Nat × Nat)) => ∀ mem p1 p2 p3, (∀ k, outside k written → cellRead mem k = cellRead s.mem k) →
      let v := { s with mem := mem, poisoned := p1, poisonSeen := p2, soft := p3 }
      ∀ q ∈ x.pads, v.areaRuns x q.off q.len = runs q ∧ ∀ r ∈ s.areaVas x q.off q.len, ∀ p,
        walkFrom v 0 l.ctx r.2.1 walkLevels (s.ctx l.ctx).ptroot ≠ .zero p
    let may := (∀ g ∈ s.groups, mine g → s.remotePending g.key = false) ∧
      (x.status = .saved false ∨ (x.status = .saved true ∧ (s.queueClosed l x.die (x.stage - 1) = true ∨
        (s.residents x.launch x.stage x.die).length < (l.queueAt x.die (x.stage - 1)).target)))
    (ps ≠ [] → area.Pairwise apart → (∀ d ∈ area, ∀ q ∈ ps, apart d (at_ q)) → steady area →
      ∃ t, exec (.windowClaim x.key) s = .next t ∧
        (∀ q ∈ ps, ∀ r ∈ runs q, ∀ n < r.2.2, cellRead t.mem (r.2.1 + n) = cellRead s.mem (q.key + r.1 + n)) ∧
        (∀ k, outside k area → cellRead t.mem k = cellRead s.mem k) ∧
        { x with held := x.held.filter fun i => !x.claiming.contains i, claiming := [] } ∈ t.teams ∧ t.cur = s.cur ∧ t.others = s.others) ∧
    (ps = [] → exec (.windowClaim x.key) s = .next s) ∧
    (¬ may ∨ l.stopped = true → l.coop = false → exec (.teamRestore x.key) s = .next s) ∧
    (s.drainFor x = s → (∃ y ∈ s.offers x.die, y.urgent = true ∧ l.prio < (s.launch y.launch).prio) → l.coop = false →
      exec (.teamRestore x.key) s = .next s) ∧
    (∀ f : Fit, may → l.stopped = false → l.coop = false → s.fitSaved [] x = some f → s.fitReady x f = true → s.drainFor x = s →
      Claim.ServedFirst s x.die x → x.unitCores.Nodup → f.cores.length = x.unitCores.length →
      (∀ g ∈ s.groups, mine g → g.place.coreIx ∈ x.unitCores) →
      let n : Team := { x with die := f.die, cluster := f.cluster, win := f.win, unitCores := f.cores }
      let new := n.pads.map at_
      let pairs := x.pads.zip n.pads
      let stays := fun (q : Pad × Pad) => q.1.ix ∈ x.held ∧ q.1.key = q.2.key
      let src := fun (q : Pad) => if q.ix ∈ x.held then [(0, q.key, q.len)] else runs q
      ∃ t y, exec (.teamRestore x.key) s = .next t ∧ y ∈ t.teams ∧ y.key = x.key ∧ y.status = .resident ∧ y.unitCores = f.cores ∧
        y.die = f.die ∧ y.win = f.win ∧ y.held = [] ∧ y.area = [] ∧ t.groups.length = s.groups.length ∧
        (∀ (n : Nat) (g : Group), s.groups[n]? = some g → ¬ mine g → t.groups[n]? = some g) ∧
        (∀ (n : Nat) (g : Group), s.groups[n]? = some g → mine g → ∃ p : Place,
          t.groups[n]? = some { g with place := p, base := s.now - g.base } ∧
          ∀ m : Nat, x.unitCores[m]? = some g.place.coreIx → f.cores[m]? = some p.coreIx) ∧
        (x.pads.map (·.len) = n.pads.map (·.len) → new.Pairwise apart → steady new →
          (∀ q ∈ pairs, ¬ stays q → ∀ r ∈ src q.1, ∀ d ∈ new, apart r.2 d) →
          (∀ r ∈ s.padLeft, r.2.2 = l.ctx ∨ ∀ q ∈ pairs, stays q → apart (r.1, r.2.1) (at_ q.1)) →
          (∀ q ∈ pairs, ¬ stays q → ∀ r ∈ src q.1, ∀ i < r.2.2, cellRead t.mem (q.2.key + r.1 + i) = cellRead s.mem (r.2.1 + i)) ∧
          ∀ k, (∀ q ∈ pairs, ¬ stays q → k < q.2.key ∨ q.2.key + q.2.len ≤ k) → cellRead t.mem k = cellRead s.mem k))

/-- A team is flushed, chosen, saved and restored with its state unchanged: the claims above together. -/
def Obligations.TeamsPreemptedAndRestored : Prop :=
  Claim.TeamFlushed ∧ Claim.VictimChoice ∧ Claim.VictimsTaken ∧ Claim.TeamSaved ∧ Claim.TeamRestored

/-- The refusals of a home (R222): 0x01 beyond the symmetric heap, 0x02 without a translation, 0x09 for a system-atomic page and 0x05 for
another of the host, 0x05 for a page homed elsewhere, 0x03 without the permission, 0x04 for a write to a sealed page; poison is told
apart. A malformed leaf counts as 0x03 (log 33), and so does a write to the code of a running launch; which reason is given where several
hold is the model's choice (log 53, DESIGN CHOICE). -/
def Claim.HomeRefusals : Prop :=
  ∀ (s : State) (p : Packet) (c : Ctx) (a n : Nat) (write : Bool) (l : Tlb),
    let va := if p.virt then a % 2 ^ 57 else c.shbase + a
    let got := s.landing p c a n write
    let may := if write then l.w = true ∧ l.rwr = true ∧ s.codePage c.num va = false else l.r = true
    (p.virt = false → c.shsize < a + n → got = .refuse 1) ∧
    (p.virt = true ∨ a + n ≤ c.shsize → s.inMotion c.num va = false →
      (s.translate p.ddie c.num va = .absent → got = .refuse 2) ∧
      (s.translate p.ddie c.num va = .malformed → got = .refuse 3) ∧
      (∀ e, s.translate p.ddie c.num va = .poisoned e → got = .refuse 3) ∧
      (∀ g, s.translate p.ddie c.num va = .zero g → got = .later) ∧
      (s.translate p.ddie c.num va = .leaf l →
        (l.hm = true → l.sa = true → got = .refuse 9) ∧
        (l.hm = true → l.sa = false → got = .refuse 5) ∧
        (l.hm = false → l.pa / 2 ^ 37 ≠ p.ddie → got = .refuse 5) ∧
        (l.hm = false → l.pa / 2 ^ 37 = p.ddie →
          (¬ may → got = .refuse 3) ∧
          (may → write = true → l.sealed = true → got = .refuse 4) ∧
          (may → write = false ∨ l.sealed = false →
            (s.poisonedAt (l.key va) n = true → got = .poison (l.key va)) ∧
            (s.poisonedAt (l.key va) n = false → got = .at (l.key va) l)))))

/-- OPERATION_PACKET (R221, R225, R226, R229): an operation that arrives for the first time, at a target that takes it, is applied once:
RADD adds, RMIN and RMAX choose, ROR joins, RONCE is the write-once step, RARRIVE the arrival addition, RADDF the slot addition; no other
byte changes, its count is marked and its acknowledgement queued. A count is looked for in every window of its source on the die, and which
home slice keeps it is the model's reading (log 45, DEDUCED). -/
def Claim.OperationApplied : Prop :=
  ∀ (s : State) (p : Packet) (c : Ctx) (key : Nat) (l : Tlb), s.memOk → p.kind = 1 → p.op ≠ 0xE6 → s.arrives p = true →
    let u := s.taken p
    let b := p.value.toNat % 2 ^ 32
    let n := if p.op = 0xE7 then 16 else if p.op = 0xE4 ∨ p.op = 0xE5 then 8 else 4
    let slice := s.sliceOf p c
    let w := (u.windowOf c.num slice p).raise p.scount
    let v := u.setWindow c.num p w
    let m := s.read key 4
    let d := s.read key 8
    let pay := p.value.toNat % 2 ^ 63
    let i := fun (x : Nat) => if p.ty = 1 then (BitVec.ofNat 32 x).toInt else (x : Int)
    s.packetCtx p = some c → c.failed = none → c.destroying = none → (w.high + 2 ^ 64 - p.scount) % 2 ^ 64 < 1024 →
    (∀ x ∈ v.windows, x.isFor c.num p = true → ∀ e ∈ x.seen, e.1 ≠ p.scount) → u.landing p c p.addr.toNat n true = .at key l → (u.cache l).heldRow key n = false →
    ∃ t, exec (.operationPacket p) s = .next t ∧
      (p.op = 0xE0 → t.read key 4 = (m + b) % 2 ^ 32) ∧
      (p.op = 0xE1 → p.ty ≠ 0x10 → t.read key 4 = if i m ≤ i b then m else b) ∧
      (p.op = 0xE2 → p.ty ≠ 0x10 → t.read key 4 = if i m ≤ i b then b else m) ∧
      (p.op = 0xE1 → p.ty = 0x10 → t.read key 4 = (selectF f32 false false m b).1 % 2 ^ 32) ∧
      (p.op = 0xE2 → p.ty = 0x10 → t.read key 4 = (selectF f32 false true m b).1 % 2 ^ 32) ∧
      (p.op = 0xE3 → t.read key 4 = m ||| b) ∧
      (p.op = 0xE4 → t.read key 8 = if d < 2 ^ 63 then 2 ^ 63 + pay else if d = 2 ^ 64 - 1 ∨ d % 2 ^ 63 = pay then d else 2 ^ 64 - 1) ∧
      (p.op = 0xE5 → t.read key 8 = arrAdd d p.value.toNat % 2 ^ 64) ∧
      (p.op = 0xE7 → t.read key 16 = slotAdd (s.read key 16) b p.anchor % 2 ^ 128) ∧
      (∀ j, j < key ∨ key + n ≤ j → cellRead t.mem j = cellRead s.mem j) ∧
      t.acks = s.acks ++ [{ die := p.ddie, fabid := p.fabid, ctx := p.ctx, pkg := p.spkg, sdie := p.sdie, stream := p.stream, scount := p.scount }] ∧
      (p.scount, some true) ∈ (t.windowOf c.num slice p).seen ∧ t.inflight = s.inflight.erase p ∧ t.cur = s.cur ∧ t.others = s.others

/-- A packet that is not applied (R221, R222, R353, R372): its arrival raises the window that its home slice keeps for its source (log 45,
DEDUCED). Without a context, or with one that is being destroyed or has failed, it is denied with 0x06; a copy too old for the window has no effect; a copy of one applied is acknowledged again, of one refused denied with 0x00,
of one deferred discarded; a first copy that the home refuses is marked and denied. No byte of memory changes. Another packet changes
nothing. -/
def Claim.PacketNotApplied : Prop :=
  ∀ (s : State) (p : Packet) (i : Instr),
    (p.kind ≠ 1 → exec (.operationPacket p) s = .next s) ∧ (p.kind ≠ 2 → exec (.rbulkLine p) s = .next s) ∧
    (p.kind ≠ 6 ∨ p.spkg ≠ s.pkgid → exec (.watermarkFlush p) s = .next s) ∧
    ((i = .operationPacket p ∧ p.kind = 1 ∧ p.op ≠ 0xE6) ∨ (i = .rbulkLine p ∧ p.kind = 2) ∨
      (i = .watermarkFlush p ∧ p.kind = 6 ∧ p.spkg = s.pkgid) →
    let u := s.taken p
    let same := fun (t : State) => t.mem = s.mem ∧ t.cur = s.cur ∧ t.others = s.others ∧ t.cores = s.cores ∧ t.remotes = s.remotes
    let denied := fun (t : State) (r : Nat) => ∃ q, q ∈ t.inflight ++ t.outbox ++ t.heldOut ∧ q.kind = 5 ∧ q.dpkg = p.spkg ∧ q.ddie = p.sdie ∧
      q.stream = p.stream ∧ q.scount = p.scount ∧ q.ext.toNat = r
    (s.arrives p = false → exec i s = .next s) ∧
    (s.arrives p = true →
      (s.packetCtx p = none → ∃ t, exec i s = .next t ∧ same t ∧ denied t 6 ∧ t.acks = s.acks) ∧
      ∀ c, s.packetCtx p = some c →
        let slice := s.sliceOf p c
        let w := (u.windowOf c.num slice p).raise p.scount
        let v := u.setWindow c.num p w
        let age := (w.high + 2 ^ 64 - p.scount) % 2 ^ 64
        let out := fun (o : Option Bool) => v.seenAt c.num p = some o
        (c.failed.isSome = true ∨ c.destroying.isSome = true → ∃ t, exec i s = .next t ∧ same t ∧ denied t 6 ∧ t.acks = s.acks) ∧
        (c.failed = none → c.destroying = none →
          (v.seenAt c.num p = none ↔ ∀ x ∈ v.windows, x.isFor c.num p = true → ∀ e ∈ x.seen, e.1 ≠ p.scount) ∧
          (1024 ≤ age → exec i s = .next v) ∧
          (age < 1024 → out (some true) → ∃ t, exec i s = .next t ∧ same t ∧ t.acks = s.acks ++ [{
            die := p.ddie, fabid := p.fabid, ctx := p.ctx, pkg := p.spkg, sdie := p.sdie, stream := p.stream, scount := p.scount }]) ∧
          (age < 1024 → out (some false) → ∃ t, exec i s = .next t ∧ same t ∧ denied t 0 ∧ t.acks = s.acks) ∧
          (age < 1024 → out none → exec i s = .next v) ∧
          ∀ r, r < 256 → age < 1024 → v.seenAt c.num p = none → v.homeApply p c = .refused r →
            ∃ t, exec i s = .next t ∧ same t ∧ denied t r ∧ t.acks = s.acks ∧ (p.scount, some false) ∈ (t.windowOf c.num slice p).seen)))

/-- An RREAD (R219, R221, R228, R371): its arrival raises the window; every copy within the window reads the target anew and sends the word on
stream 7 with the next count that the home's context has there; a copy older than the window gets no answer; memory stays, and no
acknowledgement goes. -/
def Claim.ReadAnswered : Prop :=
  ∀ (s : State) (p : Packet) (c : Ctx) (key : Nat) (l : Tlb), s.memOk → p.kind = 1 → p.op = 0xE6 → s.arrives p = true →
    let u := s.taken p
    let slice := s.sliceOf p c
    let w := (u.windowOf c.num slice p).raise p.scount
    let v := u.setWindow c.num p w
    let n := tyBytes p.ty
    let age := (w.high + 2 ^ 64 - p.scount) % 2 ^ 64
    s.packetCtx p = some c → c.failed = none → c.destroying = none →
    (1024 ≤ age → exec (.operationPacket p) s = .next v) ∧
    (age < 1024 → u.landing p c p.addr.toNat n false = .at key l → (u.cache l).heldRow key n = false → n ≤ 8 → ∃ t q, exec (.operationPacket p) s = .next t ∧ q ∈ t.inflight ++ t.outbox ++ t.heldOut ∧ q.kind = 3 ∧ q.value.toNat = s.read key n ∧
      q.width = n ∧ q.dpkg = p.spkg ∧ q.ddie = p.sdie ∧ q.sdie = p.ddie ∧ q.stream = 7 ∧ q.reqStream = p.stream ∧
      q.ext = BitVec.ofNat 64 p.scount ∧ q.addr = p.ext ∧ q.scount = s.nextCount c.num p.ddie 7 ∧
      (s.hasCtx c.num = true → t.nextCount c.num p.ddie 7 = s.nextCount c.num p.ddie 7 + 1) ∧
      t.mem = s.mem ∧ t.acks = s.acks ∧ t.windows = v.windows ∧ t.cur = s.cur)

/-- RBULK_LINE (R226, R232, R233): the line is applied word by word in its mode: write-once steps on 16 words, or an operation on 32; then,
with an arrival word, its count grows by 128, by 1, or by the transitions, as its UNIT says, and a word of the reserved UNIT stays as it
is; no other byte changes. -/
def Claim.BulkLineApplied : Prop :=
  ∀ (s : State) (p : Packet) (c : Ctx) (key ak : Nat) (l la : Tlb), s.memOk → p.kind = 2 → s.arrives p = true → p.body.length = 128 →
    let u := s.taken p
    let slice := s.sliceOf p c
    let w := (u.windowOf c.num slice p).raise p.scount
    let v := u.setWindow c.num p w
    let x := ofLeBytes p.body
    let word := fun (i : Nat) => s.read (key + 8 * i) 8
    let set := ((List.range 16).filter fun i => decide (word i < 2 ^ 63)).length
    let alone := p.ext = BitVec.allOnes 64
    let unit := bits (s.read ak 8) 47 46
    s.packetCtx p = some c → c.failed = none → c.destroying = none → (w.high + 2 ^ 64 - p.scount) % 2 ^ 64 < 1024 →
    (∀ x ∈ v.windows, x.isFor c.num p = true → ∀ e ∈ x.seen, e.1 ≠ p.scount) → u.landing p c p.addr.toNat 128 true = .at key l → (u.cache l).heldRow key 128 = false →
    (¬ alone → (u.cache l).landing p c p.ext.toNat 8 true = .at ak la ∧ ((u.cache l).cache la).heldRow ak 8 = false ∧
      (ak + 8 ≤ key ∨ key + 128 ≤ ak)) →
    ∃ t, exec (.rbulkLine p) s = .next t ∧
      (p.op = 0 → ∀ i < 16, t.read (key + 8 * i) 8 =
        let d := word i
        let pay := bits x (64 * i + 62) (64 * i)
        if d < 2 ^ 63 then 2 ^ 63 + pay else if d = 2 ^ 64 - 1 ∨ d % 2 ^ 63 = pay then d else 2 ^ 64 - 1) ∧
      (p.op ≠ 0 → ∀ i < 32,
        let m := s.read (key + 4 * i) 4
        let b := bits x (32 * i + 31) (32 * i)
        let z := (BitVec.ofNat 32 m).toInt
        let y := (BitVec.ofNat 32 b).toInt
        let got := t.read (key + 4 * i) 4
        (p.op = 1 → got = (m + b) % 2 ^ 32) ∧ (p.op = 2 → got = m ||| b) ∧ (p.op = 3 → got = if z ≤ y then b else m) ∧
        (p.op = 4 → got = if z ≤ y then m else b) ∧ (p.op = 5 → got = (selectF f32 false true m b).1 % 2 ^ 32) ∧
        (p.op = 6 → got = (selectF f32 false false m b).1 % 2 ^ 32)) ∧
      (¬ alone → unit ≠ 3 → t.read ak 8 = arrAdd (s.read ak 8) (if unit = 0 then 128 else if unit = 1 then (if p.op = 0 then set else 0)
        else 1) % 2 ^ 64) ∧ (¬ alone → unit = 3 → t.read ak 8 = s.read ak 8) ∧
      (∀ j, j < key ∨ key + 128 ≤ j → alone ∨ j < ak ∨ ak + 8 ≤ j → cellRead t.mem j = cellRead s.mem j) ∧
      (p.scount, some true) ∈ (t.windowOf c.num slice p).seen ∧ t.cur = s.cur ∧ t.others = s.others

/-- WATERMARK_FLUSH (R210, R212, R341, R342): the partials join the record's current half, LATE grows by one where their epoch is not the
record's, and nothing else of memory changes; a record that is not allocated, or is being freed, takes nothing. The record's bytes lie
together and outside the page tables, and no stack core holds a row of them: otherwise the packet is deferred (R353). -/
def Claim.FlushMerged : Prop :=
  ∀ (s : State) (p : Packet) (c : Ctx) (k : Nat), s.memOk → p.kind = 6 → p.spkg = s.pkgid → s.arrives p = true →
    let u := s.taken p
    let slice := s.sliceOf p c
    let w := (u.windowOf c.num slice p).raise p.scount
    let v := u.setWindow c.num p w
    let id := (p.addr.toNat - bits c.wmtab.toNat 56 16 * 2 ^ 16) / 256
    let h := ofLeBytes (p.body.take 112)
    let late := s.read (k + 16) 4
    let live := (s.read (k + 2) 2).testBit 0 = true ∧ id ∉ (s.ctx c.num).freeing
    s.packetCtx p = some c → c.failed = none → c.destroying = none → (w.high + 2 ^ 64 - p.scount) % 2 ^ 64 < 1024 →
    (∀ x ∈ v.windows, x.isFor c.num p = true → ∀ e ∈ x.seen, e.1 ≠ p.scount) →
    (∀ mem p1 p2 p3 off, off < 256 → (∀ j, j < k ∨ k + 256 ≤ j → cellRead mem j = cellRead s.mem j) →
      { v with mem := mem, poisoned := p1, poisonSeen := p2, soft := p3 }.recordKey c.num id off = some (k + off)) →
    u.heldRow k 256 = false →
    ∃ t, exec (.watermarkFlush p) s = .next t ∧ (p.scount, some true) ∈ (t.windowOf c.num slice p).seen ∧ t.cur = s.cur ∧
      (live → halfStats (t.read (k + 32) 112) = (halfStats (s.read (k + 32) 112)).merge (halfStats h) ∧
        t.read (k + 16) 4 = (if halfEpoch h = s.read (k + 8) 8 then late else min (late + 1) (2 ^ 32 - 1)) ∧
        ∀ j, j < k + 16 ∨ (k + 20 ≤ j ∧ j < k + 32) ∨ k + 144 ≤ j → cellRead t.mem j = cellRead s.mem j) ∧
      (¬ live → t.mem = s.mem)

/-- Deferral (R353): a first packet to a row that a stack core holds goes into its bank's buffer while that holds fewer than 64, marked as
seen without an answer; one that finds it full is forgotten. DEFERRED_APPLY: a packet there stays while its row is held; once it is free
the packet is applied like one that has just arrived, leaves the buffer and is acknowledged; a reply lands. -/
def Claim.DeferredApplied : Prop :=
  ∀ (s : State) (st bk : Nat) (p : Packet) (c : Ctx), s.packetCtx p = some c →
    let slice := s.sliceOf p c
    let v := (s.taken p).setWindow c.num p (((s.taken p).windowOf c.num slice p).raise p.scount)
    let u := { s with deferred := s.deferred.erase (st, bk, p) }
    (∀ i, (p.kind = 1 ∧ p.op ≠ 0xE6 ∧ i = .operationPacket p) ∨ (p.kind = 2 ∧ i = .rbulkLine p) ∨
        (p.kind = 6 ∧ p.spkg = s.pkgid ∧ i = .watermarkFlush p) → s.arrives p = true → c.failed = none → c.destroying = none →
      ((v.windowOf c.num slice p).high + 2 ^ 64 - p.scount) % 2 ^ 64 < 1024 → v.seenAt c.num p = none → v.homeApply p c = .held st bk →
      (∀ d ∈ s.deferred, sameTag d.2.2 p = false) →
      ((s.deferred.filter fun d => d.1 == st && d.2.1 == bk).length < 64 →
        exec i s = .next (({ v with deferred := s.deferred ++ [(st, bk, p)] } : State).markSeen p c slice none)) ∧
      (64 ≤ (s.deferred.filter fun d => d.1 == st && d.2.1 == bk).length → exec i s = .next v)) ∧
    ((s.deferred.filter fun d => d.1 == st && d.2.1 == bk) = [(st, bk, p)] →
      (p.kind ≠ 3 → ∀ a b, u.homeApply p c = .held a b → exec (.deferredApply st bk) s = .next s) ∧
      (p.kind = 3 → ∀ key l, s.replyKey p c.num = .at key l →
        let held := s.heldRow key 16 = true ∨ s.heldRow (key - p.addr.toNat % 256) 8 = true
        (held → exec (.deferredApply st bk) s = .next s) ∧ (¬ held → exec (.deferredApply st bk) s = .next (u.landReply p c key))) ∧
      ∀ w, p.kind ≠ 3 → isRread p = false → u.homeApply p c = .done w → w.deferred = u.deferred → w.acks = s.acks →
        ∃ t, exec (.deferredApply st bk) s = .next t ∧ t.mem = w.mem ∧ t.cur = w.cur ∧
          (∀ d ∈ t.deferred, ¬ (d.1 = st ∧ d.2.1 = bk)) ∧ (p.scount, some true) ∈ (t.windowOf c.num slice p).seen ∧
          t.acks = s.acks ++ [{ die := p.ddie, fabid := p.fabid, ctx := p.ctx, pkg := p.spkg, sdie := p.sdie, stream := p.stream, scount := p.scount }])

/-- A packet is refused or applied at its home die, and once: the claims above together. -/
def Obligations.PacketsAppliedAtHome : Prop :=
  Claim.HomeRefusals ∧ Claim.OperationApplied ∧ Claim.PacketNotApplied ∧ Claim.ReadAnswered ∧ Claim.BulkLineApplied ∧
  Claim.FlushMerged ∧ Claim.DeferredApplied

/-- Answers at the sender (R28, R220, R222, R228, R372): a denial ends the operation that it names, records the first reason and counts the
others, and lowers its instruction's count or ends it; an acknowledgement ends every operation of its map but reads; an answer for a
count that is no longer outstanding is discarded. No bulk transfer waits to be sent, and no change of a record to be made. -/
def Claim.AnswersReceived : Prop :=
  ∀ (s : State) (p : Packet) (c : Ctx) (r : Remote) (x : Work) (n : Nat), s.arrives p = true → s.packetCtx p = some c →
    (∀ w ∈ s.work, ∀ ls m b, w.kind = .bulk ls m b → ls = []) → (∀ w ∈ s.work, ∀ id b, w.kind ≠ .record id b) →
    let names := fun (q : Remote) (k : Nat) => q.ctx = c.num ∧ q.pkt.sdie = p.ddie ∧ q.pkt.stream = p.stream ∧ q.pkt.scount = k
    (p.kind = 5 → (∀ q ∈ s.remotes, ¬ names q p.scount) → exec (.denial p) s = .next (s.taken p)) ∧
    (p.kind = 5 → s.findRemote c.num p.ddie p.stream p.scount = some r →
      ∃ t, exec (.denial p) s = .next t ∧ t.remotes = s.remotes.filter (fun q => q.id != r.id) ∧ t.mem = s.mem ∧
        (s.cur.live = true → s.cur.key = r.group → t.cur.remstat =
          if s.cur.remstat.d then { s.cur.remstat with count := if s.cur.remstat.count = 0xFFFF then 0xFFFF else s.cur.remstat.count + 1 }
          else { d := true, reason := BitVec.ofNat 8 p.ext.toNat, count := 1, seq := BitVec.ofNat 32 r.pkt.scount }) ∧
        (s.findWork r.work = some x → x.kind = .remote n → 1 < n →
          t.work = s.work.map (fun w => if w.id = x.id then { w with kind := .remote (n - 1) } else w)) ∧
        (s.findWork r.work = some x → x.kind = .remote n → n ≤ 1 → t.work = s.work.filter (fun w => w.id != x.id))) ∧
    (p.kind = 4 → (s.remotes.map (·.id)).Nodup →
      (s.remotes.map fun q => (q.ctx, q.pkt.sdie, q.pkt.stream, q.pkt.scount)).Nodup →
      ∃ t, exec (.acknowledgement p) s = .next t ∧ t.mem = s.mem ∧ t.cur.remstat = s.cur.remstat ∧
        ∀ q, q ∈ t.remotes ↔ q ∈ s.remotes ∧ ¬ (isRread q.pkt = false ∧ ∃ i < 64, p.ext.getLsbD i = true ∧ names q ((p.scount + i) % 2 ^ 64)))

/-- RREAD_REPLY (R226, R228): the words of the reply are write-once steps in the slot, the block's arrival word grows by one for each
transition, and the read that it answers is ended; without a slot nothing happens; a page that is being zeroed or moved makes the packet
wait, and a row that a stack core holds defers it (R353). -/
def Claim.ReadReplied : Prop :=
  ∀ (s : State) (p : Packet) (c : Ctx) (key : Nat), s.memOk → p.kind = 3 → s.arrives p = true → s.packetCtx p = some c →
    (∀ w ∈ s.work, ∀ ls m b, w.kind = .bulk ls m b → ls = []) → (∀ w ∈ s.work, ∀ id b, w.kind ≠ .record id b) →
    let u := s.taken p
    let arr := key - p.addr.toNat % 256
    let n := if p.width = 8 then 2 else 1
    let old := fun (i : Nat) => s.read (key + 8 * i) 8
    let pay := fun (i : Nat) => p.value.toNat / 2 ^ (32 * i) % 2 ^ 32
    let fresh := ((List.range n).filter fun i => decide (old i < 2 ^ 63)).length
    let held := s.heldRow key 16 = true ∨ s.heldRow arr 8 = true
    (∀ r, s.replyKey p c.num = .refuse r → exec (.rreadReply p) s = .next u) ∧
    (s.replyKey p c.num = .later → exec (.rreadReply p) s = .next (s.keep p)) ∧
    (∀ l, s.replyKey p c.num = .at key l → held → exec (.rreadReply p) s = .next (u.defer p (key / 2 ^ 36) (Config.bankOf key))) ∧
    (∀ l, s.replyKey p c.num = .at key l → ¬ held → arr + 8 ≤ key →
      ∃ t, exec (.rreadReply p) s = .next t ∧
        (∀ i < n, t.read (key + 8 * i) 8 = if old i < 2 ^ 63 then 2 ^ 63 + pay i
          else if old i = 2 ^ 64 - 1 ∨ old i % 2 ^ 63 = pay i then old i else 2 ^ 64 - 1) ∧
        t.read arr 8 = (if fresh = 0 then s.read arr 8 else arrAdd (s.read arr 8) fresh % 2 ^ 64) ∧
        (∀ j, j < key ∨ key + 8 * n ≤ j → j < arr ∨ arr + 8 ≤ j → cellRead t.mem j = cellRead s.mem j) ∧
        (∀ r, s.findRemote c.num p.ddie p.reqStream p.ext.toNat = some r → t.remotes = s.remotes.filter fun q => q.id != r.id) ∧
        (s.findRemote c.num p.ddie p.reqStream p.ext.toNat = none → t.remotes = s.remotes))

/-- ACK_SEND (R372): the queued acknowledgements of one source stream leave as one map of up to 64 counts from the lowest. RETRANSMIT (R220,
R389): an operation unanswered for 120 us leaves again, unchanged, with its tag; a bulk line reads its source again, waits while a stack core
holds a row of it (R352), and counts as denied with 0x0A once it holds poison (R222, R378). -/
def Claim.AnswersSent : Prop :=
  ∀ (s : State) (die id : Nat) (a : Ack) (r : Remote),
    let like := fun (b : Ack) => b.die = die ∧ b.ctx = a.ctx ∧ b.fabid = a.fabid ∧ b.pkg = a.pkg ∧ b.sdie = a.sdie ∧ b.stream = a.stream
    let sends := fun (t : State) (q : Packet) => t = (({ s with acks := t.acks, remotes := t.remotes } : State).emit q)
    let held := s.holding = true ∧ r.pkt.dpkg ≠ s.pkgid
    ((∀ b ∈ s.acks, b.die = die → b.pkg ≠ s.pkgid ∧ s.holding = true) → exec (.ackSend die) s = .next s) ∧
    ((s.acks.find? fun b => b.die == die && (b.pkg == s.pkgid || !s.holding)) = some a →
      ∃ t q lo, exec (.ackSend die) s = .next t ∧ sends t q ∧ q.kind = 4 ∧ q.dpkg = a.pkg ∧ q.ddie = a.sdie ∧ q.sdie = die ∧
        q.stream = a.stream ∧ q.fabid = a.fabid ∧ q.scount = lo ∧ (∃ b ∈ s.acks, like b ∧ b.scount = lo) ∧
        (∀ b ∈ s.acks, like b → lo ≤ b.scount) ∧ (∀ i < 64, q.ext.getLsbD i = true ↔ ∃ b ∈ s.acks, like b ∧ b.scount = lo + i) ∧
        ∀ b, b ∈ t.acks ↔ b ∈ s.acks ∧ ¬ (like b ∧ b.scount < lo + 64)) ∧
    (s.remotes.find? (fun q => q.id == id) = some r →
      (s.ns < r.sent + 120000 ∨ held → exec (.retransmit id) s = .next s) ∧
      (∀ src, r.sent + 120000 ≤ s.ns → ¬ held → r.src = some src → src.any (fun k => s.runHeld noCore k.1 k.2) = true →
        exec (.retransmit id) s = .next (s.noteHeld src)) ∧
      (∀ src, r.sent + 120000 ≤ s.ns → ¬ held → r.src = some src → src.any (fun k => s.runHeld noCore k.1 k.2) = false →
        src.any (fun k => s.poisonedAt k.1 k.2) = true → exec (.retransmit id) s = .next ((s.noteLine src r.ctx).answer r (some 0x0A))) ∧
      (r.sent + 120000 ≤ s.ns → ¬ held → (∀ src, r.src = some src → ∀ k ∈ src, s.runHeld noCore k.1 k.2 = false ∧ s.poisonedAt k.1 k.2 = false) →
        ∃ t q, exec (.retransmit id) s = .next t ∧ sends t q ∧ t.acks = s.acks ∧
        q = (match r.src with | none => r.pkt | some src => { r.pkt with body := src.flatMap fun k => readCells s.mem k.1 k.2 }) ∧
        t.remotes = s.remotes.map fun x => if x.id = id then { x with sent := s.ns, pkt := q } else x))

/-- Answers reach the sender, which counts its outstanding operations down: the claims above together. -/
def Obligations.AnswersReachTheSender : Prop := Claim.AnswersReceived ∧ Claim.ReadReplied ∧ Claim.AnswersSent

/-- Reachability (R364, R365, R390, R400): a beacon under the loaded CALID, outside a change, sets its sender's entry, with the dies that it
names, heard now; a peer not heard for 512 us becomes unreachable; where what can be reached changes, vector 259 goes out and every
operation towards what has gone is answered as denied. Any other beacon, and a peer heard in time, changes nothing. -/
def Claim.Reachability : Prop :=
  ∀ (s : State) (p : Packet) (pkg : Nat) (old : Reach), (∀ w ∈ s.work, ∀ ls n b, w.kind = .bulk ls n b → ls = []) →
    (∀ w ∈ s.work, ∀ id b, w.kind ≠ .record id b) → (s.remotes.map (·.id)).Nodup →
    let heard := p.kind = 7 ∧ s.arrives p = true ∧ p.spkg ≠ s.pkgid ∧ p.scount = 0 ∧ s.cal.isSome = true ∧ p.ext.toNat = s.calid ∧
      s.holding = false
    let entry := fun (t : State) (e : Reach) => t.reach = e :: s.reach.filter fun r => r.pkg != e.pkg
    let seen := fun (e : Reach) => if e.reachable then e.dies else 0
    let gone := fun (e : Reach) (r : Remote) => r.pkt.dpkg = e.pkg ∧ (seen e).getLsbD r.pkt.ddie = false
    let before := fun (q : Nat) => ((s.reach.find? fun r => r.pkg == q).map seen).getD 0
    let sets := fun (i : Instr) (e : Reach) => ∃ t, exec i s = .next t ∧ entry t e ∧ t.mem = s.mem ∧
      (∀ r, r ∈ t.remotes ↔ r ∈ s.remotes ∧ ¬ gone e r) ∧
      (before e.pkg = seen e → t.hostOut = s.hostOut ∧ t.msixPending = s.msixPending) ∧
      (before e.pkg ≠ seen e → HostMsg.msix 259 ∈ t.hostOut ∨ 259 ∈ t.msixPending) ∧
      ((∀ r ∈ s.remotes, ¬ gone e r) → t.cur = s.cur ∧ t.others = s.others)
    let late := old.reachable = true ∧ old.heard + 512000 < s.ns ∧ s.holding = false
    (heard → sets (.beacon p) { pkg := (p.body.headD 0).toNat, dies := p.body.getD 1 0, heard := s.ns, reachable := true }) ∧
    (¬ heard → exec (.beacon p) s = .next s) ∧
    (s.reach.find? (fun r => r.pkg == pkg) = some old →
      (late → sets (.peerUnreachable pkg) { old with reachable := false }) ∧ (¬ late → exec (.peerUnreachable pkg) s = .next s)) ∧
    ((∀ r ∈ s.reach, r.pkg ≠ pkg) → exec (.peerUnreachable pkg) s = .next s)

/-- SLOT_START (R364, R389): once for each slot, and outside a drain or the dark phase, one beacon goes out on every out-fibre that the slot
lights, with the package's number, its CALID and the dies that are not fenced; in a drain each such fibre sends its beacon and its
marker, once, and then nothing more; in the dark phase nothing goes; a fibre whose slot has no time left for a beacon sends none (R368).
What a fibre sends goes into its replay buffer (R387). A slot's phase is read off the nanoseconds since reset (log 19, DEDUCED). -/
def Claim.SlotStart : Prop :=
  ∀ s : State,
    let body : List Byte := [BitVec.ofNat 8 s.pkgid, BitVec.ofNat 8 s.dieMask, BitVec.ofNat 8 s.slot]
    let packet := fun (kind f q ext : Nat) (bs : List Byte) =>
      ({ kind := kind, op := 0, dpkg := q, ddie := 0, relayed := false, spkg := s.pkgid, sdie := f / 12, stream := 0, fabid := 0, scount := 0
         addr := 0, ext := BitVec.ofNat 64 ext, body := bs } : Packet)
    let mark := ((s.calNew.map (·.1.calid)).getD 0) % 2 ^ 32 + s.slot * 2 ^ 32
    let kept := fun (p : Packet) (l : List (Nat × Packet)) => keepSent s.ns 0 ((s.ns, p) :: l)
    let waves := fun (f : Nat) => ((List.range 24).filter fun i => (s.fibre f).stripe.getLsbD i).length
    let fits := fun (f : Nat) => decide (s.ns % 4000 * waves f + 8 ≤ 3800 * waves f)
    let rest := fun (t : State) => t = { s with slotsDone := s.slotCount + 1, outbox := t.outbox, fibres := t.fibres }
    (s.slotCount < s.slotsDone → exec .slotStart s = .next s) ∧
    (s.slotsDone ≤ s.slotCount →
      ((∀ n, s.calPhase ≠ .drain n) → (∀ n, s.calPhase ≠ .dark n) → ∃ t, exec .slotStart s = .next t ∧ rest t ∧
        (∀ f < 96, ∀ q, s.lit f = some q → fits f = true →
          t.fibre f = { s.fibre f with sent := kept (packet 7 f q s.calid body) (s.fibre f).sent }) ∧
        (∀ f, 96 ≤ f ∨ s.lit f = none ∨ fits f = false → t.fibre f = s.fibre f) ∧
        t.outbox = s.outbox ++ ((List.range 96).filter fits).filterMap fun f => (s.lit f).map fun q => packet 7 f q s.calid body) ∧
      ((∃ n, s.calPhase = .dark n) → exec .slotStart s = .next { s with slotsDone := s.slotCount + 1 }) ∧
      ((∃ n, s.calPhase = .drain n) → ∃ t, exec .slotStart s = .next t ∧ rest t ∧
        (∀ f < 96, ∀ q, s.lit f = some q → (s.fibre f).markerOut = false → fits f = true →
          t.fibre f = { s.fibre f with
            markerOut := true, sent := kept (packet 8 f q mark []) (kept (packet 7 f q s.calid body) (s.fibre f).sent) } ∧
          packet 7 f q s.calid body ∈ t.outbox ∧ packet 8 f q mark [] ∈ t.outbox) ∧
        (∀ f, s.lit f = none ∨ (s.fibre f).markerOut = true ∨ fits f = false → t.fibre f = s.fibre f) ∧
        ((∀ f < 96, s.lit f = none ∨ (s.fibre f).markerOut = true ∨ fits f = false) → t.outbox = s.outbox)))

/-- The dies that a beacon names are those not fenced, and an out-fibre is lit where the calender matches it in the slot, its die is not
fenced, it is not down and some module of it is lit (R364, R366, R379, R387). -/
def Claim.LitFibres : Prop :=
  ∀ (s : State) (f q : Nat) (c : Calender), s.cal = some c → f < 96 →
    let e := c.out[32 * f + s.slot]?.getD (2 ^ 15)
    (∀ d < 8, s.dieMask.testBit d = true ↔ UnitRef.die d ∉ s.fenced) ∧
    (s.lit f = some q → e.testBit 15 = false ∧ q = e % 256 ∧ UnitRef.die (f / 12) ∉ s.fenced ∧ (s.fibre f).outDown = false ∧
      (s.fibre f).dark.length ≠ 3) ∧
    (e.testBit 15 = false → UnitRef.die (f / 12) ∉ s.fenced → (s.fibre f).outDown = false → (s.fibre f).dark = [] → (s.fibre f).stripe = 0xFFFFFF →
      s.lit f = some (e % 256))

/-- Relays (R368, R369, R385, R389, R400): a packet for another package that was not relayed before, whose destination is reachable here, is
held in its engine's 4 MiB with its bit set, and otherwise discarded; it leaves on a lit out-fibre to its destination within 8 slots,
before the dark interval of its slot (whose place in time is log 19, DEDUCED), and is discarded after, or once its destination is
unreachable. A discarded packet is counted for its fibre's die and for the summary of its millisecond. -/
def Claim.Relays : Prop :=
  ∀ (s : State) (engine id fibre : Nat) (p : Packet) (r : Relay),
    let size := fun (q : Packet) => 32 * (if q.kind = 2 then 6 else if q.kind = 6 then 5 else 2)
    let used := ((s.relays.filter fun x => x.engine == engine).map fun x => size x.pkt).sum
    let takes := p.dpkg ≠ s.pkgid ∧ p.relayed = false ∧ engine < 8 ∧ UnitRef.die engine ∉ s.fenced ∧ packetFormed p = true ∧ s.isDark = false ∧
      (∃ x ∈ s.reach, x.pkg = p.dpkg ∧ x.reachable = true) ∧ used + size p ≤ 2 ^ 22
    let waves := ((List.range 24).filter fun i => (s.fibre fibre).stripe.getLsbD i).length
    let goes := s.lit fibre = some r.pkt.dpkg ∧ s.ns ≤ r.since + 32000 ∧ s.ns % 4000 * waves + size r.pkt / 8 ≤ 3800 * waves ∧
      s.isDark = false ∧ (s.fibre fibre).markerOut = false
    (takes → exec (.relayHold engine p) s = .next { s with
      relays := s.relays ++ [{ id := s.nextId, engine := engine, pkt := { p with relayed := true }, since := s.ns }], nextId := s.nextId + 1 }) ∧
    (¬ takes → exec (.relayHold engine p) s = .next s) ∧
    (s.relays.find? (fun x => x.id == id) = some r →
      let rest := s.relays.filter fun x => x.id != id
      let known := ∃ x ∈ s.reach, x.pkg = r.pkt.dpkg ∧ x.reachable = true
      (¬ known → exec (.relayForward id fibre) s = .next { s with relays := rest }) ∧
      (known → goes → ∃ t, exec (.relayForward id fibre) s = .next t ∧
        t = { s with relays := rest, outbox := s.outbox ++ [r.pkt], fibres := t.fibres } ∧
        t.fibre fibre = { s.fibre fibre with sent := keepSent s.ns 0 ((s.ns, r.pkt) :: (s.fibre fibre).sent) } ∧
        ∀ f, f ≠ fibre → t.fibre f = s.fibre f) ∧
      (known → ¬ goes → exec (.relayForward id fibre) s = .next s)) ∧
    ((∀ x ∈ s.relays, x.id ≠ id) → exec (.relayForward id fibre) s = .next s) ∧
    (∃ t, exec (.relayTimeout id) s = .next t ∧ t = { s with relays := t.relays } ∧
      ∀ x, x ∈ t.relays ↔ x ∈ s.relays ∧ ¬ (x.id = id ∧ x.since + 32000 < s.ns)) ∧
    (∃ t, exec (.fabricPacketDiscard fibre) s = .next t ∧ t.discards = s.discards + 1 ∧
      (s.discards = 0 → t.discardFibre = fibre ∧ t.discardMs = s.ns / 1000000) ∧
      (s.discards ≠ 0 → t.discardFibre = s.discardFibre ∧ t.discardMs = s.discardMs) ∧
      (∀ d : Fin 8, (t.health[d]).discards = s.health[d].discards + if fibre / 12 = d.val then 1 else 0) ∧ t.mem = s.mem ∧ t.cur = s.cur) ∧
    (s.discards = 0 ∨ s.ns / 1000000 ≤ s.discardMs → exec .discardSummary s = .next s) ∧
    (s.discards ≠ 0 → s.discardMs < s.ns / 1000000 → s.evUsed < 4032 → ∃ t x, exec .discardSummary s = .next t ∧ t.discards = 0 ∧
      t.log.getLast? = some x ∧ x.kind = 0x23 ∧ x.cont = false ∧ x.seq = s.evHead ∧ t.evHead = s.evHead + 1 ∧ t.mem = s.mem ∧ t.cur = s.cur)

/-- Loss of light (R385, R387, R390): a module that goes dark, as is noticed within 2 us, is told of with the number of wavelengths left, and
stops its fibre until it is restriped onto its lit wavelengths at the first dark interval that begins at least 0.2 us later, when what
the replay buffer of 2,048 beats holds goes out again, oldest first (of a packet held in part only the beats held), and the event tells the beats resent and the beats sent since the
loss that were not held; with all three dark the fibre is down; a module that returns is restriped onto at the next dark interval;
during a change a restripe waits for its relock. -/
def Claim.LossOfLight : Prop :=
  ∀ (s : State) (f m n at_ : Nat), s.evUsed < 4031 → s.evHeld = [] →
    let x := s.fibre f
    let dm : DarkModule := { module := m, since := at_ }
    let last := fun (t : State) (kind : Nat) => ∃ e, t.log.getLast? = some e ∧ e.kind = kind ∧ e.unit = s.fibreUnit f
    let beats := fun (l : List (Nat × Packet)) => (l.map fun q => if q.2.kind = 2 then 6 else if q.2.kind = 6 then 5 else 2).sum
    let held := ((List.range x.sent.length).filter fun i => beats (x.sent.take (i + 1)) ≤ 2048).length
    let tail := ((x.sent.drop held).take 1).filterMap fun q =>
      let n : Nat := 2048 - beats (x.sent.take held); if n = 0 then none else some (n, q.2)
    let timely := at_ ≤ s.ns ∧ s.ns ≤ at_ + 2000
    let mask : BitVec 24 := (if 0 ∈ x.dark then 0 else 0xFF) ||| (if 1 ∈ x.dark then 0 else 0xFF00) ||| (if 2 ∈ x.dark then 0 else 0xFF0000)
    let quiet := fun (t : State) => t.mem = s.mem ∧ t.cur = s.cur ∧ t.others = s.others ∧ ∀ g, g ≠ f → t.fibre g = s.fibre g
    (96 ≤ f ∨ 3 ≤ m ∨ m ∈ x.dark ∨ ¬ timely → exec (.lossOfLight f dm) s = .next s) ∧
    (f < 96 → m < 3 → m ∉ x.dark → timely →
      (x.dark.length ≠ 2 → ∃ t, exec (.lossOfLight f dm) s = .next t ∧ quiet t ∧ last t 0x10 ∧
        t.fibre f = { x with dark := m :: x.dark, restripe := some (s.ns + 200), lostAt := x.lostAt.or (some at_) }) ∧
      (x.dark.length = 2 → ∃ t, exec (.lossOfLight f dm) s = .next t ∧ quiet t ∧ last t 0x12 ∧
        t.fibre f = { x with dark := m :: x.dark, restripe := none, stripe := 0, lostAt := x.lostAt.or (some at_) } ∧ t.lit f = none)) ∧
    (m ∈ x.dark → ∃ t, exec (.lightReturn f m) s = .next t ∧ quiet t ∧
      t.fibre f = { x with dark := x.dark.filter (· != m), restripe := some s.ns }) ∧
    (m ∉ x.dark → exec (.lightReturn f m) s = .next s) ∧
    (x.restripe = none ∨ (∃ k, s.calPhase = .drain k ∨ s.calPhase = .dark k) → exec (.restripe f) s = .next s) ∧
    (x.restripe = some n →
      let begun := n + 200 ≤ (s.ns + 200) / 4000 * 4000
      let ready := (∃ k, s.calPhase = .relock k) ∨ ((s.calPhase = .none ∨ ∃ k, s.calPhase = .accepted k) ∧ begun)
      (ready → ∃ t, exec (.restripe f) s = .next t ∧ quiet t ∧ last t 0x11 ∧
        t.fibre f = { x with stripe := mask, restripe := none, lostAt := none } ∧
        (x.lostAt = none → t.outbox = s.outbox ∧ t.outTails = s.outTails) ∧
        (∀ lost, x.lostAt = some lost → t.outbox = s.outbox ++ ((x.sent.take held).map (·.2)).reverse ∧ t.outTails = s.outTails ++ tail ∧
          t.log.getLast?.map (·.data) = some (leBytes 4 mask.toNat ++ leBytes 4 (min 2048 (beats x.sent)) ++
            leBytes 4 (beats (x.sent.filter fun q => lost ≤ q.1) - 2048)))) ∧
      (¬ ready → exec (.restripe f) s = .next s))

/-- Packages reach each other by the calender's lit fibres, and dark fibres are restriped or go down: the claims above together. -/
def Obligations.FabricPathsAndLight : Prop :=
  Claim.Reachability ∧ Claim.SlotStart ∧ Claim.LitFibres ∧ Claim.Relays ∧ Claim.LossOfLight

/-- A calender block (R366, R367): one that is accepted has the MAGIC, VERSION 1, a CALID that is not zero, its PKGID below its DOMAIN, no lit
entry that names this package or one outside the domain, some lit entry in each slot of each table, and every other package in each
table within any 8 slots that follow each other. -/
def Claim.CalenderBlock : Prop :=
  ∀ (bs : List Byte) (c : Calender), parseCalender bs = some c → bs.length = 12448 →
    let entry := fun (at_ f i : Nat) => ofLeBytes ((bs.drop (at_ + 2 * (32 * f + i))).take 2)
    let names := fun (at_ i q : Nat) => ∃ f < 96, (entry at_ f i).testBit 15 = false ∧ entry at_ f i % 256 = q
    ofLeBytes (bs.take 4) = 0x4E454C43 ∧ ofLeBytes ((bs.drop 4).take 2) = 1 ∧ c.pkgid = ofLeBytes ((bs.drop 6).take 1) ∧
    c.domain = ofLeBytes ((bs.drop 8).take 2) ∧ c.calid = ofLeBytes ((bs.drop 12).take 4) ∧ ofLeBytes ((bs.drop 16).take 48) = 0 ∧
    c.block = bs ∧ c.calid ≠ 0 ∧ c.pkgid < c.domain ∧ c.domain ≤ 256 ∧
    (∀ f < 96, ∀ i < 32, c.out[32 * f + i]? = some (entry 64 f i) ∧ c.inn[32 * f + i]? = some (entry 6208 f i)) ∧
    ∀ at_ ∈ [64, 6208],
      (∀ i < 32, ∀ q, names at_ i q → q ≠ c.pkgid ∧ q < c.domain) ∧ (2 ≤ c.domain → ∀ i < 32, ∃ q, names at_ i q) ∧
      ∀ q < c.domain, q ≠ c.pkgid → ∀ i < 32, ∃ j < 8, names at_ ((i + j) % 32) q

/-- CALLOAD (R366, R367, R390): during a change it waits; otherwise it is refused with 0x09 for its signature, 0x01 for its form, 0x08 for
another number or domain, a package without a calender being a domain of one (log 19, DEDUCED), while a context with a FABID exists; or it
is accepted, and the loaded calender stays in force until the dark
phase. -/
def Claim.CalenderLoad : Prop :=
  ∀ (s u : State) (e : EntryRef) (va : Nat) (h : Head) (c : Calender),
    let i := Instr.calload e va
    let bs := readCells s.mem (hostKey va) 12448
    let signed_ := Config.signatureValid (bs.take 12352) (bs.drop 12352) = true
    let clash := (∃ x ∈ s.ctxs, x.fabid ≠ 0) ∧ (c.pkgid ≠ s.pkgid ∨ c.domain ≠ (s.cal.map (·.domain)).getD 1)
    (s.nextEntry e.queue = some h ∧ h.ref = e ∧ h.cmd = some i ∧ u = s.startEntry h) ∨
      (s.nextEntry e.queue = none ∧ (s.waitsOf e i).isSome = true ∧ u = s) →
    (s.calPhase ≠ .none → ∃ t, exec i s = .next t ∧ t = { s with queues := t.queues }) ∧
    (s.calPhase = .none →
      (¬ signed_ → exec i s = .next (u.complete e 2 9)) ∧
      (signed_ → parseCalender bs = none → exec i s = .next (u.complete e 2 1)) ∧
      (signed_ → parseCalender bs = some c → clash → exec i s = .next (u.complete e 2 8)) ∧
      (signed_ → parseCalender bs = some c → ¬ clash → ∃ t, exec i s = .next t ∧ t.calPhase = .accepted s.ns ∧ t.calNew = some (c, e) ∧
        t.calOld = s.calid ∧ t.cal = s.cal ∧ t.queues = u.queues ∧ t.mem = s.mem ∧ t.cur = s.cur ∧
        ∀ f, (t.fibre f).markerIn = false ∧ (t.fibre f).markerOut = false ∧ (t.fibre f).inLocked = false ∧ (t.fibre f).outLocked = false))

/-- The phases of a change (R389): drain begins at the next slot start, slots being counted off the nanoseconds since reset (log 19,
DEDUCED); a fibre's marker is noted; once every lit out-fibre has sent its
marker and every in-fibre has delivered one or stayed dark for 128 us of the drain, the dark phase discards the relay buffers and the new
calender is in force; relock follows, in which in-fibres and out-fibres lock. -/
def Claim.CalenderPhases : Prop :=
  ∀ (s : State) (n fibre : Nat) (out : Bool) (p : Packet) (c : Calender) (e : EntryRef),
    let uses := fun (t : List Nat) (f : Nat) => ∃ i < 32, ∃ x, t[32 * f + i]? = some x ∧ x.testBit 15 = false
    let drained := ∀ k, s.cal = some k → ∀ f < 96,
      (s.fibreSends f = true → uses k.out f → (s.fibre f).markerOut = true) ∧
      (uses k.inn f → (s.fibre f).markerIn = true ∨ max n (s.fibre f).heard + 128000 ≤ s.ns)
    (s.calPhase = .accepted n →
      (n / 4000 < s.ns / 4000 → exec .calenderDrain s = .next { s with calPhase := .drain s.ns }) ∧
      (s.ns / 4000 ≤ n / 4000 → exec .calenderDrain s = .next s)) ∧
    ((∀ k, s.calPhase ≠ .accepted k) → exec .calenderDrain s = .next s) ∧
    ((∃ k, s.calPhase = .accepted k ∨ s.calPhase = .drain k) → p.kind = 8 → s.arrives p = true → fibre < 96 →
      ∃ t, exec (.drainMarker fibre p) s = .next t ∧ t = { s with fibres := t.fibres } ∧ t.fibre fibre = { s.fibre fibre with markerIn := true, heard := s.ns } ∧
        ∀ g, g ≠ fibre → t.fibre g = s.fibre g) ∧
    ((∀ k, s.calPhase ≠ .accepted k ∧ s.calPhase ≠ .drain k) ∨ p.kind ≠ 8 ∨ s.arrives p = false → exec (.drainMarker fibre p) s = .next s) ∧
    (s.calPhase = .drain n → s.calNew = some (c, e) →
      (¬ drained → exec .calenderDark s = .next s) ∧
      (drained → ∃ t, exec .calenderDark s = .next t ∧ t.cal = some c ∧ t.calPhase = .dark s.ns ∧ t.calNew = s.calNew ∧ t.relays = [] ∧
        t.mem = s.mem ∧ t.cur = s.cur ∧ (c.pkgid = s.pkgid → t.inflight = s.inflight ∧ t.windows = s.windows))) ∧
    ((∀ k, s.calPhase ≠ .drain k) → exec .calenderDark s = .next s) ∧
    (s.calPhase = .dark n → exec .calenderRelock s = .next { s with calPhase := .relock s.ns }) ∧
    ((∀ k, s.calPhase ≠ .dark k) → exec .calenderRelock s = .next s) ∧
    (s.calPhase = .relock n → s.cal = some c →
      let lights := fibre < 96 ∧ uses (if out then c.out else c.inn) fibre
      (lights → ∃ t, exec (.fibreLock { fibre := fibre, out := out }) s = .next t ∧ t = { s with fibres := t.fibres } ∧
        t.fibre fibre = (if out then { s.fibre fibre with outLocked := true } else { s.fibre fibre with inLocked := true }) ∧
        ∀ g, g ≠ fibre → t.fibre g = s.fibre g) ∧
      (¬ lights → exec (.fibreLock { fibre := fibre, out := out }) s = .next s)) ∧
    ((∀ k, s.calPhase ≠ .relock k) → exec (.fibreLock { fibre := fibre, out := out }) s = .next s)

/-- CALENDER_RESUME (R373, R379, R389, R390): once every fibre that the calender lights, in-fibres and out-fibres alike, is locked, or after
500 us, the change is over: those without a lock go down, every package of the calender counts as heard now and every other is
unreachable, with its unanswered operations denied, its windows gone and what waited for it; held packets go out, but for those that no
lit out-fibre takes yet, and CALLOAD completes with the number of out-fibres locked. -/
def Claim.CalenderResumes : Prop :=
  ∀ (s : State) (n : Nat) (c d : Calender) (e : EntryRef), (∀ w ∈ s.work, ∀ ls m b, w.kind = .bulk ls m b → ls = []) →
    (∀ w ∈ s.work, ∀ id b, w.kind ≠ .record id b) → (s.remotes.map (·.id)).Nodup →
    let uses := fun (t : List Nat) (f : Nat) => (List.range 32).any fun i => match t[32 * f + i]? with | some x => !x.testBit 15 | none => false
    let lit := ((List.range 96).filter (uses c.out)).map (fun f => (true, f)) ++ ((List.range 96).filter (uses c.inn)).map fun f => (false, f)
    let locked := lit.filter fun q => if q.1 then (s.fibre q.2).outLocked else (s.fibre q.2).inLocked
    s.calPhase = .relock n → s.calNew = some (d, e) → s.cal = some c →
    (locked.length < lit.length → s.ns < n + 500000 → exec .calenderResume s = .next s) ∧
    (lit.length ≤ locked.length ∨ n + 500000 ≤ s.ns →
      ∃ t : State, exec .calenderResume s = .next (t.complete e 0 0 0 (locked.filter (·.1)).length) ∧
        t.calPhase = .none ∧ t.calNew = none ∧ t.cal = some c ∧
        (∀ f, f < 96 → ((t.fibre f).outDown = true ↔ (s.fibre f).outDown = true ∨ ((true, f) ∈ lit ∧ (true, f) ∉ locked)) ∧
          ((t.fibre f).inDown = true ↔ (s.fibre f).inDown = true ∨ ((false, f) ∈ lit ∧ (false, f) ∉ locked))) ∧
        (∀ q, (∃ r ∈ t.reach, r.pkg = q ∧ r.reachable = true) ↔ q < c.domain ∧ q ≠ c.pkgid) ∧ (∀ r ∈ t.reach, r.heard = s.ns) ∧
        (∀ w, w ∈ t.windows ↔ w ∈ s.windows ∧ (w.spkg = c.pkgid ∨ w.spkg < c.domain)) ∧
        (∀ r, r ∈ t.remotes ↔ r ∈ s.remotes ∧ (r.pkt.dpkg = c.pkgid ∨ r.pkt.dpkg < c.domain)) ∧
        t.outbox = s.outbox ++ s.heldOut.filter (fun p => p.dpkg < c.domain && (t.outFibre p).isSome) ∧
        t.heldOut = s.heldOut.filter (fun p => p.dpkg < c.domain && (t.outFibre p).isNone) ∧ t.mem = s.mem ∧ t.queues = s.queues)

/-- A calender is checked, loaded, started and resumed in phases: the claims above together. -/
def Obligations.CalenderLoadedAndPhased : Prop :=
  Claim.CalenderBlock ∧ Claim.CalenderLoad ∧ Claim.CalenderPhases ∧ Claim.CalenderResumes

/-- UNIT_FENCE and HEARTBEAT_LOSS (R375, R379): nothing happens for a unit that does not exist, or whose trigger does not hold, or that is
fenced already; otherwise the unit is fenced, and the event of its kind is told. The controller of an optical engine takes the fibres of
its die down (the model's choice, log 46); the sequencer of a stack core stops its groups with CHECK, class 4 (R376). -/
def Claim.UnitFenced : Prop :=
  ∀ (s : State) (u : UnitRef) (trigger kind : Nat), s.evUsed < 4096 → s.evHeld = [] →
    let told := fun (t : State) (k : Nat) => ∃ e ∈ t.log, e.seq = s.evHead ∧ e.kind = k ∧ e.cont = true
    let code := fun (x : UnitRef) => match x with
      | .lane _ _ => 4 | .core _ => 5 | .beater _ _ _ => 6 | .channel _ _ => 7 | .clusterScratch _ => 8 | .die _ => 9 | .fibre _ => 0x12
      | .link _ _ => 0xA
    let large := fun (x : UnitRef) => (∃ c, x = .core c) ∨ (∃ k, x = .clusterScratch k) ∨ (∃ d, x = .die d)
    let sets := fun (i : Instr) (x : UnitRef) => ∃ t, exec i s = .next t ∧ x ∈ t.fenced ∧ (∀ y ∈ s.fenced, y ∈ t.fenced) ∧ told t (code x)
    (unitExists u = false ∨ (s.triggered u = false ∧ reportable u = false) → exec (.unitFence u trigger) s = .next s) ∧
    (unitExists u = true → s.triggered u = true ∨ reportable u = true →
      (u ∈ s.fenced → (large u ∨ (∃ st ch, u = .channel st ch) ∨ ∃ l a b, u = .beater l a b) → exec (.unitFence u trigger) s = .next s) ∧
      (∀ c p, u = .lane c p → p ∈ (s.core c).fencedLanes → exec (.unitFence u trigger) s = .next s) ∧
      (u ∉ s.fenced → (∀ c p, u = .lane c p → p ∉ (s.core c).fencedLanes) → sets (.unitFence u trigger) u)) ∧
    (unitExists u = false → exec (.heartbeatLoss u kind) s = .next s) ∧
    (unitExists u = true →
      (∀ c p, u = .lane c p → UnitRef.core c ∉ s.fenced → sets (.heartbeatLoss u kind) (.core c)) ∧
      (∀ c, u = .core c → u ∉ s.fenced → sets (.heartbeatLoss u kind) u) ∧
      (∀ d, u = .die d → u ∉ s.fenced → sets (.heartbeatLoss u kind) u) ∧
      (∀ c p, u = .lane c p → UnitRef.core c ∈ s.fenced → exec (.heartbeatLoss u kind) s = .next s) ∧
      (((∃ c, u = .core c) ∨ ∃ d, u = .die d) → u ∈ s.fenced → exec (.heartbeatLoss u kind) s = .next s) ∧
      (∀ f, u = .fibre f → ∃ t, exec (.heartbeatLoss u kind) s = .next t ∧ t.mem = s.mem ∧ t.fenced = s.fenced ∧
        ∀ g, (g / 12 = f / 12 → (t.fibre g).outDown = true ∧ (t.fibre g).inDown = true) ∧ (g / 12 ≠ f / 12 → t.fibre g = s.fibre g)) ∧
      (∀ c, u = .core c → 96 ≤ c → u ∉ s.fenced → s.cur.live = true → s.cur.place.coreIx = c → s.cur.stop = .running →
        ∃ t, exec (.heartbeatLoss u kind) s = .next t ∧ t.cur.tmask = 0xFFFFFFFF ∧ t.cur.wait = .none ∧
          t.cur.stop = .faulted { cause := causeCheck, hw := true, lane := true, detail := BitVec.ofNat 64 (4 * 2 ^ 56 + kind % 256) } 0))

/-- When a unit's trigger holds (R379): a lane, a beater, from its first re-execution that disagrees; a core with its third fenced lane, a
failed pipeline, or as many matrix CHECKs in 24 h as the parameters say; a channel with their number of bursts in error in 24 h; a cluster
or a die with their number of words in error of one bank in 24 h, a die also without a link. What a poisoned unit adds to these counts, it
adds at its first read since it was written, which writes one POISON event (R378, R385). -/
def Claim.FenceTriggers : Prop :=
  ∀ s : State,
    let errors := fun (u : UnitRef) (k : Nat) => s.errors.filter fun e => e.1 == u && e.2.1 == k
    let day := fun (u : UnitRef) (k : Nat) => ((errors u k).filter fun e => decide (s.ns < e.2.2 + 86400000000000)).length
    let bank := fun (u : UnitRef) => errors u 5 ≠ [] ∧ s.params.spadWords ≤ day u 5
    (∀ c p, s.triggered (.lane c p) = true ↔ errors (.lane c p) 1 ≠ []) ∧
    (∀ l a b, s.triggered (.beater l a b) = true ↔ errors (.beater l a b) 2 ≠ []) ∧
    (∀ c, s.triggered (.core c) = true ↔ 3 ≤ (s.core c).fencedLanes.length ∨ errors (.core c) 6 ≠ [] ∨ s.params.mxChecks ≤ day (.core c) 3) ∧
    (∀ st ch, s.triggered (.channel st ch) = true ↔ s.params.chBursts ≤ day (.channel st ch) 4) ∧
    (∀ k, s.triggered (.clusterScratch k) = true ↔ ∃ b, bank (.beater 1 k b)) ∧
    (∀ d, s.triggered (.die d) = true ↔ (∃ l b, l ≠ 1 ∧ bank (.beater l d b)) ∨
      (s.links.filter fun x => x.die == d && x.fenced).length = 4) ∧
    (∀ f, s.triggered (.fibre f) = false) ∧ (∀ d l, s.triggered (.link d l) = false) ∧
    ∀ k n ctx u, (s.poisoned.filter fun x => x < k + n && k < x + eccSize x) = [u] → u < 2 ^ 43 → s.evUsed < 4032 →
      let level := if u < 2 ^ 40 then 4 else if u < 2 ^ 41 then 1 else if u < 2 ^ 42 then 2 else 3
      let p := if u < 2 ^ 41 then (u - 2 ^ 40) % 2 ^ 20 else if u < 2 ^ 42 then (u - 2 ^ 41) % 2 ^ 23 else (u - 2 ^ 42) % 2 ^ 26
      let unit := if u < 2 ^ 41 then 128 else 64
      let banks := if u < 2 ^ 41 then 32 else if u < 2 ^ 42 then 64 else 192
      (u ∈ s.poisonSeen → s.notePoison k n ctx = s) ∧
      (u ∉ s.poisonSeen → let t := s.notePoison k n ctx
        t.poisonSeen = u :: s.poisonSeen ∧ t.mem = s.mem ∧ t.cur = s.cur ∧ t.others = s.others ∧ t.evHead = s.evHead + 1 ∧
        t.errors = s.errors ++ (if u < 2 ^ 40 then [(.channel (u / 2 ^ 36) (u / 2 ^ 16 % 16), 4, s.ns)] else if u < 2 ^ 41 then []
          else if u < 2 ^ 42 then [(.beater 1 ((u - 2 ^ 41) / 2 ^ 23) (p / unit % banks), 5, s.ns)]
          else [(.beater 2 ((u - 2 ^ 42) / 2 ^ 26) (p / unit % banks), 5, s.ns)]) ∧
        ∃ e, t.log.getLast? = some e ∧ e.kind = 2 ∧ e.ctx = ctx ∧ e.seq = s.evHead ∧
          e.data = leBytes 8 (if u < 2 ^ 40 then u else p / (unit * banks) * unit + p % unit) ++ [BitVec.ofNat 8 level])

/-- A lane fenced (R247, R380): its groups go on, under the same logical lane and with every register as it was, on the lowest-numbered free
spare; a fault raised before keeps the lane that it was raised on; no other group and no memory changes. The third fenced lane takes
its core. -/
def Claim.SpareLane : Prop :=
  ∀ (s : State) (core plane trigger lane spare : Nat), unitExists (.lane core plane) = true → s.triggered (.lane core plane) = true →
    let c := s.core core
    let on := fun (g : Group) => g.live = true ∧ g.place.coreIx = core ∧ g.place.plane = plane
    let moved := fun (g : Group) => { g with
      place := { g.place with plane := spare }
      stop := match g.stop with | .faulted f n => .faulted { f with plane := some (f.plane.getD plane) } n | x => x }
    plane ∉ c.fencedLanes → c.fencedLanes.length < 2 → c.laneOf plane = some lane →
    (spare = 64 ∨ (spare = 65 ∧ (64 ∈ c.fencedLanes ∨ ∃ q ∈ c.spares, q.2 = 64))) → spare ∉ c.fencedLanes → (∀ q ∈ c.spares, q.2 ≠ spare) →
    spare ≠ plane →
    ∃ t, exec (.unitFence (.lane core plane) trigger) s = .next t ∧ t.mem = s.mem ∧ t.teams = s.teams ∧ t.launches = s.launches ∧
      t.groups.length = s.groups.length ∧
      (∀ (n : Nat) (g : Group), s.groups[n]? = some g → (on g → t.groups[n]? = some (moved g)) ∧ (¬ on g → t.groups[n]? = some g)) ∧
      (t.core core).fencedLanes = plane :: c.fencedLanes ∧ (t.core core).plane lane = spare ∧
      ∀ m, m ≠ lane → (t.core core).plane m = c.plane m

/-- A beater fenced (R381): while the other bank of its pair has its beater, nothing else changes; with both fenced, the cluster, or the die,
is fenced. A channel fenced (R383, R384): translations to its frames are gone, no page that is still known, however large, gives a lost
frame, a walk that reaches one finds it malformed, and a context that
maps one has failed. -/
def Claim.BanksAndChannels : Prop :=
  ∀ (s : State) (level array bank st ch trigger : Nat),
    let b := UnitRef.beater level array bank
    let other := UnitRef.beater level array (if bank % 2 = 0 then bank + 1 else bank - 1)
    let k := UnitRef.channel st ch
    (unitExists b = true → s.triggered b = true → b ∉ s.fenced →
      (other ∉ s.fenced → ∃ t, exec (.unitFence b trigger) s = .next t ∧ t.fenced = b :: s.fenced ∧ t.mem = s.mem ∧ t.teams = s.teams ∧
        t.launches = s.launches ∧ t.ctxs = s.ctxs ∧ t.cur = s.cur ∧ t.others = s.others) ∧
      (other ∈ s.fenced → ∃ t, exec (.unitFence b trigger) s = .next t ∧
        (if level = 1 then UnitRef.clusterScratch array else .die array) ∈ t.fenced)) ∧
    (unitExists k = true → k ∉ s.fenced → ∃ t, exec (.unitFence k trigger) s = .next t ∧ t.fenced = k :: s.fenced ∧ t.mem = s.mem ∧
      t.cur = s.cur ∧ t.others = s.others ∧
      (∀ x ∈ t.tlb, x ∈ s.tlb ∧ ¬ (x.hm = false ∧ x.pa / 2 ^ 36 = st ∧ x.pa % 2 ^ 36 / 2 ^ 16 % 16 = ch)) ∧
      (∀ pa, pa / 2 ^ 36 = st → pa % 2 ^ 36 / 2 ^ 16 % 16 = ch → t.frameLost pa = true) ∧
      (∀ die ctx va l, t.translate die ctx va = .leaf l → l.hm = false → t.frameLost (l.pa + (va - l.va)) = false) ∧
      ((s.ctxs.map (·.num)).Nodup → ∀ c ∈ s.ctxs, s.mapsUnit k walkLevels c.ptroot = true → (t.ctx c.num).failed.isSome = true ∧
        (c.failed = none → ∀ l ∈ t.launches, l.ctx = c.num → l.stopped = true)))

/-- A walk that reaches a frame of a fenced channel or die, be it the page's or a table's, finds the entry malformed (R322, R383). -/
def Claim.LostFrames : Prop :=
  ∀ (s : State) (die ctx va table : Nat),
    let at_ := table + 16 * (va / 2 ^ 16 % 2 ^ 5)
    let e := s.read at_ 16
    let pa := bits e 63 9 * 2 ^ 9 + va % 2 ^ 16
    let lost := fun (k : Nat) => UnitRef.die (k / 2 ^ 37) ∈ s.fenced ∨ UnitRef.channel (k / 2 ^ 36) (k % 2 ^ 36 / 2 ^ 16 % 16) ∈ s.fenced
    (∀ level rest, lost (table + 16 * (va / 2 ^ level.1 % 2 ^ level.2.1)) → walkFrom s die ctx va (level :: rest) table = .malformed) ∧
    (s.poisonedAt at_ 16 = false → e.testBit 0 = true → entryBad 16 true false 1 e = false → e.testBit 64 = false →
      (walkFrom s die ctx va [(16, 5, true, false, 1)] table = .malformed ↔ lost at_ ∨ lost pa))

/-- A core, cluster or die fenced (R379, R382): a launch that is not IDEM with a team there is lost, with the number of the fence event; a team
of an IDEM launch is flushed, and waits again with the same TEAMID; the groups of other teams go on; the unit takes no team. -/
def Claim.StrandedTeams : Prop :=
  ∀ (s : State) (core trigger : Nat) (x : Team), core < 96 → UnitRef.core core ∉ s.fenced → s.evHeld = [] → s.evUsed < 4096 →
    (s.launches.map (·.key)).Nodup → (s.teams.map (·.key)).Nodup →
    x ∈ s.teams → x.status = .resident → core ∈ x.unitCores → (∃ l ∈ s.launches, l.key = x.launch) →
    let l := s.launch x.launch
    l.stopped = false →
    (l.idem = false → ∃ t, exec (.unitFence (.core core) trigger) s = .next t ∧ (t.launch x.launch).lost = some s.evHead ∧
      t.coreFenced core = true ∧ t.mem = s.mem) ∧
    (l.idem = true → x.nmrun = false → (∀ y ∈ s.teams, y.key ≠ x.key → core ∉ y.unitCores) → ∃ t, exec (.unitFence (.core core) trigger) s = .next t ∧ t.coreFenced core = true ∧ t.mem = s.mem ∧
      (t.launch x.launch).lost = none ∧
      { key := x.key, launch := x.launch, teamId := x.teamId, stage := x.stage, die := x.die, status := .waiting s.now : Team } ∈ t.teams ∧
      ∀ g ∈ t.groups, g.live = true → g.team ≠ x.key)

/-- A failed unit is fenced, its spare taken, its lost frames and stranded teams reported: the claims above together. -/
def Obligations.FailuresFencedAndReported : Prop :=
  Claim.UnitFenced ∧ Claim.FenceTriggers ∧ Claim.SpareLane ∧ Claim.BanksAndChannels ∧ Claim.LostFrames ∧ Claim.StrandedTeams

/-- Die-to-die links (R391): the eighth replay in a row that fails makes a link retrain, and one that delivers the flit starts the count
afresh; a link that retrains starts anew; one that does not is fenced, and its die with it when no link is left. -/
def Claim.Links : Prop :=
  ∀ (s : State) (d : Fin 8) (n : Nat) (ok : Bool), n < 4 →
    let x := s.link d.val n
    let failed := if ok then 0 else x.fails + 1
    let idle := x.fenced = false ∧ x.retraining = false
    let others := fun (t : State) => ∀ e m, ¬ (e = d.val ∧ m = n) → t.link e m = s.link e m
    (¬ idle → exec (.flitReplay d.val { link := n, ok := ok }) s = .next s) ∧
    (idle → ∃ t, exec (.flitReplay d.val { link := n, ok := ok }) s = .next t ∧ others t ∧
      t.link d.val n = { x with fails := failed, retraining := failed = 8 } ∧
      (t.health[d]).replays = s.health[d].replays + 1 ∧ t.mem = s.mem ∧ t.cur = s.cur) ∧
    (x.retraining = false → exec (.linkRetrainEnd d.val n ok) s = .next s) ∧
    (x.retraining = true → x.fenced = false →
      (∃ t, exec (.linkRetrainEnd d.val n true) s = .next t ∧ t = { s with links := t.links } ∧ others t ∧
        t.link d.val n = { x with fails := 0, retraining := false }) ∧
      (∃ t, exec (.linkRetrainEnd d.val n false) s = .next t ∧ others t ∧ t.link d.val n = { x with fails := 0, retraining := false, fenced := true } ∧
        ((∀ m < 4, m ≠ n → (s.link d.val m).fenced = true) → (s.links.map fun y => (y.die, y.link)).Nodup →
          (∀ y ∈ s.links, y.link < 4) → UnitRef.die d.val ∈ t.fenced)))

/-- The memory stacks (R350-R352, R375): patrol corrects and counts the single errors of its stack, or of the scratchpads; a refresh takes 180 ns;
a burst behind which a per-bank command has waited 1 us goes back to its last safe point: the commands issued since then, and what they
have read, are withdrawn to be issued again, and the waiting commands are served (log 61, DESIGN CHOICE, says what is withdrawn); a row that has been held for 8 us while an access waits makes its core release all its rows. No byte
of memory changes but by the commands served. -/
def Claim.Stacks : Prop :=
  ∀ (s : State) (unit st ch bank row : Nat) (r : Row),
    let patrolled := fun (k : Nat) => if k < 2 ^ 40 then unit = k / 2 ^ 36 else unit = 16 ∧ k < 2 ^ 64
    let due := fun (b : Burst) => b.stack = st ∧ b.channel = ch ∧ ∃ w, b.waiter = some w ∧ w + 1000 ≤ s.ns
    (∃ t, exec (.patrolScrub unit) s = .next t ∧ t = { s with soft := t.soft, health := t.health } ∧
      (∀ k, k ∈ t.soft ↔ k ∈ s.soft ∧ ¬ patrolled k.1) ∧
      ∀ d : Fin 8, (t.health[d]).memSymbols = s.health[d].memSymbols +
        (s.soft.filter fun k => decide (k.1 < 2 ^ 40) && unit == k.1 / 2 ^ 36 && k.1 / 2 ^ 37 == d.val).length) ∧
    ((∃ x ∈ s.refresh, x.1 = st ∧ x.2.1 = ch ∧ x.2.2.1 = bank) → exec (.perBankRefresh st ch bank) s = .next s) ∧
    ((∀ x ∈ s.refresh, ¬ (x.1 = st ∧ x.2.1 = ch ∧ x.2.2.1 = bank)) →
      exec (.perBankRefresh st ch bank) s = .next { s with refresh := s.refresh ++ [(st, ch, bank, s.ns + 180)] }) ∧
    (∃ t, exec (.refreshEnd st ch bank) s = .next t ∧ t = { s with refresh := t.refresh } ∧
      ∀ x, x ∈ t.refresh ↔ x ∈ s.refresh ∧ ¬ (x.1 = st ∧ x.2.1 = ch ∧ x.2.2.1 = bank ∧ x.2.2.2 ≤ s.ns)) ∧
    ((∀ b ∈ s.bursts, ¬ due b) → exec (.burstRollback st ch) s = .next s) ∧
    (∀ b, b ∈ s.bursts → due b → (∀ c ∈ s.bursts, due c → c = b) →
      ((∀ x ∈ s.work, ∀ op f acc zero act, x.kind ≠ .laneMem op f acc zero act) →
        ∃ t, exec (.burstRollback st ch) s = .next t ∧ t = { s with bursts := t.bursts, work := t.work } ∧
          t.work.length = s.work.length ∧ t.bursts.length = s.bursts.length ∧
          (∀ (i : Nat) y, s.work[i]? = some y →
            ((∀ op f acc got zero act, y.kind ≠ .burst op f acc got zero act) → t.work[i]? = some y) ∧
            ∀ op f acc got zero act, y.kind = .burst op f acc got zero act → ∃ acc' got',
              t.work[i]? = some { y with kind := .burst op f acc' got' zero act } ∧
              (∀ a, a ∈ acc' ↔ a ∈ acc ∨ ∃ q ∈ got, q.1 = a ∧ some (y.id, a) ∈ b.since) ∧
              ∀ q, q ∈ got' ↔ q ∈ got ∧ some (y.id, q.1) ∉ b.since) ∧
          ∀ (i : Nat) c, s.bursts[i]? = some c → t.bursts[i]? =
            some (if c.core = b.core ∧ c.stack = st ∧ c.channel = ch then { c with since := [], waiter := none } else c)) ∧
      ((s.work.map (·.id)).Nodup → (s.bursts.map (·.core)).Nodup →
        ∃ t, exec (.burstRollback st ch) s = .next t ∧ ∀ y ∈ s.work, (∀ op f acc got zero act, y.kind ≠ .burst op f acc got zero act) →
          let served := ∃ op f acc zero act, y.kind = .laneMem op f acc zero act ∧ (((s.group y.group).getD {}).place).onStack = false ∧
            (∃ a ∈ acc, s.behindBurst a.key b = true) ∧ s.laneBehind y op f acc = false ∧
            ∀ a ∈ acc, s.rowHeld ((s.group y.group).getD {}).place.coreIx a.key = false
          (served → y ∉ t.work) ∧ (¬ served → y ∈ t.work))) ∧
    (s.rows.find? (fun x => x.stack == st && x.row == row) = some r →
      (r.waiter.isSome = true → r.since + 8000 ≤ s.ns →
        exec (.rowHoldTimeout st row) s = .next { s with
          rows := s.rows.filter fun x => x.core != r.core
          bursts := s.bursts.map fun b => if b.core = r.core then { b with since := [] } else b }) ∧
      (r.waiter = none ∨ s.ns < r.since + 8000 → exec (.rowHoldTimeout st row) s = .next s)) ∧
    ((∀ x ∈ s.rows, ¬ (x.stack = st ∧ x.row = row)) → exec (.rowHoldTimeout st row) s = .next s)

/-- Power and ageing (R4, R385, R392): the clock moves by one step, never above its ceiling or below 1.35 GHz; a canary reading, at most hourly,
starts a re-plan where a slack has fallen by more than 8 ps or a week has passed; a re-plan steps the voltage by 5 mV every 10 ms until the
smallest slack lies in its band; where the maximum offset cannot give it, REPLAN and AGED are told and the core is fenced, or the ceiling
falls. The hourly summary of a die carries its
four counters. No register and no byte of memory changes with the clock or the voltage. -/
def Claim.PowerAndAgeing : Prop :=
  ∀ (s : State) (d : Fin 8) (cs : List Canary) (n : Nat), cs ≠ [] → s.evUsed < 4032 →
    let x := s.health[d]
    let hour := 3600000000000
    let low := minSlack cs
    let target : Int := s.params.slack
    let only := fun (t : State) => t = { s with health := t.health } ∧ ∀ e, e ≠ d → t.health[e] = s.health[e]
    let due := ∀ a, x.canaryAt = some a → a + hour ≤ s.ns
    let fell := ∃ q ∈ cs.zip x.planSlack, q.1.slack + 8 < q.2
    exec (.powerCapStep true) s = .next { s with clockStep := min (s.clockStep + 1) 10 } ∧
    exec (.powerCapStep false) s = .next { s with clockStep := max (s.clockStep - 1) s.ceiling } ∧
    (∀ c ∈ cs, low ≤ c.slack) ∧ (∃ c ∈ cs, c.slack = low) ∧
    (¬ due → exec (.canaryRead d.val cs) s = .next s) ∧
    (due → ∃ t, exec (.canaryRead d.val cs) s = .next t ∧ only t ∧ (t.health[d]).slack = low ∧ (t.health[d]).canaryAt = some s.ns ∧
      (x.replanning = none → ((t.health[d]).replanning = some s.ns ↔ fell ∨ x.plan + 168 * hour ≤ s.ns)) ∧
      (x.replanning ≠ none → (t.health[d]).replanning = x.replanning)) ∧
    (x.replanning = none → exec (.replan d.val cs) s = .next s) ∧
    (x.replanning = some n →
      (s.ns < n → exec (.replan d.val cs) s = .next s) ∧
      (n ≤ s.ns →
        (target ≤ low → low ≤ target + 10 → ∃ t e, exec (.replan d.val cs) s = .next t ∧ (t.health[d]).replanning = none ∧
          (t.health[d]).plan = s.ns ∧ (t.health[d]).volt = x.volt ∧ t.log.getLast? = some e ∧ e.kind = 0x28 ∧ t.mem = s.mem ∧ t.cur = s.cur) ∧
        (target + 10 < low → ∃ t, exec (.replan d.val cs) s = .next t ∧ only t ∧ (t.health[d]).volt = x.volt - 5 ∧
          (t.health[d]).replanning = some (s.ns + 10000000)) ∧
        (low < target → x.volt + 5 ≤ s.params.maxVolt → ∃ t, exec (.replan d.val cs) s = .next t ∧ only t ∧
          (t.health[d]).volt = x.volt + 5 ∧ (t.health[d]).replanning = some (s.ns + 10000000)) ∧
        (low < target → (s.params.maxVolt : Int) < x.volt + 5 → s.evHeld = [] →
          ((∀ c ∈ cs, c.core = none) → ∃ t, exec (.replan d.val cs) s = .next t ∧ t.ceiling = min (s.ceiling + 1) 10 ∧
            (∃ e f, t.log.getLast? = some e ∧ e.kind = 0x29 ∧ e.cont = true ∧ f ∈ t.log ∧ f.seq = s.evHead ∧ f.kind = 0x28) ∧
            (t.health[d]).replanning = none ∧ (t.health[d]).plan = s.ns ∧ (t.health[d]).volt = x.volt ∧
            t.clockStep = max s.clockStep (min (s.ceiling + 1) 10) ∧ t.mem = s.mem ∧ t.cur = s.cur) ∧
          (∀ c ∈ cs, ∀ k, k < 12 → cs = [c] → c.core = some k → ∃ t, exec (.replan d.val cs) s = .next t ∧
            UnitRef.core (d.val * 12 + k) ∈ t.fenced)))) ∧
    (s.ns / hour ≤ x.summaryAt → exec (.correctedSummary d.val) s = .next s) ∧
    (x.summaryAt < s.ns / hour → ∃ t e, exec (.correctedSummary d.val) s = .next t ∧ (t.health[d]).summaryAt = s.ns / hour ∧
      t.log.getLast? = some e ∧ e.kind = 1 ∧ e.data = leBytes 8 x.memSymbols ++ leBytes 8 x.sramBits ++ leBytes 8 x.replays ++ leBytes 8 x.poisons)

/-- HEALTH (R303, R386): the record of 4 KiB stands at the address it names, its fields at their places, the beaters that another bank's
stands in for among them, and no other byte changes. -/
def Claim.HealthRecord : Prop :=
  ∀ (s : State) (e : EntryRef) (va : Nat) (h : Head), s.memOk →
    s.nextEntry e.queue = some h → h.ref = e → h.cmd = some (.health e va) →
    let k := hostKey va
    ∃ t : State, exec (.health e va) s = .next (t.complete e 0) ∧ t.queues = (s.startEntry h).queues ∧ t.cur = s.cur ∧
      (∀ j, j < k ∨ k + 4096 ≤ j → cellRead t.mem j = cellRead s.mem j) ∧
      t.read k 8 = s.ns % 2 ^ 64 ∧ t.read (k + 8) 8 = (s.evHead - 1) % 2 ^ 64 ∧ t.read (k + 16) 2 = (2700 - 135 * s.ceiling) % 2 ^ 16 ∧
      t.read (k + 18) 2 = 0 ∧ t.read (k + 20) 4 = s.params.svn % 2 ^ 32 ∧ t.read (k + 24) 40 = 0 ∧ t.read (k + 3648) 448 = 0 ∧
      ∀ d : Fin 8,
        let x := s.health[d]
        let p := k + 64 + 448 * d.val
        (∀ c < 12, (t.read p 2).testBit c = true ↔ s.coreFenced (d.val * 12 + c) = true) ∧
        (∀ c < 3, (t.read p 2).testBit (12 + c) = true ↔ UnitRef.clusterScratch (d.val * 3 + c) ∈ s.fenced) ∧
        ((t.read p 2).testBit 15 = true ↔ UnitRef.die d.val ∈ s.fenced) ∧
        (∀ f < 12, (t.read (p + 4) 4).testBit (12 + f) = true ↔ (s.fibre (d.val * 12 + f)).inDown = true) ∧
        (∀ f < 12, (t.read (p + 4) 4).testBit f = true ↔
          (s.fibre (d.val * 12 + f)).outDown = true ∨ (s.fibre (d.val * 12 + f)).dark.length = 3) ∧
        (∀ f < 12, ∀ m < 3, (t.read (p + 8) 8).testBit (3 * f + m) = true ↔ m ∈ (s.fibre (d.val * 12 + f)).dark) ∧
        (∀ c < 12, t.read (p + 16 + c) 1 = (s.core (d.val * 12 + c)).spares.length % 2 ^ 8) ∧
        (∀ q < 2, ∀ c < 16, (t.read (p + 28) 4).testBit (16 * q + c) = true ↔ UnitRef.channel (2 * d.val + q) c ∈ s.fenced) ∧
        (t.read (p + 32) 4 = ((s.fenced.filter fun u => match u with | .beater 1 a _ => a / 3 == d.val | _ => false).length +
          2 ^ 16 * (s.fenced.filter fun u => match u with | .beater 2 a _ => a == d.val | _ => false).length) % 2 ^ 32) ∧
        t.read (p + 40) 8 = x.memSymbols % 2 ^ 64 ∧ t.read (p + 48) 8 = x.sramBits % 2 ^ 64 ∧ t.read (p + 56) 8 = x.replays % 2 ^ 64 ∧
        t.read (p + 64) 8 = x.poisons % 2 ^ 64 ∧ t.read (p + 72) 4 = x.matrix % 2 ^ 32 ∧ t.read (p + 76) 4 = x.laneBeater % 2 ^ 32 ∧
        t.read (p + 80) 8 = x.conflicts % 2 ^ 64 ∧ (t.read (p + 88) 2 : Int) = x.slack % 2 ^ 16 ∧
        (t.read (p + 90) 2 : Int) = x.volt % 2 ^ 16 ∧ t.read (p + 92) 8 = x.plan % 2 ^ 64 ∧ t.read (p + 100) 4 = x.discards % 2 ^ 32 ∧
        t.read (p + 104) 344 = 0

/-- COLD_RESET (R393): with nothing failed, every register, scratchpad and memory of the package is in its reset state; the host's memory, the
messages already sent, what is to happen outside and the free values taken so far stay. That each byte of the device reads 0 after reset
is the model's choice (log 4), as are the reset values that the manual does not give (log 8, log 24). -/
def Claim.ColdReset : Prop :=
  ∀ (s : State),
    let host := fun (k : Nat) => 2 ^ 64 ≤ k
    ∃ t, exec (.coldReset []) s = .next t ∧
      t = { State.reset with mem := t.mem, agenda := s.agenda, hostOut := s.hostOut, outbox := s.outbox, outTails := s.outTails, fresh := s.fresh } ∧
      (∀ k, host k → cellRead t.mem k = cellRead s.mem k) ∧ ∀ k, ¬ host k → cellRead t.mem k = 0

/-- Link, stack, power and ageing events, the health record and cold reset act as stated: the claims above together. -/
def Obligations.ReliabilityEventsAndReset : Prop :=
  Claim.Links ∧ Claim.Stacks ∧ Claim.PowerAndAgeing ∧ Claim.HealthRecord ∧ Claim.ColdReset

/-- SPDM (R396): a request is served when the connection has come far enough for it (the version before the capabilities, both before the
algorithms, all three before certificates, measurements and a session), and is otherwise answered with ERROR; only slot 0 holds a
certificate; every other request is ERROR, UnsupportedRequest. The measurements are SHA-384 digests and the fence map; the requester must
offer ECDSA P-384 and SHA-384, and secp384r1 with AES-256-GCM for a session, inside which every answer is sealed, each with its number in
the initialisation vector. The codes and the layout of a sealed message are those of DMTF (log 18). Nothing but the connection, the
mailbox and, for the secrets of a session, the free values changes. -/
def Claim.Attestation : Prop :=
  ∀ (s : State) (slot off len index code : Nat) (req : List Byte),
    let c := s.spdm
    let agreed := c.version = true ∧ c.capabilities = true ∧ c.algorithms = true
    let sealed := fun (p : Spdm) (msg : List Byte) =>
      let head := leBytes 4 p.sid ++ leBytes 2 (msg.length + 16)
      let iv := List.zipWith (· ^^^ ·) ((leBytes 8 p.iv[0].toNat ++ leBytes 8 p.iv[1].toNat).take 12) (leBytes 12 p.sent)
      HostMsg.secured (head ++ gcmSeal (p.key.toList.flatMap fun w => leBytes 8 w.toNat) iv head msg)
    let gives := fun (i : Instr) (p : Spdm) (n : Nat) (b : List Byte) =>
      (p.session ≠ some true → exec i s = .next { s with spdm := p, hostOut := s.hostOut ++ [.spdm n b] }) ∧
      (p.session = some true → exec i s = .next { s with
        spdm := { p with sent := p.sent + 1 }, hostOut := s.hostOut ++ [sealed p (BitVec.ofNat 8 n :: b)] })
    let fails := fun (i : Instr) (e : Nat) => gives i c 0x7F [BitVec.ofNat 8 e, 0]
    let secret := fun (i : Nat) => Config.freeValue (s.fresh + i)
    let part := fun (n : Nat) => if n = 1 then sha384 Config.romBytes
      else if n = 2 then (if s.params.loaded then sha384 s.params.block else List.replicate 48 0)
      else if n = 3 then (match s.cal with | some k => sha384 k.block | none => List.replicate 48 0)
      else (List.range 8).flatMap s.fenceMap
    let all := part 1 ++ part 2 ++ part 3 ++ part 4
    let body := Config.spdmBody
    gives .getVersion { version := true } 0x04 (body 0x84 [] []) ∧
    (c.version = true → gives (.getCapabilities req) { c with capabilities := true } 0x61 (body 0xE1 req [])) ∧
    (c.version = false → fails (.getCapabilities req) 4) ∧
    (c.version = true → c.capabilities = true →
      let asym := ((req.getD 4 0).toNat + 256 * (req.getD 5 0).toNat)
      let hash := ((req.getD 8 0).toNat + 256 * (req.getD 9 0).toNat)
      let chosen := fun (kind : Nat) => ∃ a ∈ algChosen req, a.1 = kind ∧ a.2 ≠ 0
      (¬ (asym.testBit 7 = true ∧ hash.testBit 1 = true) → fails (.negotiateAlgorithms req) 1) ∧
      (asym.testBit 7 = true → hash.testBit 1 = true → ∃ b : Bool, (b = true ↔ chosen 2 ∧ chosen 3) ∧
        gives (.negotiateAlgorithms req) { c with algorithms := true, sessions := b } 0x63 (algBody req))) ∧
    (¬ (c.version = true ∧ c.capabilities = true) → fails (.negotiateAlgorithms req) 4) ∧
    (¬ agreed → fails (.getDigests req) 4 ∧ fails (.getCertificate slot off len) 4 ∧ fails (.challenge slot req) 4 ∧
      fails (.getMeasurements index req) 4 ∧ fails (.keyExchange slot req) 4) ∧
    (agreed →
      gives (.getDigests req) c 0x01 (sha384 Config.certificateChain) ∧
      gives (.getCertificate 0 off len) c 0x02 ((Config.certificateChain.drop off).take len) ∧
      gives (.challenge 0 req) c 0x03 (body 0x83 req all) ∧
      (slot ≠ 0 → fails (.getCertificate slot off len) 1 ∧ fails (.challenge slot req) 1) ∧
      gives (.getMeasurements 0 req) c 0x60 ([4] ++ body 0xE0 req [4]) ∧
      gives (.getMeasurements 255 req) c 0x60 (all ++ body 0xE0 req all) ∧
      (1 ≤ index → index ≤ 4 → gives (.getMeasurements index req) c 0x60 (part index ++ body 0xE0 req (part index))) ∧
      (4 < index → index ≠ 255 → fails (.getMeasurements index req) 1) ∧
      (c.session = none → c.sessions = true → exec (.keyExchange 0 req) s = .next { s with
        spdm := { c with
          session := some false, sent := 0, key := #v[secret 0, secret 1, secret 2, secret 3], iv := #v[secret 4, secret 5]
          sid := (req.getD 2 0).toNat + 256 * (req.getD 3 0).toNat + 65536 * ((secret 6).toNat % 65536) }
        fresh := s.fresh + 7
        hostOut := s.hostOut ++ [.spdm 0x64 (body 0xE4 req [])] }) ∧
      (c.session = none → c.sessions = true → slot ≠ 0 → fails (.keyExchange slot req) 1) ∧
      (c.session ≠ none ∨ c.sessions = false → fails (.keyExchange slot req) 4)) ∧
    (c.session = some false → gives (.finish req) { c with session := some true } 0x65 (body 0xE5 req [])) ∧
    (c.session ≠ some false → fails (.finish req) 4) ∧
    (c.session = some true → gives .heartbeat c 0x68 [] ∧ exec .endSession s = .next { s with
      spdm := { c with sent := c.sent + 1, session := none }, hostOut := s.hostOut ++ [sealed c [0x6C]] }) ∧
    (c.session ≠ some true → fails .heartbeat 4 ∧ fails .endSession 4) ∧
    (code ∈ [0x81, 0x82, 0x83, 0x84, 0xE0, 0xE1, 0xE3, 0xE4, 0xE5, 0xE8, 0xEC] → exec (.spdmUnsupportedRequest code) s = .next s) ∧
    (code ∉ [0x81, 0x82, 0x83, 0x84, 0xE0, 0xE1, 0xE3, 0xE4, 0xE5, 0xE8, 0xEC] →
      gives (.spdmUnsupportedRequest code) c 0x7F [7, BitVec.ofNat 8 code])

/-- The attestation mailbox answers its requests as stated: the claim above. -/
def Obligations.AttestationAnswers : Prop := Claim.Attestation
end

