-- ==== Sys2Proof/Laws/Lane.lean ====
section
/-! SUPPORT. What a lane instruction can do: one lemma for each shared operation of the lane stream (R118-R124). -/

namespace Sys2Proof.Machine

/-- Everything a lane instruction can do: nothing without a clause under way; halt, before its body is reached or as its body says, with no
effect but what halting has, or what noting poisoned registers has; pass over its threads; or complete with what its body gives. -/
theorem lane_cases (op : Nat) (w : LaneFields) (body : State → Word32 → Res) (s : State) :
    (s.cur.clause = none ∧ lane op w body s = .next s) ∨
    (∃ h, lane op w body s = .next (s.laneHalt h)) ∨
    (∃ (act : Word32) (rs : List Nat) (f : FaultInfo), lane op w body s = .next ((rs.foldl (State.noteReg act) s).laneHalt (.fault f))) ∨
    (∃ f, lane op w body s = .next ((s.chargeLane s.cur.place.plane).laneHalt (.fault f))) ∨
    (activeMask s.cur w = 0 ∧ lane op w body s = .next (s.laneDone (if isLongOp op then laneDests op w else []))) ∨
    (∃ t, body s (activeMask s.cur w) = .ok t ∧
      lane op w body s = .next (t.laneDone (if isLongOp op then laneDests op w else []))) := by
  unfold lane
  dsimp only
  split
  · rename_i h
    exact .inl ⟨by simpa using h, rfl⟩
  · split
    · exact .inr (.inl ⟨_, rfl⟩)
    · split
      · exact .inr (.inl ⟨_, rfl⟩)
      · split
        · exact .inr (.inl ⟨_, rfl⟩)
        · split
          · exact .inr (.inr (.inl ⟨0xFFFFFFFF, [predReg w.pg.val + 64], { ‹FaultInfo› with brec := laneRec op w }, rfl⟩))
          · split
            · exact .inr (.inr (.inr (.inr (.inl ⟨‹_›, rfl⟩))))
            · split
              · exact .inr (.inr (.inl ⟨_, _, _, rfl⟩))
              · split
                · exact .inr (.inl ⟨_, rfl⟩)
                · split
                  · exact .inr (.inl ⟨_, rfl⟩)
                  · split
                    · exact .inr (.inr (.inr (.inl ⟨_, rfl⟩)))
                    · exact .inr (.inr (.inr (.inr (.inr ⟨_, ‹_›, rfl⟩))))

/-- A lane instruction that nothing holds up reaches its body, and ends as its body says. -/
theorem lane_good (op : Nat) (w : LaneFields) (body : State → Word32 → Res) (s : State) (h : s.laneGood op w) :
    lane op w body s = match body s (activeMask s.cur w) with
      | .error e => .next (s.laneHalt e)
      | .ok t => .next (t.laneDone (if isLongOp op then laneDests op w else [])) := by
  obtain ⟨hc, hi, hs, hl, hg, ha, hp, hu, hb⟩ := h
  have hn : s.cur.clause.isNone = false := by cases hx : s.cur.clause <;> simp_all
  have hu' : (if w.u || op == 0xA6 then uniformCheck s.cur (laneSources op w) (activeMask s.cur w) else none) = none := by
    split
    · rename_i hw
      exact hu (by simpa using hw)
    · rfl
  have hb' : (if isLongOp op then none else s.badLane w (activeMask s.cur w)) = none := by
    split
    · rfl
    · rename_i hl
      exact hb (by simpa using hl)
  unfold lane
  simp only [hn, hi, hs, hl, hg, ha, hp, hu', hb', Bool.false_eq_true, if_false] <;> rfl

theorem lane_ok (op : Nat) (w : LaneFields) (body : State → Word32 → Res) (s t : State) (h : s.laneGood op w)
    (hb : body s (activeMask s.cur w) = .ok t) :
    lane op w body s = .next (t.laneDone (if isLongOp op then laneDests op w else [])) := by
  rw [lane_good op w body s h, hb]

theorem lane_error (op : Nat) (w : LaneFields) (body : State → Word32 → Res) (s : State) (e : Halt) (h : s.laneGood op w)
    (hb : body s (activeMask s.cur w) = .error e) : lane op w body s = .next (s.laneHalt e) := by
  rw [lane_good op w body s h, hb]

/-- A computing lane instruction of a body that answers completes with it. -/
theorem lane_lanes (op : Nat) (w : LaneFields) (body : State → Word32 → Res) (s t : State) (h : s.laneGood op w) (hn : isLongOp op = false)
    (hb : body s (activeMask s.cur w) = .ok t) : lane op w body s = t.lanes := by
  rw [lane_ok op w body s t h hb, hn]; rfl

/-- Each active thread's result of its own sources goes to its destination, and the conditions of the threads computed to FPSTAT and NFFLAG. -/
theorem lanePer_good (op : Nat) (sgn : Bool) (f : Group → Fin 32 → Word32 → Word32 → Word32 → LaneOut) (w : LaneFields) (s : State)
    (h : s.laneGood op w) (hn : isLongOp op = false) :
    let one := fun t => f s.cur t (s.cur.rv w.a t) (srcB s.cur w t) (s.cur.rv w.c t)
    lanePer op sgn f w s = s.lanesTo w sgn (fun t => (one t).val) ((s.laneThreads w).foldl (fun a t => a ||| (one t).fl) 0)
      ((s.laneThreads w).foldl (fun a t => a ||| (one t).nf) 0) := by
  refine (lane_lanes op w _ s _ h hn rfl).trans ?_
  unfold State.lanesTo State.laneThreads
  cases w.u <;> simp [List.foldl_map]

/-- Each active thread's test of its own sources goes to its bit of pd. -/
theorem laneTest_good (op : Nat) (f : Group → Word32 → Word32 → Bool × Flags5) (w : LaneFields) (s : State) (h : s.laneGood op w)
    (hn : isLongOp op = false) :
    let one := fun t => f s.cur (s.cur.rv w.a t) (srcB s.cur w t)
    laneTest op f w s = s.lanesTest w (fun t => (one t).1) ((s.laneThreads w).foldl (fun a t => a ||| (one t).2) 0) := by
  refine (lane_lanes op w _ s _ h hn rfl).trans ?_
  unfold State.lanesTest State.laneThreads
  cases w.u <;> simp [List.foldl_map]

end Sys2Proof.Machine
end

