-- ==== Sys2Proof/Laws/PerInstr.lean ====
section
/-! SUPPORT. For every instruction: the word it encodes to has 32 or 96 bits and fits them. One lemma for each word format, then
one for each constructor. -/

namespace Sys2Proof.Laws.WordSize

/-- An instruction's word is 32 or 96 bits long and fits its length. -/
def Statement (i : Instr) : Prop := ∀ n w, encode i = some (n, w) → (n = 32 ∨ n = 96) ∧ w < 2 ^ n

/-- A lane word fits 96 bits. -/
theorem encodeLane_lt (op : Nat) (w : LaneFields) (h : op < 256) : encodeLane op w < 2 ^ 96 := by
  have hb : ∀ b : Bool, b2n b ≤ 1 := by decide
  have h1 := hb w.u
  have h2 := hb w.i
  have h3 := hb w.pn
  unfold encodeLane
  omega

theorem of_lane {i : Instr} {op : Nat} {f : LaneFields} (hl : laneOf i = some (op, f)) (h : op < 256) : Statement i := by
  intro n w he
  simp only [encode, hl, Option.some.injEq, Prod.mk.injEq] at he
  obtain ⟨rfl, rfl⟩ := he
  exact ⟨.inr rfl, encodeLane_lt op f h⟩

theorem of_scalar {i : Instr} {k : Nat} (hl : laneOf i = none) (hs : encodeScalar i = some k) (h : k < 2 ^ 32) :
    Statement i := by
  intro n w he
  simp only [encode, hl, hs, Option.map_some, Option.some.injEq, Prod.mk.injEq] at he
  obtain ⟨rfl, rfl⟩ := he
  exact ⟨.inl rfl, h⟩

/-- An event has no word. -/
theorem of_event {i : Instr} (hl : laneOf i = none) (hs : encodeScalar i = none) : Statement i := by
  intro n w he
  simp [encode, hl, hs] at he

theorem encSR_lt (fn : Nat) (d a b : Fin 64) (w : Bool) (h : fn < 512) : encSR fn d a b w < 2 ^ 32 := by
  have : b2n w ≤ 1 := by cases w <;> decide
  unfold encSR
  omega

theorem encSI_lt (sub : Nat) (d a : Fin 64) (imm : Nat) (hs : sub < 8) (h : imm < 2 ^ 13) : encSI sub d a imm < 2 ^ 32 := by
  unfold encSI
  omega

theorem encSC_lt (sub : Nat) (d : Fin 64) (imm : BitVec 20) (hs : sub < 4) : encSC sub d imm < 2 ^ 32 := by
  have := imm.isLt
  unfold encSC
  omega

theorem encSB_lt (cond : Nat) (a b : Fin 64) (off : BitVec 13) (hs : cond < 8) : encSB cond a b off < 2 ^ 32 := by
  have := off.isLt
  unfold encSB
  omega

theorem encSM_lt (sub d n : Nat) (a : Fin 64) (imm : BitVec 9) (hs : sub < 8) (hd : d < 64) (hn : n < 16) :
    encSM sub d n a imm < 2 ^ 32 := by
  have := imm.isLt
  unfold encSM
  omega

theorem encSL_lt (sub rest : Nat) (hs : sub < 16) (h : rest < 2 ^ 24) : encSL sub rest < 2 ^ 32 := by
  unfold encSL
  omega

theorem encSX_lt (major op a b c fl : Nat) (hm : major < 16) (ho : op < 64) (ha : a < 64) (hb : b < 64) (hc : c < 64)
    (hf : fl < 16) : encSX major op a b c fl < 2 ^ 32 := by
  unfold encSX
  omega

theorem encSY_lt (sub rest : Nat) (hs : sub < 16) (h : rest < 2 ^ 24) : encSY sub rest < 2 ^ 32 := by
  unfold encSY
  omega

theorem add (d a b : Fin 64) (w : Bool) : Statement (.add d a b w) := of_scalar rfl rfl (encSR_lt _ _ _ _ _ (by decide))
theorem sub (d a b : Fin 64) (w : Bool) : Statement (.sub d a b w) := of_scalar rfl rfl (encSR_lt _ _ _ _ _ (by decide))
theorem mul (d a b : Fin 64) (w : Bool) : Statement (.mul d a b w) := of_scalar rfl rfl (encSR_lt _ _ _ _ _ (by decide))
theorem mulh (d a b : Fin 64) (w : Bool) : Statement (.mulh d a b w) := of_scalar rfl rfl (encSR_lt _ _ _ _ _ (by decide))
theorem mulhn (d a b : Fin 64) (w : Bool) : Statement (.mulhn d a b w) := of_scalar rfl rfl (encSR_lt _ _ _ _ _ (by decide))
theorem div (d a b : Fin 64) (w : Bool) : Statement (.div d a b w) := of_scalar rfl rfl (encSR_lt _ _ _ _ _ (by decide))
theorem divn (d a b : Fin 64) (w : Bool) : Statement (.divn d a b w) := of_scalar rfl rfl (encSR_lt _ _ _ _ _ (by decide))
theorem rem (d a b : Fin 64) (w : Bool) : Statement (.rem d a b w) := of_scalar rfl rfl (encSR_lt _ _ _ _ _ (by decide))
theorem remn (d a b : Fin 64) (w : Bool) : Statement (.remn d a b w) := of_scalar rfl rfl (encSR_lt _ _ _ _ _ (by decide))
theorem and (d a b : Fin 64) (w : Bool) : Statement (.and d a b w) := of_scalar rfl rfl (encSR_lt _ _ _ _ _ (by decide))
theorem or (d a b : Fin 64) (w : Bool) : Statement (.or d a b w) := of_scalar rfl rfl (encSR_lt _ _ _ _ _ (by decide))
theorem xor (d a b : Fin 64) (w : Bool) : Statement (.xor d a b w) := of_scalar rfl rfl (encSR_lt _ _ _ _ _ (by decide))
theorem andn (d a b : Fin 64) (w : Bool) : Statement (.andn d a b w) := of_scalar rfl rfl (encSR_lt _ _ _ _ _ (by decide))
theorem shl (d a b : Fin 64) (w : Bool) : Statement (.shl d a b w) := of_scalar rfl rfl (encSR_lt _ _ _ _ _ (by decide))
theorem shr (d a b : Fin 64) (w : Bool) : Statement (.shr d a b w) := of_scalar rfl rfl (encSR_lt _ _ _ _ _ (by decide))
theorem sar (d a b : Fin 64) (w : Bool) : Statement (.sar d a b w) := of_scalar rfl rfl (encSR_lt _ _ _ _ _ (by decide))
theorem min (d a b : Fin 64) (w : Bool) : Statement (.min d a b w) := of_scalar rfl rfl (encSR_lt _ _ _ _ _ (by decide))
theorem max (d a b : Fin 64) (w : Bool) : Statement (.max d a b w) := of_scalar rfl rfl (encSR_lt _ _ _ _ _ (by decide))
theorem minn (d a b : Fin 64) (w : Bool) : Statement (.minn d a b w) := of_scalar rfl rfl (encSR_lt _ _ _ _ _ (by decide))
theorem maxn (d a b : Fin 64) (w : Bool) : Statement (.maxn d a b w) := of_scalar rfl rfl (encSR_lt _ _ _ _ _ (by decide))
theorem slt (d a b : Fin 64) (w : Bool) : Statement (.slt d a b w) := of_scalar rfl rfl (encSR_lt _ _ _ _ _ (by decide))
theorem sltn (d a b : Fin 64) (w : Bool) : Statement (.sltn d a b w) := of_scalar rfl rfl (encSR_lt _ _ _ _ _ (by decide))
theorem seq (d a b : Fin 64) (w : Bool) : Statement (.seq d a b w) := of_scalar rfl rfl (encSR_lt _ _ _ _ _ (by decide))
theorem clz (d a : Fin 64) (w : Bool) : Statement (.clz d a w) := of_scalar rfl rfl (encSR_lt _ _ _ _ _ (by decide))
theorem ctz (d a : Fin 64) (w : Bool) : Statement (.ctz d a w) := of_scalar rfl rfl (encSR_lt _ _ _ _ _ (by decide))
theorem popc (d a : Fin 64) (w : Bool) : Statement (.popc d a w) := of_scalar rfl rfl (encSR_lt _ _ _ _ _ (by decide))
theorem addi (d a : Fin 64) (imm : BitVec 13) : Statement (.addi d a imm) :=
  of_scalar rfl rfl (encSI_lt _ _ _ _ (by decide) (by omega))
theorem andi (d a : Fin 64) (imm : BitVec 13) : Statement (.andi d a imm) :=
  of_scalar rfl rfl (encSI_lt _ _ _ _ (by decide) (by omega))
theorem ori (d a : Fin 64) (imm : BitVec 13) : Statement (.ori d a imm) :=
  of_scalar rfl rfl (encSI_lt _ _ _ _ (by decide) (by omega))
theorem xori (d a : Fin 64) (imm : BitVec 13) : Statement (.xori d a imm) :=
  of_scalar rfl rfl (encSI_lt _ _ _ _ (by decide) (by omega))
theorem shli (d a : Fin 64) (cnt : Fin 64) : Statement (.shli d a cnt) :=
  of_scalar rfl rfl (encSI_lt _ _ _ _ (by decide) (by omega))
theorem shri (d a : Fin 64) (cnt : Fin 64) : Statement (.shri d a cnt) :=
  of_scalar rfl rfl (encSI_lt _ _ _ _ (by decide) (by omega))
theorem sari (d a : Fin 64) (cnt : Fin 64) : Statement (.sari d a cnt) :=
  of_scalar rfl rfl (encSI_lt _ _ _ _ (by decide) (by omega))
theorem slti (d a : Fin 64) (imm : BitVec 13) : Statement (.slti d a imm) :=
  of_scalar rfl rfl (encSI_lt _ _ _ _ (by decide) (by omega))
theorem li (d : Fin 64) (imm : BitVec 20) : Statement (.li d imm) := of_scalar rfl rfl (encSC_lt _ _ _ (by decide))
theorem lis (d : Fin 64) (imm : BitVec 20) : Statement (.lis d imm) := of_scalar rfl rfl (encSC_lt _ _ _ (by decide))
theorem lpc (d : Fin 64) (imm : BitVec 20) : Statement (.lpc d imm) := of_scalar rfl rfl (encSC_lt _ _ _ (by decide))
theorem beq (a b : Fin 64) (off : BitVec 13) : Statement (.beq a b off) := of_scalar rfl rfl (encSB_lt _ _ _ _ (by decide))
theorem bne (a b : Fin 64) (off : BitVec 13) : Statement (.bne a b off) := of_scalar rfl rfl (encSB_lt _ _ _ _ (by decide))
theorem blt (a b : Fin 64) (off : BitVec 13) : Statement (.blt a b off) := of_scalar rfl rfl (encSB_lt _ _ _ _ (by decide))
theorem bge (a b : Fin 64) (off : BitVec 13) : Statement (.bge a b off) := of_scalar rfl rfl (encSB_lt _ _ _ _ (by decide))
theorem bltn (a b : Fin 64) (off : BitVec 13) : Statement (.bltn a b off) := of_scalar rfl rfl (encSB_lt _ _ _ _ (by decide))
theorem bgen (a b : Fin 64) (off : BitVec 13) : Statement (.bgen a b off) := of_scalar rfl rfl (encSB_lt _ _ _ _ (by decide))
theorem jmp (off : BitVec 26) : Statement (.jmp off) := of_scalar rfl rfl (by omega)
theorem call (off : BitVec 26) : Statement (.call off) := of_scalar rfl rfl (by omega)
theorem jr (a : Fin 64) : Statement (.jr a) := of_scalar rfl rfl (by omega)
theorem ret : Statement .ret := of_scalar rfl rfl (by omega)
theorem sld (d : Fin 64) (n : Fin 16) (a : Fin 64) (imm : BitVec 9) : Statement (.sld d n a imm) :=
  of_scalar rfl rfl (encSM_lt _ _ _ _ _ (by omega) (by omega) (by omega))
theorem sldw (d : Fin 64) (n : Fin 16) (a : Fin 64) (imm : BitVec 9) : Statement (.sldw d n a imm) :=
  of_scalar rfl rfl (encSM_lt _ _ _ _ _ (by omega) (by omega) (by omega))
theorem sst (d : Fin 64) (n : Fin 16) (a : Fin 64) (imm : BitVec 9) : Statement (.sst d n a imm) :=
  of_scalar rfl rfl (encSM_lt _ _ _ _ _ (by omega) (by omega) (by omega))
theorem sstw (d : Fin 64) (n : Fin 16) (a : Fin 64) (imm : BitVec 9) : Statement (.sstw d n a imm) :=
  of_scalar rfl rfl (encSM_lt _ _ _ _ _ (by omega) (by omega) (by omega))
theorem slds (d : Fin 64) (lvl : Fin 3) (a : Fin 64) (imm : BitVec 9) : Statement (.slds d lvl a imm) :=
  of_scalar rfl rfl (encSM_lt _ _ _ _ _ (by omega) (by omega) (by omega))
theorem ssts (d : Fin 64) (lvl : Fin 3) (a : Fin 64) (imm : BitVec 9) : Statement (.ssts d lvl a imm) :=
  of_scalar rfl rfl (encSM_lt _ _ _ _ _ (by omega) (by omega) (by omega))
theorem bld (n : Fin 16) (a : Fin 64) (imm : BitVec 9) : Statement (.bld n a imm) :=
  of_scalar rfl rfl (encSM_lt _ _ _ _ _ (by omega) (by omega) (by omega))
theorem badj (n : Fin 16) (a : Fin 64) (imm : BitVec 9) : Statement (.badj n a imm) :=
  of_scalar rfl rfl (encSM_lt _ _ _ _ _ (by omega) (by omega) (by omega))
theorem lq (off : BitVec 24) : Statement (.lq off) := of_scalar rfl rfl (encSL_lt _ _ (by omega) (by omega))
theorem lqr (a : Fin 64) : Statement (.lqr a) := of_scalar rfl rfl (encSL_lt _ _ (by omega) (by omega))
theorem lwait : Statement .lwait := of_scalar rfl rfl (encSL_lt _ _ (by omega) (by omega))
theorem bany (p : Fin 8) (off : BitVec 21) : Statement (.bany p off) := of_scalar rfl rfl (encSL_lt _ _ (by omega) (by omega))
theorem ball (p : Fin 8) (off : BitVec 21) : Statement (.ball p off) := of_scalar rfl rfl (encSL_lt _ _ (by omega) (by omega))
theorem bnone (p : Fin 8) (off : BitVec 21) : Statement (.bnone p off) := of_scalar rfl rfl (encSL_lt _ _ (by omega) (by omega))
theorem mvp (d : Fin 64) (p : Fin 8) : Statement (.mvp d p) := of_scalar rfl rfl (encSL_lt _ _ (by omega) (by omega))
theorem mvps (p : Fin 8) (a : Fin 64) : Statement (.mvps p a) := of_scalar rfl rfl (encSL_lt _ _ (by omega) (by omega))
theorem fwait (mask : BitVec 12) : Statement (.fwait mask) := of_scalar rfl rfl (encSL_lt _ _ (by omega) (by omega))
theorem mxshape (a b c : Fin 64) : Statement (.mxshape a b c) :=
  of_scalar rfl rfl (encSX_lt _ _ _ _ _ _ (by omega) (by omega) (by omega) (by omega) (by omega) (by omega))
theorem mxldw (a b c : Fin 64) (fl : Fin 13) : Statement (.mxldw a b c fl) :=
  of_scalar rfl rfl (encSX_lt _ _ _ _ _ _ (by omega) (by omega) (by omega) (by omega) (by omega) (by omega))
theorem mxswap (fl : Fin 13) : Statement (.mxswap fl) :=
  of_scalar rfl rfl (encSX_lt _ _ _ _ _ _ (by omega) (by omega) (by omega) (by omega) (by omega) (by omega))
theorem mxzero (c : Fin 64) : Statement (.mxzero c) :=
  of_scalar rfl rfl (encSX_lt _ _ _ _ _ _ (by omega) (by omega) (by omega) (by omega) (by omega) (by omega))
theorem mxmul (a b c : Fin 64) (fl : Fin 13) : Statement (.mxmul a b c fl) :=
  of_scalar rfl rfl (encSX_lt _ _ _ _ _ _ (by omega) (by omega) (by omega) (by omega) (by omega) (by omega))
theorem mxdrain (a b c : Fin 64) (fl : Fin 13) : Statement (.mxdrain a b c fl) :=
  of_scalar rfl rfl (encSX_lt _ _ _ _ _ _ (by omega) (by omega) (by omega) (by omega) (by omega) (by omega))
theorem mxstat (a : Fin 64) : Statement (.mxstat a) :=
  of_scalar rfl rfl (encSX_lt _ _ _ _ _ _ (by omega) (by omega) (by omega) (by omega) (by omega) (by omega))
theorem tmov (a b c : Fin 64) (fl : Fin 13) : Statement (.tmov a b c fl) :=
  of_scalar rfl rfl (encSX_lt _ _ _ _ _ _ (by omega) (by omega) (by omega) (by omega) (by omega) (by omega))
theorem tmova (a b : Fin 64) (c : Fin 32) (fl : Fin 13) : Statement (.tmova a b c fl) :=
  of_scalar rfl rfl (encSX_lt _ _ _ _ _ _ (by omega) (by omega) (by omega) (by omega) (by omega) (by omega))
theorem bseal (a : Fin 64) : Statement (.bseal a) :=
  of_scalar rfl rfl (encSX_lt _ _ _ _ _ _ (by omega) (by omega) (by omega) (by omega) (by omega) (by omega))
theorem bwait (b : Fin 64) : Statement (.bwait b) :=
  of_scalar rfl rfl (encSX_lt _ _ _ _ _ _ (by omega) (by omega) (by omega) (by omega) (by omega) (by omega))
theorem home (a b c : Fin 64) (fl : Fin 13) : Statement (.home a b c fl) :=
  of_scalar rfl rfl (encSX_lt _ _ _ _ _ _ (by omega) (by omega) (by omega) (by omega) (by omega) (by omega))
theorem nmrun (a b c : Fin 64) (fl : Fin 13) : Statement (.nmrun a b c fl) :=
  of_scalar rfl rfl (encSX_lt _ _ _ _ _ _ (by omega) (by omega) (by omega) (by omega) (by omega) (by omega))
theorem rbulk (a b : Fin 64) (c : Fin 32) (fl : Fin 13) : Statement (.rbulk a b c fl) :=
  of_scalar rfl rfl (encSX_lt _ _ _ _ _ _ (by omega) (by omega) (by omega) (by omega) (by omega) (by omega))
theorem rquiet : Statement .rquiet :=
  of_scalar rfl rfl (encSX_lt _ _ _ _ _ _ (by omega) (by omega) (by omega) (by omega) (by omega) (by omega))
theorem bar (c : Fin 64) : Statement (.bar c) :=
  of_scalar rfl rfl (encSX_lt _ _ _ _ _ _ (by omega) (by omega) (by omega) (by omega) (by omega) (by omega))
theorem arrset (a b : Fin 64) (fl : Fin 13) : Statement (.arrset a b fl) :=
  of_scalar rfl rfl (encSX_lt _ _ _ _ _ _ (by omega) (by omega) (by omega) (by omega) (by omega) (by omega))
theorem arrwait (a b c : Fin 64) : Statement (.arrwait a b c) :=
  of_scalar rfl rfl (encSX_lt _ _ _ _ _ _ (by omega) (by omega) (by omega) (by omega) (by omega) (by omega))
theorem fence (c : Fin 64) : Statement (.fence c) :=
  of_scalar rfl rfl (encSX_lt _ _ _ _ _ _ (by omega) (by omega) (by omega) (by omega) (by omega) (by omega))
theorem waita (a b : Fin 64) (c : Fin 32) : Statement (.waita a b c) :=
  of_scalar rfl rfl (encSX_lt _ _ _ _ _ _ (by omega) (by omega) (by omega) (by omega) (by omega) (by omega))
theorem qtile (a b : Fin 64) (c : Fin 32) (fl : Fin 13) : Statement (.qtile a b c fl) :=
  of_scalar rfl rfl (encSX_lt _ _ _ _ _ _ (by omega) (by omega) (by omega) (by omega) (by omega) (by omega))
theorem wmbind (b c : Fin 64) : Statement (.wmbind b c) :=
  of_scalar rfl rfl (encSX_lt _ _ _ _ _ _ (by omega) (by omega) (by omega) (by omega) (by omega) (by omega))
theorem wmflush (b : Fin 64) (fl : Fin 13) : Statement (.wmflush b fl) :=
  of_scalar rfl rfl (encSX_lt _ _ _ _ _ _ (by omega) (by omega) (by omega) (by omega) (by omega) (by omega))
theorem wmrd (a b c : Fin 64) : Statement (.wmrd a b c) :=
  of_scalar rfl rfl (encSX_lt _ _ _ _ _ _ (by omega) (by omega) (by omega) (by omega) (by omega) (by omega))
theorem wmscale (a b c : Fin 64) : Statement (.wmscale a b c) :=
  of_scalar rfl rfl (encSX_lt _ _ _ _ _ _ (by omega) (by omega) (by omega) (by omega) (by omega) (by omega))
theorem wmclose (b : Fin 64) (fl : Fin 13) : Statement (.wmclose b fl) :=
  of_scalar rfl rfl (encSX_lt _ _ _ _ _ _ (by omega) (by omega) (by omega) (by omega) (by omega) (by omega))
theorem wmreset (b : Fin 64) (fl : Fin 13) : Statement (.wmreset b fl) :=
  of_scalar rfl rfl (encSX_lt _ _ _ _ _ _ (by omega) (by omega) (by omega) (by omega) (by omega) (by omega))
theorem qtake (a b : Fin 64) : Statement (.qtake a b) :=
  of_scalar rfl rfl (encSX_lt _ _ _ _ _ _ (by omega) (by omega) (by omega) (by omega) (by omega) (by omega))
theorem qemit (b c : Fin 64) : Statement (.qemit b c) :=
  of_scalar rfl rfl (encSX_lt _ _ _ _ _ _ (by omega) (by omega) (by omega) (by omega) (by omega) (by omega))
theorem qdone (b : Fin 64) : Statement (.qdone b) :=
  of_scalar rfl rfl (encSX_lt _ _ _ _ _ _ (by omega) (by omega) (by omega) (by omega) (by omega) (by omega))
theorem crd (d : Fin 64) (cr : BitVec 12) : Statement (.crd d cr) := of_scalar rfl rfl (encSY_lt _ _ (by omega) (by omega))
theorem cwr (a : Fin 64) (cr : BitVec 12) : Statement (.cwr a cr) := of_scalar rfl rfl (encSY_lt _ _ (by omega) (by omega))
theorem trap (imm : BitVec 16) : Statement (.trap imm) := of_scalar rfl rfl (encSY_lt _ _ (by omega) (by omega))
theorem eret : Statement .eret := of_scalar rfl rfl (encSY_lt _ _ (by omega) (by omega))
theorem yield : Statement .yield := of_scalar rfl rfl (encSY_lt _ _ (by omega) (by omega))
theorem sleep (a : Fin 64) : Statement (.sleep a) := of_scalar rfl rfl (encSY_lt _ _ (by omega) (by omega))
theorem exit : Statement .exit := of_scalar rfl rfl (encSY_lt _ _ (by omega) (by omega))
theorem nop : Statement .nop := of_scalar rfl rfl (encSY_lt _ _ (by omega) (by omega))
theorem brk (imm : BitVec 16) : Statement (.brk imm) := of_scalar rfl rfl (encSY_lt _ _ (by omega) (by omega))
theorem iadd (f : LaneFields) : Statement (.iadd f) := of_lane rfl (by decide)
theorem isub (f : LaneFields) : Statement (.isub f) := of_lane rfl (by decide)
theorem imul (f : LaneFields) : Statement (.imul f) := of_lane rfl (by decide)
theorem imulh (f : LaneFields) : Statement (.imulh f) := of_lane rfl (by decide)
theorem imad (f : LaneFields) : Statement (.imad f) := of_lane rfl (by decide)
theorem imin (f : LaneFields) : Statement (.imin f) := of_lane rfl (by decide)
theorem imax (f : LaneFields) : Statement (.imax f) := of_lane rfl (by decide)
theorem iabs (f : LaneFields) : Statement (.iabs f) := of_lane rfl (by decide)
theorem ineg (f : LaneFields) : Statement (.ineg f) := of_lane rfl (by decide)
theorem idot4 (f : LaneFields) : Statement (.idot4 f) := of_lane rfl (by decide)
theorem idiv (f : LaneFields) : Statement (.idiv f) := of_lane rfl (by decide)
theorem irem (f : LaneFields) : Statement (.irem f) := of_lane rfl (by decide)
theorem laneAnd (f : LaneFields) : Statement (.laneAnd f) := of_lane rfl (by decide)
theorem laneOr (f : LaneFields) : Statement (.laneOr f) := of_lane rfl (by decide)
theorem laneXor (f : LaneFields) : Statement (.laneXor f) := of_lane rfl (by decide)
theorem not (f : LaneFields) : Statement (.not f) := of_lane rfl (by decide)
theorem laneAndn (f : LaneFields) : Statement (.laneAndn f) := of_lane rfl (by decide)
theorem bmux3 (f : LaneFields) : Statement (.bmux3 f) := of_lane rfl (by decide)
theorem laneShl (f : LaneFields) : Statement (.laneShl f) := of_lane rfl (by decide)
theorem laneShr (f : LaneFields) : Statement (.laneShr f) := of_lane rfl (by decide)
theorem laneSar (f : LaneFields) : Statement (.laneSar f) := of_lane rfl (by decide)
theorem bfe (f : LaneFields) : Statement (.bfe f) := of_lane rfl (by decide)
theorem bfi (f : LaneFields) : Statement (.bfi f) := of_lane rfl (by decide)
theorem lanePopc (f : LaneFields) : Statement (.lanePopc f) := of_lane rfl (by decide)
theorem laneClz (f : LaneFields) : Statement (.laneClz f) := of_lane rfl (by decide)
theorem brev (f : LaneFields) : Statement (.brev f) := of_lane rfl (by decide)
theorem icmp (f : LaneFields) : Statement (.icmp f) := of_lane rfl (by decide)
theorem sel (f : LaneFields) : Statement (.sel f) := of_lane rfl (by decide)
theorem mov (f : LaneFields) : Statement (.mov f) := of_lane rfl (by decide)
theorem movid (f : LaneFields) : Statement (.movid f) := of_lane rfl (by decide)
theorem fadd (f : LaneFields) : Statement (.fadd f) := of_lane rfl (by decide)
theorem fsub (f : LaneFields) : Statement (.fsub f) := of_lane rfl (by decide)
theorem fmul (f : LaneFields) : Statement (.fmul f) := of_lane rfl (by decide)
theorem ffma (f : LaneFields) : Statement (.ffma f) := of_lane rfl (by decide)
theorem fmin (f : LaneFields) : Statement (.fmin f) := of_lane rfl (by decide)
theorem fmax (f : LaneFields) : Statement (.fmax f) := of_lane rfl (by decide)
theorem fabs (f : LaneFields) : Statement (.fabs f) := of_lane rfl (by decide)
theorem fneg (f : LaneFields) : Statement (.fneg f) := of_lane rfl (by decide)
theorem fcmp (f : LaneFields) : Statement (.fcmp f) := of_lane rfl (by decide)
theorem frcp (f : LaneFields) : Statement (.frcp f) := of_lane rfl (by decide)
theorem frsq (f : LaneFields) : Statement (.frsq f) := of_lane rfl (by decide)
theorem fsqrt (f : LaneFields) : Statement (.fsqrt f) := of_lane rfl (by decide)
theorem fdiv (f : LaneFields) : Statement (.fdiv f) := of_lane rfl (by decide)
theorem fexp2 (f : LaneFields) : Statement (.fexp2 f) := of_lane rfl (by decide)
theorem flog2 (f : LaneFields) : Statement (.flog2 f) := of_lane rfl (by decide)
theorem fsin (f : LaneFields) : Statement (.fsin f) := of_lane rfl (by decide)
theorem fcos (f : LaneFields) : Statement (.fcos f) := of_lane rfl (by decide)
theorem ftanh (f : LaneFields) : Statement (.ftanh f) := of_lane rfl (by decide)
theorem ffrc (f : LaneFields) : Statement (.ffrc f) := of_lane rfl (by decide)
theorem frnd (f : LaneFields) : Statement (.frnd f) := of_lane rfl (by decide)
theorem fclass (f : LaneFields) : Statement (.fclass f) := of_lane rfl (by decide)
theorem fscl (f : LaneFields) : Statement (.fscl f) := of_lane rfl (by decide)
theorem fexpo (f : LaneFields) : Statement (.fexpo f) := of_lane rfl (by decide)
theorem cvt (f : LaneFields) : Statement (.cvt f) := of_lane rfl (by decide)
theorem qcvt (f : LaneFields) : Statement (.qcvt f) := of_lane rfl (by decide)
theorem dqcvt (f : LaneFields) : Statement (.dqcvt f) := of_lane rfl (by decide)
theorem pack (f : LaneFields) : Statement (.pack f) := of_lane rfl (by decide)
theorem unpack (f : LaneFields) : Statement (.unpack f) := of_lane rfl (by decide)
theorem xperm (f : LaneFields) : Statement (.xperm f) := of_lane rfl (by decide)
theorem gmask (f : LaneFields) : Statement (.gmask f) := of_lane rfl (by decide)
theorem gtest (f : LaneFields) : Statement (.gtest f) := of_lane rfl (by decide)
theorem fold (f : LaneFields) : Statement (.fold f) := of_lane rfl (by decide)
theorem scan (f : LaneFields) : Statement (.scan f) := of_lane rfl (by decide)
theorem pset (f : LaneFields) : Statement (.pset f) := of_lane rfl (by decide)
theorem pmov (f : LaneFields) : Statement (.pmov f) := of_lane rfl (by decide)
theorem gpeer (f : LaneFields) : Statement (.gpeer f) := of_lane rfl (by decide)
theorem ld (f : LaneFields) : Statement (.ld f) := of_lane rfl (by decide)
theorem st (f : LaneFields) : Statement (.st f) := of_lane rfl (by decide)
theorem lds (f : LaneFields) : Statement (.lds f) := of_lane rfl (by decide)
theorem sts (f : LaneFields) : Statement (.sts f) := of_lane rfl (by decide)
theorem atom (f : LaneFields) : Statement (.atom f) := of_lane rfl (by decide)
theorem atoms (f : LaneFields) : Statement (.atoms f) := of_lane rfl (by decide)
theorem bkcmd (f : LaneFields) : Statement (.bkcmd f) := of_lane rfl (by decide)
theorem accrd (f : LaneFields) : Statement (.accrd f) := of_lane rfl (by decide)
theorem radd (f : LaneFields) : Statement (.radd f) := of_lane rfl (by decide)
theorem rmin (f : LaneFields) : Statement (.rmin f) := of_lane rfl (by decide)
theorem rmax (f : LaneFields) : Statement (.rmax f) := of_lane rfl (by decide)
theorem ror (f : LaneFields) : Statement (.ror f) := of_lane rfl (by decide)
theorem ronce (f : LaneFields) : Statement (.ronce f) := of_lane rfl (by decide)
theorem rarrive (f : LaneFields) : Statement (.rarrive f) := of_lane rfl (by decide)
theorem rread (f : LaneFields) : Statement (.rread f) := of_lane rfl (by decide)
theorem raddf (f : LaneFields) : Statement (.raddf f) := of_lane rfl (by decide)
theorem clauseStart (g : Nat) : Statement (.clauseStart g) := of_event rfl rfl
theorem laneMemoryComplete (id : Nat) : Statement (.laneMemoryComplete id) := of_event rfl rfl
theorem copyLanded (id : Nat) : Statement (.copyLanded id) := of_event rfl rfl
theorem weightLoadComplete (id : Nat) : Statement (.weightLoadComplete id) := of_event rfl rfl
theorem mxmulComplete (id : Nat) : Statement (.mxmulComplete id) := of_event rfl rfl
theorem drainComplete (id : Nat) : Statement (.drainComplete id) := of_event rfl rfl
theorem qtileComplete (id : Nat) : Statement (.qtileComplete id) := of_event rfl rfl
theorem sealComplete (id : Nat) : Statement (.sealComplete id) := of_event rfl rfl
theorem homeComplete (id : Nat) : Statement (.homeComplete id) := of_event rfl rfl
theorem nmrunGroupStart (id : Nat) : Statement (.nmrunGroupStart id) := of_event rfl rfl
theorem returnTrapMigrate (g : Nat) : Statement (.returnTrapMigrate g) := of_event rfl rfl
theorem groupEnd (g : Nat) : Statement (.groupEnd g) := of_event rfl rfl
theorem barrierRelease (g : Nat) : Statement (.barrierRelease g) := of_event rfl rfl
theorem waitaWake (g : Nat) : Statement (.waitaWake g) := of_event rfl rfl
theorem waitaPoll (g : Nat) : Statement (.waitaPoll g) := of_event rfl rfl
theorem sleepEnd (g : Nat) : Statement (.sleepEnd g) := of_event rfl rfl
theorem timer (g : Nat) : Statement (.timer g) := of_event rfl rfl
theorem userTrapEntry (g : Nat) : Statement (.userTrapEntry g) := of_event rfl rfl
theorem faultRecordWrite (g : Nat) : Statement (.faultRecordWrite g) := of_event rfl rfl
theorem faultQueueRetry (ctx : Nat) : Statement (.faultQueueRetry ctx) := of_event rfl rfl
theorem watchdog (team : Nat) : Statement (.watchdog team) := of_event rfl rfl
theorem pageRequestSend (die : Nat) : Statement (.pageRequestSend die) := of_event rfl rfl
theorem pageRequestResponse (pasid idx : Nat) (ok : Bool) : Statement (.pageRequestResponse pasid idx ok) := of_event rfl rfl
theorem zeroOnAllocate (ctx entry : Nat) : Statement (.zeroOnAllocate ctx entry) := of_event rfl rfl
theorem replicaFill (die ctx granule : Nat) : Statement (.replicaFill die ctx granule) := of_event rfl rfl
theorem atsInvalidate (pasid addr len : Nat) : Statement (.atsInvalidate pasid addr len) := of_event rfl rfl
theorem hostAtomicCompletion (id : Nat) (ok : Bool) : Statement (.hostAtomicCompletion id ok) := of_event rfl rfl
theorem bar2Read (off len : Nat) : Statement (.bar2Read off len) := of_event rfl rfl
theorem bar2Write (off : Nat) (data : List Byte) : Statement (.bar2Write off data) := of_event rfl rfl
theorem barAtomicOp (bar off : Nat) : Statement (.barAtomicOp bar off) := of_event rfl rfl
theorem queueEnable (q : Nat) (prio : Nat) : Statement (.queueEnable q prio) := of_event rfl rfl
theorem queueDisable (q : Nat) (prio : Nat) : Statement (.queueDisable q prio) := of_event rfl rfl
theorem qtailWrite (q : Nat) (tail : BitVec 32) : Statement (.qtailWrite q tail) := of_event rfl rfl
theorem parameterBlockLoad : Statement .parameterBlockLoad := of_event rfl rfl
theorem evtailWrite (tail : BitVec 32) : Statement (.evtailWrite tail) := of_event rfl rfl
theorem registerWrite (off : Nat) (val : Word) : Statement (.registerWrite off val) := of_event rfl rfl
theorem launch (e : EntryRef) (p : LaunchPayload) : Statement (.launch e p) := of_event rfl rfl
theorem copy (e : EntryRef) (src dst bytes ctx : Nat) : Statement (.copy e src dst bytes ctx) := of_event rfl rfl
theorem signal (e : EntryRef) (va : Nat) (val : Word) (add : Bool) : Statement (.signal e va val add) := of_event rfl rfl
theorem wait (e : EntryRef) (va : Nat) (val : Word) : Statement (.wait e va val) := of_event rfl rfl
theorem queueWaitSatisfied (q : Nat) : Statement (.queueWaitSatisfied q) := of_event rfl rfl
theorem ctxcreate (e : EntryRef) (p : CtxPayload) : Statement (.ctxcreate e p) := of_event rfl rfl
theorem ctxdestroy (e : EntryRef) (ctx : Nat) : Statement (.ctxdestroy e ctx) := of_event rfl rfl
theorem wmalloc (e : EntryRef) (ctx count : Nat) (basexp : BitVec 8) : Statement (.wmalloc e ctx count basexp) :=
  of_event rfl rfl
theorem wmfree (e : EntryRef) (ctx first count : Nat) : Statement (.wmfree e ctx first count) := of_event rfl rfl
theorem tlbinv (e : EntryRef) (ctx va len : Nat) : Statement (.tlbinv e ctx va len) := of_event rfl rfl
theorem calload (e : EntryRef) (va : Nat) : Statement (.calload e va) := of_event rfl rfl
theorem health (e : EntryRef) (va : Nat) : Statement (.health e va) := of_event rfl rfl
theorem retry (e : EntryRef) (ctx seq : Nat) : Statement (.retry e ctx seq) := of_event rfl rfl
theorem terminate (e : EntryRef) (ctx seq : Nat) : Statement (.terminate e ctx seq) := of_event rfl rfl
theorem release (e : EntryRef) (ctx : Nat) (unit : BitVec 32) : Statement (.release e ctx unit) := of_event rfl rfl
theorem launchEnd (l : Nat) : Statement (.launchEnd l) := of_event rfl rfl
theorem teamPlace (die : Nat) : Statement (.teamPlace die) := of_event rfl rfl
theorem placementWaitExpiry (team : Nat) : Statement (.placementWaitExpiry team) := of_event rfl rfl
theorem stageArbiter (die : Nat) : Statement (.stageArbiter die) := of_event rfl rfl
theorem teamPark (team : Nat) : Statement (.teamPark team) := of_event rfl rfl
theorem teamSave (team : Nat) : Statement (.teamSave team) := of_event rfl rfl
theorem savePointTimeout (team : Nat) : Statement (.savePointTimeout team) := of_event rfl rfl
theorem drainBudgetExpiry (team : Nat) : Statement (.drainBudgetExpiry team) := of_event rfl rfl
theorem teamRestore (team : Nat) : Statement (.teamRestore team) := of_event rfl rfl
theorem operationPacket (p : Packet) : Statement (.operationPacket p) := of_event rfl rfl
theorem rbulkLine (p : Packet) : Statement (.rbulkLine p) := of_event rfl rfl
theorem rreadReply (p : Packet) : Statement (.rreadReply p) := of_event rfl rfl
theorem acknowledgement (p : Packet) : Statement (.acknowledgement p) := of_event rfl rfl
theorem denial (p : Packet) : Statement (.denial p) := of_event rfl rfl
theorem ackSend (die : Nat) : Statement (.ackSend die) := of_event rfl rfl
theorem watermarkFlush (p : Packet) : Statement (.watermarkFlush p) := of_event rfl rfl
theorem beacon (p : Packet) : Statement (.beacon p) := of_event rfl rfl
theorem drainMarker (fibre : Nat) (p : Packet) : Statement (.drainMarker fibre p) := of_event rfl rfl
theorem fabricPacketDiscard (fibre : Nat) : Statement (.fabricPacketDiscard fibre) := of_event rfl rfl
theorem relayHold (engine : Nat) (p : Packet) : Statement (.relayHold engine p) := of_event rfl rfl
theorem relayForward (id fibre : Nat) : Statement (.relayForward id fibre) := of_event rfl rfl
theorem relayTimeout (id : Nat) : Statement (.relayTimeout id) := of_event rfl rfl
theorem deferredApply (stack bank : Nat) : Statement (.deferredApply stack bank) := of_event rfl rfl
theorem retransmit (id : Nat) : Statement (.retransmit id) := of_event rfl rfl
theorem slotStart : Statement .slotStart := of_event rfl rfl
theorem peerUnreachable (pkg : Nat) : Statement (.peerUnreachable pkg) := of_event rfl rfl
theorem calenderDrain : Statement .calenderDrain := of_event rfl rfl
theorem calenderDark : Statement .calenderDark := of_event rfl rfl
theorem calenderRelock : Statement .calenderRelock := of_event rfl rfl
theorem calenderResume : Statement .calenderResume := of_event rfl rfl
theorem lossOfLight (fibre : Nat) (module : DarkModule) : Statement (.lossOfLight fibre module) := of_event rfl rfl
theorem lightReturn (fibre module : Nat) : Statement (.lightReturn fibre module) := of_event rfl rfl
theorem restripe (fibre : Nat) : Statement (.restripe fibre) := of_event rfl rfl
theorem flitReplay (die : Nat) (link : LinkReplay) : Statement (.flitReplay die link) := of_event rfl rfl
theorem linkRetrainEnd (die link : Nat) (ok : Bool) : Statement (.linkRetrainEnd die link ok) := of_event rfl rfl
theorem accumulatorCheck (core bank : Nat) : Statement (.accumulatorCheck core bank) := of_event rfl rfl
theorem unitFence (u : UnitRef) (trigger : Nat) : Statement (.unitFence u trigger) := of_event rfl rfl
theorem heartbeatLoss (u : UnitRef) (kind : Nat) : Statement (.heartbeatLoss u kind) := of_event rfl rfl
theorem patrolScrub (unit : Nat) : Statement (.patrolScrub unit) := of_event rfl rfl
theorem correctedSummary (die : Nat) : Statement (.correctedSummary die) := of_event rfl rfl
theorem discardSummary : Statement .discardSummary := of_event rfl rfl
theorem canaryRead (die : Nat) (canaries : List Canary) : Statement (.canaryRead die canaries) := of_event rfl rfl
theorem replan (die : Nat) (canaries : List Canary) : Statement (.replan die canaries) := of_event rfl rfl
theorem powerCapStep (down : Bool) : Statement (.powerCapStep down) := of_event rfl rfl
theorem perBankRefresh (stack channel bank : Nat) : Statement (.perBankRefresh stack channel bank) := of_event rfl rfl
theorem burstRollback (stack channel : Nat) : Statement (.burstRollback stack channel) := of_event rfl rfl
theorem rowHoldTimeout (stack row : Nat) : Statement (.rowHoldTimeout stack row) := of_event rfl rfl
theorem coldReset (failed : List UnitRef) : Statement (.coldReset failed) := of_event rfl rfl
theorem getVersion : Statement .getVersion := of_event rfl rfl
theorem getCapabilities (req : List Byte) : Statement (.getCapabilities req) := of_event rfl rfl
theorem negotiateAlgorithms (req : List Byte) : Statement (.negotiateAlgorithms req) := of_event rfl rfl
theorem getDigests (req : List Byte) : Statement (.getDigests req) := of_event rfl rfl
theorem getCertificate (slot off len : Nat) : Statement (.getCertificate slot off len) := of_event rfl rfl
theorem challenge (slot : Nat) (req : List Byte) : Statement (.challenge slot req) := of_event rfl rfl
theorem getMeasurements (index : Nat) (req : List Byte) : Statement (.getMeasurements index req) := of_event rfl rfl
theorem keyExchange (slot : Nat) (req : List Byte) : Statement (.keyExchange slot req) := of_event rfl rfl
theorem finish (req : List Byte) : Statement (.finish req) := of_event rfl rfl
theorem heartbeat : Statement .heartbeat := of_event rfl rfl
theorem endSession : Statement .endSession := of_event rfl rfl
theorem spdmUnsupportedRequest (code : Nat) : Statement (.spdmUnsupportedRequest code) := of_event rfl rfl
theorem fibreLock (fibre : FibreEnd) : Statement (.fibreLock fibre) := of_event rfl rfl
theorem refreshEnd (stack channel bank : Nat) : Statement (.refreshEnd stack channel bank) := of_event rfl rfl
theorem windowClaim (team : Nat) : Statement (.windowClaim team) := of_event rfl rfl
theorem translationCompletion (pasid addr : Nat) (result : Option Translated) : Statement (.translationCompletion pasid addr result) :=
  of_event rfl rfl
theorem doeDiscovery (index : Nat) : Statement (.doeDiscovery index) := of_event rfl rfl
theorem outstandingPageRequestAllocation (n : Nat) : Statement (.outstandingPageRequestAllocation n) := of_event rfl rfl

end Sys2Proof.Laws.WordSize

open Sys2Proof Sys2Proof.Laws.WordSize

theorem Sys2Proof.Laws.WordSize.seal (a b : Fin 64) (fl : Fin 13) : Statement (.seal a b fl) :=
  of_scalar rfl rfl (encSX_lt _ _ _ _ _ _ (by omega) (by omega) (by omega) (by omega) (by omega) (by omega))
theorem Sys2Proof.Laws.WordSize.unseal (a b : Fin 64) (fl : Fin 13) : Statement (.unseal a b fl) :=
  of_scalar rfl rfl (encSX_lt _ _ _ _ _ _ (by omega) (by omega) (by omega) (by omega) (by omega) (by omega))
end

