-- ==== Sys2Proof/Tests/Slice0.lean ====
section
/-! SUPPORT. Tests of the model, each one step or one word on a small state: the checks of WellFormed, words written out from the encoding
tables, R-numbered examples of the manual, and for every statement with hypotheses a state and operands that meet them. -/

namespace Sys2Proof.Machine.Tests

set_option Elab.async false

/-! ## Ill-formed terms (R82): one for each check -/

theorem test_illformed_zero_word : (Instr.add 0 0 0 false).illegalSlot = some 0 := by decide
theorem test_illformed_imm : (Instr.iadd { ty := 1, imm := 5 }).illegalSlot = some 1 := by decide
theorem test_illformed_type : (Instr.iadd { ty := 0x10 }).illegalSlot = some 2 := by decide
theorem test_illformed_beater_type : (Instr.bkcmd { ty := 0x10, x := 1 }).illegalSlot = some 2 := by decide
theorem test_illformed_rounding : (Instr.imulh { ty := 1, rm := 1 }).illegalSlot = some 3 := by decide
theorem test_illformed_scope : (Instr.ld { ty := 0, rm := 6 }).illegalSlot = some 3 := by decide
theorem test_illformed_uniform : (Instr.movid { ty := 2, u := true }).illegalSlot = some 6 := by decide
theorem test_illformed_immediate : (Instr.not { i := true }).illegalSlot = some 6 := by decide
theorem test_illformed_sub_code : (Instr.icmp { ty := 1, x := 6 }).illegalSlot = some 7 := by decide
theorem test_illformed_order : (Instr.ld { ty := 0, x := 0x30 }).illegalSlot = some 7 := by decide
theorem test_illformed_flag_field : (Instr.ld { ty := 0, pd := 2 }).illegalSlot = some 8 := by decide
theorem test_illformed_destination : (Instr.iadd { ty := 1, d := 64 }).illegalSlot = some 9 := by decide
theorem test_illformed_group : (Instr.ld { ty := 0x33, d := 2 }).illegalSlot = some 9 := by decide
theorem test_illformed_unused_a : (Instr.mov { a := 1 }).illegalSlot = some 10 := by decide
theorem test_illformed_predicate_code : (Instr.pset { a := 8 }).illegalSlot = some 10 := by decide
theorem test_illformed_b_with_immediate : (Instr.iadd { ty := 1, i := true, b := 1 }).illegalSlot = some 11 := by decide
theorem test_illformed_unused_c : (Instr.iadd { ty := 1, c := 1 }).illegalSlot = some 12 := by decide
theorem test_wellformed_iadd : (Instr.iadd { ty := 1, a := 1, b := 2, d := 3 }).wf = true := by decide

/-! ## Words (R59-R81) -/

/-- R60, R61: `ADD.W s7, s8, s9`: 0000 000111 001000 001001 1 000000000. -/
theorem test_word_add : decodeTableWord 32 0b00000001110010000010011000000000 = some (.add 7 8 9 true) := rfl
/-- R62: `ADDI s4, s0, #-1`: 0001 000 000100 000000 1111111111111. -/
theorem test_word_addi : decodeTableWord 32 0b00010000001000000001111111111111 = some (.addi 4 0 (-1)) := rfl
/-- R63: `LIS s3, #1`: 0010 01 000011 and 20 bits. -/
theorem test_word_lis : decodeTableWord 32 0b00100100001100000000000000000001 = some (.lis 3 1) := rfl
/-- R64: `BNE s1, s2, #-2`: 0011 001 000001 000010 1111111111110. -/
theorem test_word_bne : decodeTableWord 32 0b00110010000010000101111111111110 = some (.bne 1 2 (-2)) := rfl
/-- R65: `JR s5`: 0100 10 000101 and zeros. -/
theorem test_word_jr : decodeTableWord 32 0b01001000010100000000000000000000 = some (.jr 5) := rfl
/-- R66: `SST s2, b3[s4 + 8]`: 0101 010 000010 0011 000100 000000001. -/
theorem test_word_sst : decodeTableWord 32 0b01010100000100011000100000000001 = some (.sst 2 3 4 1) := rfl
/-- R67: `MVP s6, p5`: 0110 0110 000110 101 and zeros. -/
theorem test_word_mvp : decodeTableWord 32 0b01100110000110101000000000000000 = some (.mvp 6 5) := rfl
/-- R69: `MXMUL s1, s2, s3, f1`: 0111 000100 000001 000010 000011 0010. -/
theorem test_word_mxmul : decodeTableWord 32 0b01110001000000010000100000110010 = some (.mxmul 1 2 3 2) := rfl
/-- R69: `TMOVA s1, s2, s4` (pair 4, 5): 1000 000001 000001 000010 000100 0000. -/
theorem test_word_tmova : decodeTableWord 32 0b10000000010000010000100001000000 = some (.tmova 1 2 2 0) := rfl
/-- R69: `RQUIET`: 1001 000001 and zeros. -/
theorem test_word_rquiet : decodeTableWord 32 0b10010000010000000000000000000000 = some .rquiet := rfl
/-- R69: `FENCE s7`: 1010 000011 000000 000000 000111 0000. -/
theorem test_word_fence : decodeTableWord 32 0b10100000110000000000000001110000 = some (.fence 7) := rfl
/-- R69: `WMRD s1, s2, s3`: 1011 000011 000001 000010 000011 0000. -/
theorem test_word_wmrd : decodeTableWord 32 0b10110000110000010000100000110000 = some (.wmrd 1 2 3) := rfl
/-- R69: `QTAKE s1, s2`: 1100 000000 000001 000010 000000 0000. -/
theorem test_word_qtake : decodeTableWord 32 0b11000000000000010000100000000000 = some (.qtake 1 2) := rfl
/-- R70: `CWR FPCTL, s8`: 1101 0001 001000 000000 000000010101. -/
theorem test_word_cwr : decodeTableWord 32 0b11010001001000000000000000010101 = some (.cwr 8 0x15) := rfl
/-- R70: NOP and EXIT. -/
theorem test_word_nop_exit : decodeTableWord 32 0xD7000000 = some .nop ∧ decodeTableWord 32 0xD6000000 = some .exit := ⟨rfl, rfl⟩
/-- R61, R82: the words 0 and 0xFFFFFFFF are ILLEGAL at slot 0; R69: an odd pair is slot 12. -/
theorem test_word_illegal : decodeScalar 0 = .error 0 ∧ decodeScalar 0xFFFFFFFF = .error 0 ∧
    decodeScalar 0b10000000010000010000100001010000 = .error 12 := ⟨rfl, rfl, rfl⟩
/-- R74, R79: `IADD.i32 v1, v2, v3`: op 0x00, d 1, a 2, b 3, ty 0x01. -/
theorem test_word_iadd : decodeTableWord 96 (1 * 2 ^ 75 + 2 * 2 ^ 68 + 3 * 2 ^ 61 + 1 * 2 ^ 40) =
    some (.iadd { d := 1, a := 2, b := 3, ty := 1 }) := rfl
/-- R74, R79: `FADD.f32 v1, v2, #1.0`: op 0x40, I, ty 0x10. -/
theorem test_word_fadd : decodeTableWord 96 (0x40 * 2 ^ 88 + 2 ^ 86 + 1 * 2 ^ 75 + 2 * 2 ^ 68 + 0x10 * 2 ^ 40 + 0x3F800000) =
    some (.fadd { i := true, d := 1, a := 2, ty := 0x10, imm := 0x3F800000 }) := rfl
/-- R145: `CVT.i32.f32 v1, v2` with rm 1: op 0x80, ty 0x01, x 0x10. -/
theorem test_word_cvt : decodeTableWord 96 (0x80 * 2 ^ 88 + 1 * 2 ^ 75 + 2 * 2 ^ 68 + 1 * 2 ^ 48 + 1 * 2 ^ 40 + 0x10 * 2 ^ 32) =
    some (.cvt { d := 1, a := 2, rm := 1, ty := 1, x := 0x10 }) := rfl
/-- R80: `PMOV v1, p2`: op 0xA6, x 0. -/
theorem test_word_pmov : decodeTableWord 96 (0xA6 * 2 ^ 88 + 1 * 2 ^ 75 + 2 * 2 ^ 68) = some (.pmov { d := 1, a := 2 }) := rfl
/-- 06_memory_instructions.md: `LDS.b128 v8, die[v1+#64]` is 0xC200_4010, 0x0000_3302, 0x0000_0040. -/
theorem test_word_lds : decodeTableWord 96 0xC2004010_00003302_00000040 =
    some (.lds { d := 8, a := 1, ty := 0x33, x := 2, imm := 0x40 }) := rfl
/-- 18_programs_fabric_under_failure.md: `RONCE.b64.uni s16, s14, s4` is 0xE480_0509, 0xD100_3200, 0. -/
theorem test_word_ronce : decodeTableWord 96 0xE4800509_D1003200_00000000 =
    some (.ronce { u := true, a := 80, b := 78, c := 68, ty := 0x32 }) := rfl
/-- R72: a header of two instructions that waits for f3, with flag A = f1. -/
theorem test_header : decodeHeader (0xFC * 2 ^ 88 + 1 * 2 ^ 84 + 2 ^ 75 + 2 ^ 71 + 1 * 2 ^ 67) =
    some { count := 1, wait := 8, flagA := some 1, flagB := none, yieldHint := false } := rfl
/-- R79: the marker 0xFC is no opcode. -/
theorem test_word_marker : decodeLane (0xFC * 2 ^ 88) = .error 0 := rfl

/-! ## A small machine

One running group of one team of one launch, with its code at 0x10000, one clause word after a header at 0x20000 and data at 0x30000, all
in cached pages; R17's example stands in the clause: `IADD.uni s5, s4, s4`. -/

/-- The header of a clause of one instruction, and its word. -/
def header : Nat := 0xFC * 2 ^ 88 + 2 ^ 71 + 2 ^ 66 + 1 * 2 ^ 62
def laneWord : Nat := 2 ^ 87 + 69 * 2 ^ 75 + 68 * 2 ^ 68 + 68 * 2 ^ 61 + 1 * 2 ^ 40

def page (va : Nat) : Tlb := { die := 0, ctx := 0, va := va, size := 16, pa := va, r := true, w := true, x := true }

def group : Group := { live := true, key := 1, spc := 0x10000 }

def base : State := { State.reset with
  cur := group
  teams := [{ status := .resident, unitCores := [0], arrays := [0, 1], win := #v[{ base := 0, size := 256 }, { base := 0, size := 256 }, { base := 0, size := 256 }] }]
  launches := [{ scode := 0x10000, ssize := 0x100, lbase := 0x20000, lsize := 24, teams := 1, dieMask := 1 }]
  ctxs := [{ fqlen := 8, shsize := 0x10000, shbase := 0x30000 }]
  tlb := [page 0x10000, page 0x20000, page 0x30000]
  mem := writeCells (writeCells (writeCells [] 0x10000 (leBytes 4 0x10200063)) 0x20000 (leBytes 12 header)) 0x2000C (leBytes 12 laneWord) }

/-- The clause of the example is queued. -/
def queued : State := base.setCur { group with lq := [{ idx := 0, spc := 0x10000 }] }

/-- The clause under way, its header read and its lane instruction next. -/
def started : State := base.setCur { group with lq := [{ idx := 0, spc := 0x10000, started := true, hdr := decodeHeader header }] }

/-- The group sees the given word next. -/
def next (s : State) (w : Nat) : State := { s with mem := writeCells s.mem 0x10000 (leBytes 4 w) }

theorem test_base_memory : base.memOk := by decide

/-- StepRunsScalarWord: a ready group whose word is `ADDI s4, s0, #99` (R62: 0001 000 000100 000000 and 13 bits). -/
theorem test_scalar_turn_premises : base.trapTakeable base.cur = false ∧ base.scalarReady exec base.cur = true ∧
    (base.scalarWord base.cur).toOption.map (·.2) = some 0x10200063 ∧ decodeScalar 0x10200063 = .ok (.addi 4 0 99) :=
  ⟨rfl, rfl, rfl, rfl⟩

/-- StepRunsLaneWord: the started clause's group is ready, is next on its lane, and its word is there. -/
theorem test_lane_turn_premises : started.laneReady started.cur = true ∧ started.laneIsNext started.cur = true ∧
    (started.fetch (started.laneWordAt started.cur 1) 12).toOption.map (·.2) = some laneWord ∧ (decodeLane laneWord).toOption.isSome = true :=
  ⟨rfl, rfl, rfl, rfl⟩

/-- Interlocks (R17's table): ADDI s4 is held while the clause is queued, ADDI s6 is not, and neither is ADDI s4 after it. -/
theorem test_interlock_example : queued.scalarReady exec queued.cur = false ∧ base.scalarReady exec base.cur = true ∧
    (next queued 0x10300063).scalarReady exec queued.cur = true ∧ (next queued 0x30282000).scalarReady exec queued.cur = false :=
  ⟨rfl, rfl, rfl, rfl⟩
theorem test_interlock_premises : queued.residentRuns queued.cur = true ∧ queued.trapTakeable queued.cur = false ∧
    ((queued.headerOf queued.cur { idx := 0, spc := 0 }).map (·.count)) = some 0 ∧ queued.peekLane queued.cur 1 = some laneWord :=
  ⟨rfl, rfl, rfl, rfl⟩

/-! ## The scalar stream -/

/-- Every statement about registers alone: the registers are clean, the pipeline good. -/
theorem test_clean : base.cur.clean [1, 2, 3, 4, 63] ∧ base.pipelineGood ∧ (base.cur.lq = []) := by decide

/-- R94's examples, with the values of the registers that it names. -/
theorem test_add_example : let s := base.ws 8 0x7FFFFFFF |>.ws 9 1
    s.cur.clean [8, 9] ∧ s.rs 8 = 0x7FFFFFFF ∧ s.rs 9 = 1 ∧
    (match exec (.add 7 8 9 true) s with | .next t => decide (t.rs 7 = 0xFFFFFFFF80000000) | _ => false) = true := by decide

/-- Branches, Jumps (R92, R97): targets inside and outside .scode, conditions that hold and do not. -/
theorem test_branch_premises : base.inScode base.cur 0x100FC = true ∧ base.inScode base.cur 0x10100 = false ∧
    base.rs 1 = base.rs 2 ∧ (base.ws 1 1).rs 1 ≠ (base.ws 1 1).rs 2 ∧ (base.ws 1 2).rs 1 % 4 ≠ 0 := by decide

/-- Enqueue (R105): the clause at index 0 lies in .lcode, one at index 1 does not. -/
theorem test_enqueue_premises : (base.launchOf base.cur).lsize = 24 ∧ 12 * (0 + 1) ≤ 24 ∧ ¬ 24 < 12 * (0 + 0 + 2) ∧ 24 < 12 * (1 + 1 + 1) ∧
    (base.fetch 0x20000 12).toOption.map (·.2) = some header := ⟨rfl, by decide, by decide, by decide, rfl⟩

/-- LaneControl (R106, R109): a queued clause that names f0, and one that names none of f5. -/
theorem test_lane_control_premises : queued.cur.lq ≠ [] ∧ base.cur.lq = [] ∧
    ((queued.headerOf queued.cur { idx := 0, spc := 0 }).map fun h => (h.flagA, h.flagB)) = some (some 0, some 1) := ⟨by decide, rfl, rfl⟩

/-- A record of four elements of 8 bytes at 0x30000 (R157: base [56:0], extent [95:64], stride [127:96], ESIZE [131:128], OOB 136, WR 137). -/
def rec0 (oob wr : Nat) : BitVec 256 := BitVec.ofNat 256 (0x30000 + 4 * 2 ^ 64 + 8 * 2 ^ 96 + 3 * 2 ^ 128 + oob * 2 ^ 136 + wr * 2 ^ 137)

def withRec (oob wr : Nat) : State := base.setCur { group with b := group.b.set 2 (rec0 oob wr) }

/-- ScalarLoads, ScalarStores (R100, R158): inside, at the end of the extent and past it, zero-filling and not, writable and not, bad. -/
theorem test_record_premises : recBad (rec0 0 1) = false ∧ recBad (rec0 1 0) = false ∧ recOob (rec0 1 0) = true ∧ recOob (rec0 0 1) = false ∧
    recWr (rec0 0 1) = true ∧ recWr (rec0 1 0) = false ∧ recBad (rec0 0 1 ||| (5 <<< 128)) = true ∧
    recExtent (rec0 0 1) * 2 ^ recEsize (rec0 0 1) = 32 := by decide
theorem test_line_premises :
    (match base.line .read 0x30018 10 (some 2) with
      | .ok (t, l) => (l.key 0x30018 == 0x30018) && (t.heldCheck (l.key 0x30018)).toOption.isSome && !t.poisonedAt (l.key 0x30018) 8
      | .error _ => false) = true ∧
    (base.line .write 0x30018 10 (some 2)).toOption.isSome = true := ⟨rfl, rfl⟩
/-- An aligned load and store inside the record do what they say: the store's bytes are read back (R6: little-endian). -/
theorem test_store_load : (match exec (.sst 1 2 0 1) ((withRec 0 1).ws 1 0x0102030405060708) with
    | .next t => cellRead t.mem 0x30008 == 8 && cellRead t.mem 0x3000F == 1 && cellRead t.mem 0x30010 == 0 && t.read 0x30008 8 == 0x0102030405060708
    | _ => false) = true := rfl

/-- BufferRecords (R102, R103): addresses past 2^57, misaligned, and good. -/
theorem test_bld_premises : 2 ^ 57 ≤ (BitVec.ofNat 64 (2 ^ 57)).toNat ∧ 0x30008 % 32 ≠ 0 ∧ 0x30020 % 32 = 0 ∧
    (base.line .read 0x30020 10).toOption.isSome = true := ⟨by decide, by decide, by decide, rfl⟩

/-- LineChecks (R161): each answer of a translation, each bar to an access. -/
theorem test_translation_premises :
    base.translate 0 0 0x30000 = .leaf (page 0x30000) ∧ base.translate 0 0 0x50000 = .absent ∧
    ({ base with tlb := [{ page 0x30000 with w := false }] } : State).translate 0 0 0x30000 = .leaf { page 0x30000 with w := false } ∧
    ({ base with fenced := [.channel 0 3] } : State).translate 0 0 0x30000 = .malformed ∧
    ({ base with poisoned := [0] } : State).translate 0 0 0x50000 = .poisoned 0 := ⟨rfl, rfl, rfl, rfl, rfl⟩
theorem test_line_bars : base.codePage 0 0x10000 = true ∧ base.codePage 0 0x30000 = false ∧
    (2 ^ 37 / 2 ^ 37 ≠ base.cur.place.die) := by decide

/-- A table of one page at key 0 whose entry says that its frame is to be zeroed. -/
theorem test_zero_page_premises :
    ({ base with mem := writeCells (writeCells (writeCells (writeCells (writeCells [] 0 (leBytes 8 0x2001)) 0x2000 (leBytes 8 0x4001)) 0x4000 (leBytes 8 0x6001))
        0x6000 (leBytes 8 0x8001)) (0x8000 + 16 * 5) (leBytes 8 0x50103) } : State).translate 0 0 0x50000 = .zero 0x50000 := rfl

/-- ScalarScratchpad (R101): inside the window of 256 bytes, at its end, past it and misaligned. -/
theorem test_scratchpad_premises : base.windowSize base.cur 0 = 256 ∧ 248 + 8 ≤ 256 ∧ ¬ 256 + 8 ≤ 256 ∧ 4 % 8 ≠ 0 ∧
    base.poisonedAt (base.windowKey base.cur 0 248) 8 = false ∧ base.cur.place.onStack = false := by decide
/-- A stack-core group. -/
def onStack : State := base.setCur { group with place := { stack := some (0, 0) } }
theorem test_scratchpad_lacks_premises : onStack.cur.place.onStack = true ∧ (1 : Fin 3) ≠ 0 ∧ onStack.cur.lq = [] := by decide

/-- ControlRead, ControlWrite (R18): numbers inside and outside the map. -/
theorem test_control_premises : (0x01C : BitVec 12).toNat = 0x01C ∧ (0x01D : BitVec 12).toNat ∉ List.range 0x1D ∧
    (0x012 : BitVec 12).toNat ∈ [0x012, 0x013] := by decide

/-- SystemWords (R111-R113): a handler and none, a sleep that goes on and one that is over, DEBUG, a queued clause. -/
theorem test_system_premises : base.cur.utvec = 0 ∧ (base.setCur { group with utvec := 0x10080 }).cur.utvec ≠ 0 ∧ base.cur.wait = .none ∧
    (base.setCur { group with wait := .sleep 5 }).cycle group < 5 ∧ ¬ ({ base with now := 5 } : State).cycle group < 5 ∧
    (base.ctxOf base.cur).debug = false ∧ (({ base with ctxs := [{ debug := true }] } : State).ctxOf base.cur).debug = true := by decide

/-- TrapReturn, TrapEntry (R114-R116): in a handler, its return address good, misaligned and outside; a trap of each kind first. -/
def trapped (tr : Traps) (utvec : Word) (w : Wait) : State := base.setCur { group with traps := tr, utvec := utvec, wait := w }
theorem test_trap_premises : (trapped { sw := some 7 } 0x10080 .none).residentRuns (trapped { sw := some 7 } 0x10080 .none).cur = true ∧
    Wait.trapOpen .none = true ∧ Wait.trapOpen (.sleep 5) = true ∧ Wait.trapOpen .exit = true ∧
    base.inScode base.cur 0x10080 = true ∧ base.inScode base.cur 0x40000 = false ∧ (0x10082 : Nat) % 4 ≠ 0 ∧
    (trapped { rescale := some 3 } 0x10080 .none).cur.traps.rescale.isSome = true ∧
    (trapped { remote := true } 0x10080 .none).cur.traps.rescale = none := by decide
/-- R115: entry saves SPC, the cause and the datum, and goes to UTVEC with IH set. -/
theorem test_trap_entry : (match exec (.userTrapEntry 1) (trapped { sw := some 7 } 0x10080 .none) with
    | .next t => t.cur.spc == 0x10080 && t.cur.uepc == 0x10000 && t.cur.ucause == 0x42 && t.cur.utdata == 7 && t.cur.ih && t.cur.traps.sw.isNone
    | _ => false) = true := rfl

/-- TimerAndSleep (R22, R111). -/
theorem test_timer_premises : let s : State := { base.setCur { group with cyccmp := 5, wait := .sleep 5 } with now := 5 }
    s.residentRuns s.cur = true ∧ s.cur.cyccmp ≠ 0 ∧ s.cur.cyccmp.toNat ≤ s.now - s.cur.base ∧ ¬ (s.now - s.cur.base < 5) ∧
    ({ s with now := 4 } : State).now - s.cur.base < 5 := by decide

/-- ScalarFault, ScalarIllegal (R82, R91, R254). -/
theorem test_scalar_fault_premises : base.cur.lq = [] ∧ queued.cur.lq ≠ [] ∧ ((next base 0).scalarWord base.cur).toOption.map (·.2) = some 0 ∧
    decodeScalar 0 = .error 0 ∧ base.inScode base.cur (0x10100 : Word).toNat = false := ⟨rfl, by decide, rfl, rfl, rfl⟩

/-- ScalarRegisterFrame, ScalarControlFrame, ScalarStoreFrame: each runs. -/
theorem test_scalar_frame_premises :
    (exec (.add 3 1 2 true) base matches .next _) ∧ (exec (.bld 2 0 0) base matches .next _) ∧ (exec (.call 4) base matches .next _) ∧
    (exec (.sld 4 2 0 0) (withRec 0 1) matches .next _) ∧ (exec (.sst 4 2 0 0) (withRec 0 1) matches .next _) := ⟨rfl, rfl, rfl, rfl, rfl⟩

/-! ## The lane stream -/

/-- LaneIntegers to LaneCrossThread: of every opcode below 0xC0 an instruction that has its own effect in the started clause (types by R79). -/
def laneSamples : List (Nat × LaneFields) :=
  ([0x00, 0x01, 0x02, 0x03, 0x04, 0x05, 0x06, 0x07, 0x08, 0x0A, 0x0B, 0x19, 0x20, 0xA3, 0xA4].map fun op => (op, { ty := 1, a := 1 })) ++
  ([0x10, 0x11, 0x12, 0x13, 0x14, 0x15, 0x16, 0x17, 0x18, 0x1A, 0x1B, 0x1C, 0x1D, 0x21, 0xA0, 0xA1, 0xA2, 0xA5, 0xA6, 0xA7].map fun op => (op, { a := 1 })) ++
  ([0x40, 0x41, 0x42, 0x43, 0x44, 0x45, 0x46, 0x47, 0x48, 0x49, 0x4A, 0x4B, 0x4C, 0x4D, 0x4E, 0x4F].map fun op => (op, { ty := 0x10, a := 1 })) ++
  ([0x50, 0x51, 0x52, 0x53, 0x54, 0x55, 0x56, 0xA3, 0xA4].map fun op => (op, { ty := 0x10, a := 1 })) ++
  [(0x09, { ty := 5 }), (0x22, { b := 1 }), (0x23, { ty := 2 }), (0x40, { ty := 0x11 }), (0x44, { ty := 0x11 }), (0x00, { ty := 5, rm := 1 }),
    (0x80, { ty := 1, x := 3 }), (0x80, { ty := 1, x := 0x10 }), (0x80, { ty := 0x10, x := 1 }), (0x81, { ty := 0x20, x := 0x10, b := 2 }),
    (0x82, { ty := 0x10, x := 0x20, b := 2 }), (0x83, { ty := 0x21 }), (0x84, { ty := 0x23 }), (0xA4, { ty := 1, x := 8 }), (0xA6, { x := 1 })]

theorem test_lane_good_premises : ∀ q ∈ laneSamples, started.laneGood q.1 q.2 := by decide

/-- A uniform, immediate instruction too; and the scales of QCVT (R146): 1.0 is 0x3F80, zero is none. -/
theorem test_lane_good_uniform : started.laneGood 0x00 { ty := 1, u := true, i := true, imm := 7, d := 69, a := 68 } := by decide
theorem test_scale_premises : (let e := (0x3F80 : Nat); ¬ (2 ^ 15 ≤ e ∨ e / 2 ^ 7 = 0 ∨ e / 2 ^ 7 = 255)) ∧ (0 : Nat) / 2 ^ 7 = 0 := by decide

/-- R34, R128: -128 + -1 in .i8x4 clamps to -128 with rm 1 and wraps to 127 with rm 0. -/
def threads2 (a b : Word32) : State := started.setCur (((started.cur.wv 1 0xFFFFFFFF fun _ => a).wv 2 0xFFFFFFFF fun _ => b))
def lane3 (i : Instr) (a b : Word32) : Option Word32 := match exec i (threads2 a b) with | .next t => some t.cur.v[3][31] | _ => none
theorem test_iadd_saturates : lane3 (.iadd { d := 3, a := 1, b := 2, ty := 5, rm := 1 }) 0x00000080 0x000000FF = some 0x80 := rfl
theorem test_iadd_wraps : lane3 (.iadd { d := 3, a := 1, b := 2, ty := 5 }) 0x00000080 0x000000FF = some 0x7F := rfl
/-- R35: a division by zero, and the most negative number by -1. -/
theorem test_idiv_zero : lane3 (.idiv { d := 3, a := 1, b := 2, ty := 1 }) 5 0 = some 0xFFFFFFFF := rfl
theorem test_irem_zero : lane3 (.irem { d := 3, a := 1, b := 2, ty := 1 }) 5 0 = some 5 := rfl
/-- R37: 1 + 2^-24 ties to the even 1. -/
theorem test_fadd_ties : lane3 (.fadd { d := 3, a := 1, b := 2, ty := 0x10 }) 0x3F800000 0x33800000 = some 0x3F800000 := rfl
/-- R37: and rounds up in mode 3 (up). -/
theorem test_fadd_up : lane3 (.fadd { d := 3, a := 1, b := 2, ty := 0x10, rm := 3 }) 0x3F800000 0x33800000 = some 0x3F800001 := rfl
/-- R38: infinity less infinity is the canonical NaN. -/
theorem test_fsub_invalid : lane3 (.fsub { d := 3, a := 1, b := 2, ty := 0x10 }) 0x7F800000 0x7F800000 = some 0x7FC00000 := rfl
/-- R40: of -0 and +0 the smaller is -0. -/
theorem test_fmin_zero : lane3 (.fmin { d := 3, a := 1, b := 2, ty := 0x10 }) 0 0x80000000 = some 0x80000000 := rfl
/-- R145: -1.5 to an integer, ties to even, is -2; to .n32 it clamps to 0. -/
theorem test_cvt_float : lane3 (.cvt { d := 3, a := 1, ty := 1, x := 0x10 }) 0xBFC00000 0 = some 0xFFFFFFFE := rfl
theorem test_cvt_clamps : lane3 (.cvt { d := 3, a := 1, ty := 2, x := 0x10 }) 0xBFC00000 0 = some 0 := rfl
/-- R131: BMUX3 with the function byte 0xCA selects a where c holds and b where it does not (bit 2a + b for c = 0: 1010; for c = 1: 1100). -/
theorem test_bmux : (match exec (.bmux3 { d := 3, a := 1, b := 2, c := 4, x := 0xCA }) (threads2 0xF0F0F0F0 0x12345678) with
    | .next t => some t.cur.v[3][0] | _ => none) = some 0x12345678 := rfl
/-- R151: a shift by one within segments of 32: thread 31 gets its fill. -/
theorem test_xperm_fill : lane3 (.xperm { d := 3, a := 1, i := true, imm := 1, c := 2, x := 1 }) 7 9 = some 9 := rfl
/-- R153: the sum of 32 ones is 32. -/
theorem test_fold : lane3 (.fold { d := 3, a := 1, ty := 1 }) 1 0 = some 32 := rfl
/-- R154: the exclusive prefix of thread 31 is 31. -/
theorem test_scan : lane3 (.scan { d := 3, a := 1, ty := 1, x := 8 }) 1 0 = some 31 := rfl

/-- FloatRounding, FloatParts and the like: modes of R37; values of each class. -/
theorem test_float_premises : (6 ≤ 6 ∧ 6 ≠ 5) ∧ (decodeF f32 false 0x7F800001).isSnan = true ∧ (decodeF f32 false 0x7FC00000).isNan = true ∧
    decodeF f32 false 0xFF800000 = .inf true ∧ (decodeF f32 false 1).isNan = false ∧ (decodeF bf16 false 0xFF7F).isNan = false := by decide

/-- PrefixValues, LaneProgress, ClauseStart (R72). -/
theorem test_clause_premises : started.cur.clause.isSome = true ∧ (started.cur.lq.head?.map fun e => e.hdr.map (·.count.val)) = some (some 0) ∧
    queued.cur.lq = [{ idx := 0, spc := 0x10000 }] ∧ queued.cur.stop = .running ∧ (queued.fetch 0x20000 12).toOption.map (·.2) = some header ∧
    decodeHeader 0 = none ∧ (decodeHeader header).isSome = true ∧ 12 * (0 + 1) ≤ (queued.launchOf queued.cur).lsize ∧
    ¬ 12 * (2 + 1) ≤ (queued.launchOf queued.cur).lsize := ⟨rfl, rfl, rfl, rfl, rfl, rfl, rfl, by decide, by decide⟩

/-- LaneObstacles (R82, R73, R121, R123, R124, R348): each obstacle stands in some state. -/
theorem test_lane_obstacles : let g := started.cur
    firstSlot (laneChecks 0x00 { ty := 0x10 }) = some 2 ∧
    clauseSlot { g with lq := g.lq.map fun e => { e with dirty := [5] } } 0x00 { ty := 1, a := 5 } = some 10 ∧
    stackLacks onStack.cur 0xC6 { ty := 1, x := 1 } = true ∧ activeMask g { pg := 1 } = 0 ∧
    (poisonCheck { g with poisonV := [(5, 3, 4)] } (laneSources 0x00 { ty := 1, a := 5 }) 0xFFFFFFFF).isSome = true ∧
    (uniformCheck (g.wv 5 1 fun _ => 1) (laneSources 0x00 { ty := 1, a := 5 }) 0xFFFFFFFF).isSome = true := by decide

/-- LaneComputeFrame. -/
theorem test_lane_frame_premises : laneOf (.iadd { ty := 1, a := 1 }) = some (0x00, { ty := 1, a := 1 }) ∧
    (exec (.iadd { ty := 1, a := 1 }) started matches .next _) := ⟨rfl, rfl⟩

/-! ## Fences, barriers, waits and queues -/

def withReg (r : Fin 64) (x : Word) : State := base.ws r x
def withReg2 (r : Fin 64) (x : Word) (q : Fin 64) (y : Word) : State := (base.ws r x).ws q y

/-- FenceAndBarrier (R235, R236): scopes at the edges, quiet and not, a COOP launch of one stage and of none. -/
theorem test_fence_premises : (withReg 3 6).rs 3 = 6 ∧ (withReg 3 5).rs 3 = 5 ∧ base.cur.clean [3] ∧ (∀ b ∈ base.beaterChecks, b.1 ≠ base.cur.key) ∧
    base.cur.lq = [] ∧ base.work = [] ∧ base.remotePending base.cur.key = false ∧ queued.cur.lq ≠ [] ∧
    (base.launchOf base.cur).coop = false ∧ base.alone base.cur = false := by decide
theorem test_barrier_premises : let s := base.setCur { group with wait := .bar 0 false }
    s.group 1 = some s.cur ∧ (∀ h ∈ s.participants s.cur 0, h.wait = .bar 0 false) ∧ ((s.groups.filter (·.live)).map (·.key)).Nodup := by decide

/-- WaitConditions (R237). -/
theorem test_wait_condition : ({ key := 0x30000, w64 := false, mask := 0xFF, cmp := 2, e := 0xFFFFFFFF } : WaitEntry).holds base = false ∧
    ({ key := 0x30000, w64 := false, mask := 0xFF, cmp := 4, e := 1 } : WaitEntry).holds base = true := by decide
/-- AddressWaits: an aligned word on this die, a descriptor of a legal condition, a bad one, a wake and a poll that may come. -/
theorem test_waita_premises : base.cur.clean [2, pairLo 3, pairHi 3] ∧ waitaBad 1 = false ∧ waitaBad 6 = true ∧ 0x30000 % 4 = 0 ∧
    (base.line .read 0x30000 11).toOption.isSome = true ∧ (page 0x30000).pa / 2 ^ 37 = base.cur.place.die ∧
    (base.reachKey base.cur.wait.again 0x30000).toOption.isSome = true ∧ (∀ o ∈ base.others, o.live = true → o.key ≠ 1) ∧
    base.waitEntries (frameStack 0x30000) < 256 := ⟨by decide, by decide, by decide, by decide, rfl, by decide, rfl, by decide, by decide⟩

/-- StageQueues (R238): a group of stage 1 takes, one of stage 0 gives; a token below and at 2^63. -/
def staged (n : Nat) (ts : List Word) : State := { base with
  teams := base.teams.map fun t => { t with stage := n }
  launches := base.launches.map fun l => { l with stages := [{ max := 1, depth := 2 }, { max := 1, depth := 2 }], queues := [{ die := 0, q := 0, tokens := ts }] } }
/-- The same with a team of stage 0 still to be made. -/
def fed (n : Nat) (ts : List Word) : State := { staged n ts with launches := (staged n ts).launches.map fun l => { l with assigned := l.assigned.set 0 1 } }
theorem test_stage_queue_premises : let l := (staged 1 [9]).launchOf base.cur
    0 + 1 < l.stages.length ∧ ((staged 1 [9]).teamOf base.cur).stage = 1 ∧ ((staged 0 []).teamOf base.cur).stage = 0 ∧
    (l.queueAt 0 0).tokens = [9] ∧ (((staged 0 []).launchOf base.cur).queueAt 0 0).tokens.length < l.depth 0 ∧
    (staged 1 []).queueClosed ((staged 1 []).launchOf base.cur) 0 0 = true ∧
    (fed 1 []).queueClosed ((fed 1 []).launchOf base.cur) 0 0 = false := by decide

/-! ## Copies, pages, arrival words and the matrix array -/

/-- Registers written, bytes stored, and a state after one instruction. -/
def regs (l : List (Fin 64 × Word)) (s : State := base) : State := l.foldl (fun s r => s.ws r.1 r.2) s
def bytesAt (k n v : Nat) (s : State) : State := { s with mem := writeCells s.mem k (leBytes n v) }
def ok {α β : Type} (x : Except α β) (p : β → Bool) : Bool := match x with | .ok v => p v | .error _ => false
def after (i : Instr) (s : State) : State := match exec i s with | .next t => t | _ => base

/-- TileCopyIssue (R179, R180): two rows of 32 bytes from 0x30000 to 0x30100, an arrival word at 0x30200; an empty tile. -/
def copying : State := ((withReg2 1 0x30100 2 0x30000).ws 4 (BitVec.ofNat 64 (2 + 32 * 2 ^ 16 + 2 * 2 ^ 32 + 2 * 2 ^ 48))).ws 5 0x30200
theorem test_tile_copy_premises : let s := copying
    s.cur.clean [1, 2, pairLo 2, pairHi 2] ∧ stackLacksTag s.cur (s.rs 1) = false ∧ (taggedOf .write (s.rs 1) 10).toOption.isSome = true ∧
    (taggedOf .read (s.rs 2) 11).toOption.isSome = true ∧ (taggedOf .write (s.rs 5) 12).toOption.isSome = true ∧ s.hasRoom 1 ∧
    (exec (.tmova 1 2 2 1) s matches .next _) ∧ bits (s.rs 0).toNat 15 0 = 0 := by decide +kernel
/-- CopyLanded: the accepted copy, its rows apart from each other and from the arrival word. -/
theorem test_copy_landed_premises : ((after (.tmova 1 2 2 1) copying).work.map fun w => match w.kind with
      | .copy rows arr _ total => (w.id, rows.flatten.map fun g => (g.dst, g.src, g.len), arr, total) | _ => (9, [], none, 0)) =
        [(1, [(0x30100, 0x30000, 32), (0x30120, 0x30020, 32)], some 0x30200, 64)] ∧ (after (.tmova 1 2 2 1) copying).rows = [] ∧
    (after (.tmova 1 2 2 1) copying).memOk := by decide +kernel
/-- Batches (R181): an open batch with a copy outstanding, and none. -/
theorem test_batch_premises : base.batchGap base.cur < 255 ∧ base.openBatches base.cur = [] ∧ base.beaterChecks = [] ∧
    (let s := after (.tmova 1 2 2 1) copying; s.openBatches s.cur = [s.cur.batchOpen]) := by decide +kernel
/-- PageWorkIssue (R182, R183): each class of address and length, a present page, and HOME to die 0. -/
theorem test_page_work_premises : 0x30000 % 2 ^ 16 = 0 ∧ 0x30001 % 2 ^ 16 ≠ 0 ∧ 2 ^ 40 < 2 ^ 40 + 2 ^ 16 ∧ 2 ^ 57 < (2 ^ 57 - 2 ^ 16) + 2 ^ 17 ∧
    (base.pageLeaves true 0x30000 0x10000).toOption.isSome = true ∧ (base.pageLeaves false 0x30000 0x10000).toOption.isSome = true ∧
    base.settled base.cur.key = true ∧ base.hasRoom 1 ∧ homeBad 1 (base.launchOf base.cur).dieMask = false := by decide +kernel
/-- A page table at key 0 with one leaf for the granule 0x50000 at frame 0x50000 (its low byte 3: V and R), and a free frame in the pool. -/
def table (flags : Nat) : State := { base with
  pool := [(0, 0x60000, 16)]
  mem := writeCells (writeCells (writeCells (writeCells (writeCells [] 0 (leBytes 8 0x2001)) 0x2000 (leBytes 8 0x4001)) 0x4000 (leBytes 8 0x6001))
    0x6000 (leBytes 8 0x8001)) (0x8000 + 16 * 5) (leBytes 8 (0x50000 + flags)) }
/-- HOME is accepted with its frame; SealComplete and HomeComplete: the work accepted, its page a leaf of the table. -/
def homing : State := regs [(1, 0x50000), (2, 0x10000), (3, 1)] (table 15)
theorem test_home_premises : ok (homing.pageLeaves false 0x50000 0x10000) (fun r => r.2.length == 1) = true ∧
    ((after (.home 1 2 3 1) homing).work.map fun w => w.kind) = [.home 0 0x50000 0x10000 [(0x50000, 0x60000, 0)]] := by decide +kernel
theorem test_home_leaf : ((after (.home 1 2 3 1) homing).leafAt 0 0 0x50000).map (fun l => (l.entry, l.pa, l.size)) =
    some (0x8050, 0x50000, 16) := by decide +kernel
theorem test_seal_premises : ((after (.seal 1 2 1) homing).work.map fun w => w.kind) = [.sealing 0 0x50000 0x10000 true] ∧ homing.memOk := by
  decide +kernel

/-- ArrivalWords (R229-R231): a word of TARGET 4 with COUNT 3 at 0x30200. -/
def arrival : State := bytesAt 0x30200 8 (3 + 4 * 2 ^ 23 + 2 ^ 48) (regs [(1, 0x30200), (2, 3 + 4 * 2 ^ 23), (3, 0)])
theorem test_arrival_premises : arrival.cur.clean [1, 2, 3] ∧ ok (arrival.tagWord .write (arrival.rs 1) 10) (fun q => q.2 == 0x30200) = true ∧
    ok (arrival.tagWord .read (arrival.rs 1) 11) (fun q => q.2 == 0x30200 && ok (q.1.reachKey (.arrwait false) q.2) (fun _ => true)) = true ∧
    arrival.laneQuiet = true ∧ arrival.hasRoom 1 ∧ arrival.rowHeld arrival.cur.place.coreIx 0x30200 = false ∧
    arrAdd (3 + 4 * 2 ^ 23 + 2 ^ 48) 1 = 4 * 2 ^ 23 + 2 * 2 ^ 48 := by decide +kernel
theorem test_sealed_word_premises : let s : State := { arrival with tlb := [{ page 0x30000 with sealed := true }] }
    ok (s.line .read 0x30200 10) (fun q => q.2.sealed) = true ∧ s.translate 0 0 0x30200 = .leaf { page 0x30000 with sealed := true } := by decide +kernel

/-- A matrix block of Q8 (R188): two rows of two columns at 0x30400 with the scale 1.0 at its offset 64 and its rows at 128. -/
def block : Nat := 0x22 + 2 * 2 ^ 16 + 2 * 2 ^ 32 + 16 * 2 ^ 48 + 128 * 2 ^ 64 + (1 + 0x3F80 * 2 ^ 64) * 2 ^ 512 + (0x0201 + 0x0403 * 2 ^ 128) * 2 ^ 1024
def weights : WBank := { loaded := true, fmt := 0x22, rows := 2, cols := 2, pitch := 16, data := leBytes 32 (0x0605 + 0x0807 * 2 ^ 128), scales := [0x3F80] }
/-- A core with weights in its active bank, its accumulator bank 0 open, and a 2 x 2 x 2 shape in k1. -/
def mstate : State := let s := bytesAt 0x30400 192 block (regs [(1, 0x30400), (2, 1), (3, 0x22), (4, 0x30440), (5, 0x30600)])
  { s.setCur { s.cur with k := s.cur.k.set 1 (BitVec.ofNat 128 (2 + 2 * 2 ^ 8 + 2 * 2 ^ 32)) } with
    cores := [{ ix := 0, a := #v[{ isOpen := true, lead := 0 }, {}], w := #v[weights, {}] }] }
theorem test_matrix_control_premises : mstate.arrayGood ∧ mstate.cur.clean [1, 2, 3] ∧ 0 ∈ (mstate.teamOf mstate.cur).arrays ∧ mstate.pairGood ∧
    mstate.slaved 0 = false ∧ mstate.streamTaken = false ∧ onStack.cur.lq = [] ∧ mstate.cur.live = true ∧ mstate.work = [] ∧
    (mstate.core 0).w[mstate.standby 0].loaded = false ∧ mstate.hasRoom 1 := by decide +kernel
/-- A loaded standby bank. -/
def standing : State := { mstate with cores := [{ ix := 0, w := #v[weights, weights] }] }
theorem test_swap_premises : (standing.core 0).w[standing.standby 0].loaded = true ∧ standing.arrayGood ∧
    (match exec (.mxswap 1) standing with | .next t => (t.core 0).act == 1 | _ => false) = true := by decide +kernel
/-- WeightLoads (R194): the block as weights, both rows, unpaired and paired. -/
theorem test_weight_premises : ok (mstate.readHead 0x30400 10) (fun r => r.2.2.1.rows == 2 && r.2.2.1.pitch == 16 &&
      ok (r.1.readScales 12 (.va 0x30440) 0 (fun o => if o then 1 else 1)) (fun _ => true)) = true ∧
    (exec (.mxldw 1 0 4 1) mstate matches .next _) ∧ (regs [(2, 2 ^ 33)] mstate).rs 2 = 2 ^ 33 ∧
    (after (.mxldw 1 0 4 1) mstate).work.length = 1 := by decide +kernel
theorem test_weight_complete_premises : ((after (.mxldw 1 0 4 1) mstate).work.map fun w => match w.kind with
    | .weight core bank _ _ src pair => (core == 0 && bank == 1 && src == [(0x30480, 32)] && !pair && w.id == 1) | _ => false) = [true] := by decide +kernel
/-- MatrixMultiply (R197-R200): one chain, its block streamed with the weights' scale. -/
def mul : Instr := .mxmul 1 2 3 1
theorem test_multiply_premises : (parseShape mstate.cur.k[1].toNat).isSome = true ∧ (mstate.core 0).a[(0 : Fin 2)].isOpen = true ∧
    (mstate.core 0).w[(mstate.core 0).act].loaded = true ∧ ((after mul mstate).core 0).a[(0 : Fin 2)].steps = 2 ∧
    (after mul mstate).work.length = 1 := by decide +kernel
/-- MatrixProducts (R199): the first row of the block is (1, 2), the weights are (5, 6) and (7, 8): 1 * 5 + 2 * 7 = 19. -/
theorem test_product : (match exec (.mxmulComplete 1) (after mul mstate) with
    | .next t => (((t.core 0).a[(0 : Fin 2)].cell 0 0).sum, ((t.core 0).a[(0 : Fin 2)].cell 1 1).sum, t.work.length)
    | _ => ((0, false), (0, false), 9)) = ((19, true), (50, true), 0) := by decide +kernel
theorem test_cell_premises : (({ row := 0, col := 0, a := 65534, b := 65535, c := 32766, k := 250 } : Cell).sum) = (-1, true) := by decide +kernel
/-- MatrixDrain (R202-R204): the chain of the product, drained as FP32 with a pitch of 16 to 0x30600. -/
def drained : State := { regs [(2, 2 ^ 16)] mstate with cores := [{ ix := 0, a := #v[{ isOpen := true, latch := some { m := 2, n := 2, rows := [0x3F80], cols := [0x3F80] }, cells := [({ row := 0, col := 0, a := 0, b := 0, c := 0, k := 0 } : Cell).add 19] }, {}] }] }
theorem test_drain_premises : drainBad (2 ^ 16) (parseDrain (2 ^ 16)) 2 = false ∧ (drained.mismatch 0 0).isSome = false ∧
    (match exec (.mxdrain 5 2 0 1) drained with
      | .next t => (t.work.map fun w => match w.kind with | .drain rows _ _ armed => (rows.map fun r => (r.1, r.2.length), armed) | _ => ([], true))
      | _ => []) = [([(0x30600, 8), (0x30610, 8)], false)] := by decide +kernel
/-- R54: the element 19.0 as FP32 stands at 0x30600 when the drain is done. -/
theorem test_drain_bytes : (match exec (.drainComplete 1) (after (.mxdrain 5 2 0 1) drained) with
    | .next t => t.read 0x30600 4 | _ => 0) = 0x41980000 := by decide +kernel
/-- ScanMismatch, AccumulatorCheck (R53, R377): a bank that is due, its cell good, and upset. -/
def due (k : Nat) : State := { mstate with cores := [{ ix := 0, a := #v[{ isOpen := true, due := true, cells := [{ row := 1, col := 2, a := 19, b := 19, c := 19, k := k }] }, {}] }] }
theorem test_accumulator_premises : (due 19).mismatch 0 0 = none ∧ (due 20).mismatch 0 0 = some (0, 1, 2) ∧ (due 19).evUsed < 4032 := by decide +kernel

/-! ## Stack cores, remote operations and records -/

/-- StackCoreStart (R184): two rows of 64 bytes at 0x30000, one group; the arrival word at 0x30200 counts bytes. -/
def nmState : State := bytesAt 0x30800 32 (0x30000 + 64 * 2 ^ 64 + 2 * 2 ^ 80 + 1 * 2 ^ 96 + 1 * 2 ^ 112 + 64 * 2 ^ 128) (regs [(1, 0), (2, 0x30800), (3, 0x30200)])
theorem test_nmrun_premises : nmState.cur.clean [1, 2, 3] ∧ 0 + 4 ≤ (nmState.launchOf nmState.cur).ssize ∧
    ok (nmState.line .read 0x30800 11) (fun q => ok (q.1.heldCheck (q.2.key 0x30800)) fun t =>
      !t.poisonedAt (q.2.key 0x30800) 32 && !nmBad (parseNm (t.read (q.2.key 0x30800) 32)) &&
      ok (t.nmTile (parseNm (t.read (q.2.key 0x30800) 32))) (fun u => ok (u.1.tagWord .write 0x30200 12) (fun v => arrUnit (v.1.read v.2 8) == 0))) = true ∧
    (exec (.nmrun 1 2 3 1) nmState matches .next _) := by decide +kernel
/-- StackGroupStart: the accepted work, with a free slot of the stack core. -/
theorem test_stack_group_premises : let s := after (.nmrun 1 2 3 1) nmState
    (s.work.map fun w => match w.kind with | .nmrun n => (n.pieces, n.die, (s.freeStackSlots n.die n.stack 0).isEmpty) | _ => ([], 9, true)) =
      [([(0, 0, 2)], 0, false)] ∧ (s.work.map (·.id)) = [1] ∧ s.fenced = [] ∧ (s.launch 0).wmslots = 0 ∧
    (match exec (.nmrunGroupStart 1) s with | .next t => (t.others.map fun g => (g.rs 4, g.place.stack)) | _ => []) = [(2, some (0, 0))] := by decide +kernel
/-- ReturnTrap (R349): a returned group, with a core of its die free. -/
def returned : State := { base with
  cur := { group with place := { stack := some (0, 0) }, stop := .returned }
  teams := base.teams.map fun t => { t with unitCores := [96], win := #v[{ base := 0, size := 256 }, {}, {}] } }
theorem test_return_premises : returned.settled 1 = true ∧ returned.cur.wait.goesOn = false ∧
    returned.firstServed 0 (returned.teamOf returned.cur) = true ∧ (returned.returnFit (returned.teamOf returned.cur)).isSome = true ∧
    returned.group 1 = some returned.cur ∧
    (match returned.returnFit (returned.teamOf returned.cur) with | some (p, w) => p.coreIx < 96 && w.size == 256 | none => false) = true := by decide +kernel

/-- SendOperation, LaneRemote (R219-R226): a good peer, a misaligned target, a denied peer; the context is there. -/
def remote (peer addr : Word32) : State := started.setCur ((started.cur.wv 6 0xFFFFFFFF fun _ => peer).wv 2 0xFFFFFFFF fun _ => addr)
theorem test_remote_premises : (remote 0 0x100).laneGood 0xE0 { a := 2, b := 4, c := 6, ty := 1 } ∧ (remote 0 0x100).peerBad 0 = false ∧
    (remote 0 0x100).peerBad 9 = true ∧ (remote 0 0x100).peerBad 0x10000 = true ∧ (remote 0 0x100).peerReached 0 = true ∧
    (remote 0 0x100).room 0 0 (streamOf started.cur.place) 32 = true ∧ started.holding = false ∧
    ({ started with fenced := [.die 0] } : State).peerReached 0 = false ∧ (0x102 : Nat) % 4 ≠ 0 ∧ started.ctxs.any (·.num == 0) = true := by
  decide +kernel
/-- Each remote opcode in a form that is good. -/
theorem test_remote_forms : ∀ q ∈ [(0xE0, 1), (0xE1, 1), (0xE2, 1), (0xE3, 0), (0xE4, 0x32), (0xE5, 0x32), (0xE6, 0x32), (0xE7, 0x10)],
    (remote 0 0x100).laneGood q.1 { a := 2, b := 4, c := 6, ty := (q.2 : Fin 256) } := by decide +kernel
theorem test_radd_sends : (match exec (.radd { a := 2, b := 4, c := 6, ty := 1 }) (remote 0 0x100) with
    | .next t => (t.remotes.length, t.inflight.length, t.work.length) | _ => (0, 0, 0)) = (32, 32, 1) := by decide +kernel

/-- BulkTransfers, BulkLineSent (R232, R233): 256 bytes from 0x30000 to offset 0x100 of die 0; a bad and an empty descriptor. -/
def bulked : State := regs [(1, 0x100), (2, 0x30000), (4, BitVec.ofNat 64 (256 * 2 ^ 24)), (5, BitVec.allOnes 64)]
theorem test_bulk_premises : bulkBad (256 * 2 ^ 24) (parseBulk (256 * 2 ^ 24)) = false ∧ bulkBad (2 ^ 16) (parseBulk (2 ^ 16)) = true ∧
    bulkPeers (parseBulk (256 * 2 ^ 24)) = [0] ∧ ((after (.rbulk 1 2 2 1) bulked).remotes.map fun r => (r.pkt.addr.toNat, r.pkt.body.length)) =
      [(0x100, 128), (0x180, 128)] ∧ (after (.rbulk 1 2 2 1) bulked).remotePending 1 = true ∧ bulked.remotePending 1 = false := by decide +kernel
/-- A line still to be sent: with room, to a die that is reached and to one that is fenced, its source clean and poisoned. -/
def packet : Packet := { kind := 2, op := 0, dpkg := 0, ddie := 0, relayed := false, spkg := 0, sdie := 0, stream := 0, fabid := 0, scount := 0, addr := 0x100, ext := 0 }
def lineLeft : State := { base with
  nextId := 2
  work := [{ id := 1, group := 1, ctx := 0, die := 0, flag := some 0, kind := .bulk [([(0x30000, 128)], packet)] 2 0 }] }
theorem test_line_sent_premises : lineLeft.room 0 0 0 1 = true ∧ lineLeft.reachable 0 0 = true ∧ lineLeft.holding = false ∧
    lineLeft.runHeld noCore 0x30000 128 = false ∧ lineLeft.poisonedAt 0x30000 128 = false ∧
    ({ lineLeft with fenced := [.die 0] } : State).reachable 0 0 = false ∧
    ({ lineLeft with poisoned := [0x30040] } : State).poisonedAt 0x30000 128 = true ∧
    ((State.pump 1 1 lineLeft).remotes.map (·.pkt.addr)) = [0x100] := by decide +kernel

/-- A row that another core holds, of the line's source. -/
theorem test_held_premises (r : Row) (h : r = { core := 96, stack := frameStack 0x30000, row := Config.rowOf 0x30000, since := 0 }) :
    ({ lineLeft with rows := [r] } : State).rowHeld noCore 0x30000 = true := by
  subst h; simp [State.rowHeld, noCore]

/-- Records (R209, R339): a table of four records at 0x30000 of which id 1 is allocated with EPOCH 1, bound to slot 0 of core 0 with the
partials of one value. -/
def recorded : State :=
  let s := bytesAt 0x30108 8 1 (bytesAt 0x30102 1 1 (regs [(1, 0), (2, 1), (3, 0x2200)]))
  { s with
    ctxs := [{ fqlen := 8, shsize := 0x10000, shbase := 0x30000, wmtab := 0x30004 }]
    cores := [{ ix := 0, slotCtx := some 0, slots := (Vector.replicate 8 {}).set 0 { id := 1, epoch := 1, stats := { total := 1 } } }] }
theorem test_record_naming_premises : (recorded.ctx 0).wmtab.toNat % 2 ^ 16 = 4 ∧ ok (recorded.recordAt 1 11) (fun _ => true) = true ∧
    ok (recorded.recordAt 2 11) (fun _ => true) = false ∧ ok (recorded.recordAt 5 11) (fun _ => true) = false ∧
    (recorded.read 0x30100 4).testBit 16 = true ∧ ({ recorded with tlb := [] } : State).translate 0 0 0x30100 = .absent := by decide +kernel
/-- WatermarkSlots (R211, R212): slot 0 has partials, slot 1 is free; room in the stream; a bound slot. -/
theorem test_slot_premises : recorded.cur.clean [1, 2, 3] ∧ recorded.boundId 0 0 0 = 1 ∧ recorded.boundId 0 0 1 = 0 ∧
    (recorded.core 0).slots[(0 : Fin 8)].stats ≠ {} ∧ recorded.slotFlushing 0 0 = false ∧ recorded.room 0 0 6 1 = true ∧
    recorded.slotsReady 0 0 = true ∧ recorded.cur.lq = [] ∧ recorded.flushing 1 = false ∧
    (after (.wmflush 2 1) recorded).work.length = 1 ∧ (after (.wmflush 2 1) recorded).flushing 1 = true ∧
    (after (.wmbind 2 2) recorded).boundId 0 0 1 = 1 := by decide +kernel
/-- WatermarkReads, WatermarkCloses (R213-R215): descriptors inside and outside; the record's bytes lie together. -/
theorem test_record_read_premises : (let q := (recorded.rs 3).toNat / 2 ^ 8 % 2 ^ 8; 0x20 ≤ q ∧ q ≤ 0x23) ∧ (recorded.rs 3).toNat < 2 ^ 16 ∧
    (exec (.wmrd 4 2 1) recorded matches .next _) ∧ (exec (.wmscale 4 2 3) recorded matches .next _) ∧ recorded.memOk ∧
    recorded.recordKey 0 1 0 = some 0x30100 ∧ recorded.recordKey 0 1 255 = some 0x301FF ∧ recorded.hasRoom 1 ∧
    (after (.wmclose 2 0) recorded).read 0x30108 8 = 2 := by decide +kernel
/-- FittedScale (R207): 127 fits Q8 with the scale 1.0. -/
theorem test_fit_premises : fitScale false 127 127 0 = 0x3F80 ∧ fitScale true 127 127 0 = 0x3F80 := by decide +kernel

/-- QuantiseTile (R206): two rows of two FP32 values at 0x30000, Q8, row-blocked, the scale 1.0 given, to 0x30400. -/
def tiled : State := bytesAt 0x30000 4 0x40000000 (regs [(1, 0x30400), (2, 0x30000), (4, BitVec.ofNat 64 (2 + 8 * 2 ^ 16 + 8 * 2 ^ 32)),
  (5, BitVec.ofNat 64 (0x22 + 2 ^ 9 + 0x3F80 * 2 ^ 24))])
theorem test_quantise_premises : (parseQ (tiled.rs 4) (tiled.rs 5)).bad (tiled.rs 4) (tiled.rs 5) = false ∧ tiled.cur.clean [1, 2, pairLo 2, pairHi 2] ∧
    (parseQ (tiled.rs 4) (tiled.rs 5)).overlap 0x30400 = false ∧ scaleBad 0x3F80 = false ∧ tiled.hasRoom 1 ∧
    (after (.qtile 1 2 2 1) tiled).work.length = 1 := by decide +kernel
/-- R206, R46: the code of 2.0 under the scale 1.0 is 2, in the block's first data byte (offset 128). -/
theorem test_quantise_bytes : (match exec (.qtileComplete 1) (after (.qtile 1 2 2 1) tiled) with
    | .next t => (t.read 0x30480 1, t.read 0x30400 1, t.work.length) | _ => (0, 0, 9)) = (2, 0x22, 0) := by decide +kernel

/-! ## Lane memory -/

/-- The started clause with record b2 (rec0: four elements of 8 bytes at 0x30000) and the threads' indices in v1. -/
def laneRec (oob wr : Nat) (idx : Word32) : State :=
  started.setCur { started.cur.wv 1 0xFFFFFFFF (fun _ => idx) with b := started.cur.b.set 2 (rec0 oob wr) }
/-- RecordAddresses (R159): index 3 is inside, 4 is not; a swizzle of each kind. -/
theorem test_record_address : recOutside (rec0 0 1) 3 8 = false ∧ recOutside (rec0 0 1) 4 1 = true ∧ swizzle 1 0x80 = 0x90 ∧
    swizzle 2 0x400 = 0x480 ∧ swizzle 3 0x10 = 0x10 := by decide
/-- RecordAccess, PartialAccess (R160-R162): every form good; outside with and without zero fill; no WR; a page that is absent. -/
theorem test_access_premises : (laneRec 0 1 1).laneGood 0xC0 { ty := 0, d := 3, a := 1, x := 2 } ∧
    (laneRec 0 1 1).laneGood 0xC1 { ty := 0, a := 1, b := 3, x := 2 } ∧ (laneRec 0 1 1).laneGood 0xC4 { ty := 1, d := 3, a := 1, b := 4, x := 2 } ∧
    (laneRec 0 1 1).acquiring 1 = false ∧ recBad (rec0 0 1) = false ∧ recVa (rec0 0 1) 1 % 4 = 0 ∧ recWr (rec0 0 1) = true ∧
    (exec (.ld { ty := 0, d := 3, a := 1, x := 2 }) (laneRec 0 1 1) matches .next _) ∧
    (after (.ld { ty := 0, d := 3, a := 1, x := 2 }) (laneRec 0 1 1)).work.length = 1 ∧
    (match (laneRec 0 1 1).lineAt started.cur.place 0 .write 0x30008 with | .good _ => true | _ => false) = true ∧
    (after (.ld { ty := 0, d := 3, a := 1, x := 2 }) { laneRec 0 1 1 with tlb := [page 0x10000, page 0x20000] }).work = [] := by decide +kernel
/-- ScratchpadAccess (R168): inside, at the edge, misaligned. -/
theorem test_pad_premises : started.laneGood 0xC2 { ty := 0, d := 3, a := 1, x := 0 } ∧ started.laneGood 0xC6 { ty := 1, a := 1, b := 3, x := 1 } ∧
    started.windowSize started.cur 0 = 256 ∧ ¬ 256 < 252 + 4 ∧ 256 < 256 + 4 ∧ 2 % 4 ≠ 0 := by decide +kernel
/-- LaneMemoryComplete (R162, R164): a store of one active thread and its landing. -/
def storing : State := after (.sts { ty := 0, a := 1, b := 3, x := 0, pg := 2 }) (started.setCur ((started.cur.wv 3 1 fun _ => 0xA5).wp 2 1))
theorem test_lane_complete_premises : storing.work.length = 1 ∧ storing.memOk ∧ storing.rows = [] ∧ storing.poisoned = [] ∧ storing.badBeaters = [] ∧
    storing.bursts = [] ∧ (storing.work.all fun w => match w.kind with | .laneMem op x accs _ _ => !storing.laneBehind w op x accs && op == 0xC3 | _ => false) = true ∧
    (match exec (.laneMemoryComplete (storing.nextId - 1)) storing with | .next t => (t.work.length, t.read (started.windowKey started.cur 0 0) 4) | _ => (9, 0)) =
      (0, 0xA5) := by decide +kernel
/-- HostAtomics (R172): an ADD of one thread on a system-atomic page waits for the host. -/
def hosting : State := let s := (laneRec 0 1 1).setCur { (laneRec 0 1 1).cur.wp 2 1 with v := (laneRec 0 1 1).cur.v.set 4 (Vector.replicate 32 5) }
  after (.atom { ty := 1, d := 3, a := 1, b := 4, x := 2, pg := 2 }) { s with tlb := [page 0x10000, page 0x20000, { page 0x30000 with hm := true, sa := true }] }
theorem test_host_atomic_premises : (hosting.work.map fun w => match w.kind with | .hostAtomic _ acc reqs zero _ => (acc.length, reqs.map (·.length), zero) | _ => (9, [], 0)) =
    [(0, [1], 0)] ∧ hosting.hostOut.length = 1 := by decide +kernel

/-! ## Groups' ends, faults and pages -/

/-- GroupEnds (R112): a group in EXIT with nothing left; one with a clause queued is not done; NMRUN work of 128 bytes with its arrival word. -/
def exiting : State := base.setCur { group with wait := .exit }
theorem test_group_end_premises : exiting.group 1 = some exiting.cur ∧ exiting.residentRuns exiting.cur = true ∧ exiting.remotePending 1 = false ∧
    (exiting.teamOf exiting.cur).key = exiting.cur.team ∧ (∀ f : Fin 12, exiting.cur.f[f] = 0) ∧ queued.cur.lq ≠ [] ∧
    (after (.groupEnd 1) exiting).teams = [] ∧ (after (.groupEnd 1) exiting).group 1 = none := by decide +kernel

/-- FaultRecords (R256, R404): a stopped group whose queue stands at 0x30000, no slot in use; a record held back, its time come and not. -/
def stopped : State := { base.setCur { group with stop := .faulted { cause := causeAlign, slot := 10 } 0 } with
  ctxs := [{ fqbase := 0x30000, fqlen := 8 }] }
theorem test_fault_record_premises : stopped.settled 1 = true ∧ stopped.cur.wait.goesOn = false ∧ stopped.translate 0 0 0x30000 = .leaf (page 0x30000) ∧
    (match walkFrom stopped 0 0 0x30000 walkLevels 0 with | .zero _ => true | _ => false) = false ∧ (stopped.launchOf stopped.cur).stopped = false ∧
    ((after (.faultRecordWrite 1) stopped).read 0x30000 1 = causeAlign) ∧
    ({ stopped with launches := [{ base.launches.headD {} with faulted := some 1 }] } : State).launches.all (·.stopped) = true := by decide +kernel
def heldBack (at_ : Nat) : State := { base with ns := 5, ctxs := [{ fqbase := 0x30000, fqlen := 8, held := [(1, 0, List.replicate 64 7, true)], fqhold := some at_ }] }
theorem test_queue_retry_premises : (after (.faultQueueRetry 0) (heldBack 5)).read 0x30000 1 = 7 ∧ (heldBack 6).ns < 6 ∧ (List.replicate 64 (7 : Byte)).length = 64 ∧
    (heldBack 5).launches.any (fun l => l.key == 0 && !l.stopped) = true := by decide +kernel
/-- Watchdog (R264): the one group waits in QTAKE and the limit has passed. -/
def barking : State := { base.setCur { group with wait := .qtake } with
  now := 9, ctxs := [{ wdog := 4, fqbase := 0x30000, fqlen := 8 }], teams := base.teams.map fun t => { t with stuckSince := some 5 } }
theorem test_watchdog_premises : barking.stuck (barking.team 0) = true ∧ 5 + 4 ≤ barking.now ∧ Wait.counted .qtake = some 3 ∧ barking.cur.lq = [] ∧
    barking.settled 1 = true ∧ (after (.watchdog 0) barking).faultSeq = 1 ∧ ((barking.groups.filter (·.live)).map (·.key)).Nodup := by decide +kernel

/-- PageRequests (R330, R360): a parked group with its merge entry, queued; the allowance open and closed; a response that names it. -/
def parking : State := { base.setCur { group with stop := .parked [0x50000] { cause := causePage } 0, tmask := 3 } with
  allowance := 4, prgQueue := [(0, 7)], merges := [{ die := 0, ctx := 0, granule := 0x50000, write := false, group := 7 }] }
theorem test_page_request_premises : parking.nextGroup 0 = some 7 ∧ base.nextGroup 0 = none ∧ parking.allowed 0 = true ∧
    ({ parking with allowance := 0 } : State).allowed 0 = false ∧ (parking.prgIndex 7).isSome = true ∧
    (after (.pageRequestSend 0) parking).prgOut.length = 1 ∧
    (let s := after (.pageRequestSend 0) parking; s.prgOut.all fun p => p.group == 7 && p.pasid == 0) = true := by decide +kernel
/-- PagesFilled (R329, R334): a leaf whose frame is to be zeroed; a sealed page of die 1 and room for a replica. -/
theorem test_zero_premises : (match walkFrom (table 0x103) 0 0 0x50000 walkLevels 0 with | .zero p => p == 0x50000 | _ => false) = true ∧
    (zaWalk (table 0x103) 0x50000 walkLevels 0).map (fun q => (q.1, q.2.1, q.2.2)) = some (0x8050, 0x50103, 16) ∧ entryAddr 0x50103 = 0x50000 ∧
    (0x50103 : Nat).testBit 8 = true := by decide +kernel
def sealedAway : State := { base with tlb := [{ page 0x30000 with sealed := true, pa := 2 ^ 37 + 0x30000 }] }
theorem test_replica_premises : (match sealedAway.translate 0 0 0x30000 with | .leaf l => l.sealed && !l.hm && l.pa / 2 ^ 37 == 1 | _ => false) = true ∧
    (0 + 1) * 2 ^ 16 ≤ sealedAway.params.replicaGiB * 2 ^ 30 ∧ (after (.replicaFill 0 0 0x30000) sealedAway).replicas.length = 1 := by decide +kernel
/-- AddressTranslationService (R361): work of a context with the PASID; an invalidation that waits and one that is ready. -/
theorem test_ats_premises : (base.ctxPasid[(0 : Fin 64)].toNat % 2 ^ 20 = 0) ∧ (0 : Nat) ≤ 4095 ∧ (after (.tmova 1 2 2 1) copying).work.all (fun w => w.ctx == 0) = true ∧
    (after (.atsInvalidate 0 0x1000 64) (after (.tmova 1 2 2 1) copying)).atsWaits = [(0, 0x1000, [1])] := by decide +kernel

/-! ## The host port and the queues -/

/-- HostRegisters, Aperture (R356, R357): no access waits; a context's number free; offsets without a writable field; a log entry held. -/
theorem test_register_premises : base.hostPending = [] ∧ base.hasCtx 0 = true ∧ base.hasCtx 1 = false ∧ (base.queue 3).en = false ∧
    ({ base with queues := [{ q := 3, en := true }] } : State).queue 3 = { q := 3, en := true } ∧ base.evHeld = [] ∧
    ({ base with evHeld := [{ kind := 1 }] } : State).evHeld = [{ kind := 1 }] ∧ base.bar2Log = 30 ∧ base.bar2win = 0 ∧
    base.runHeld 224 0x30000 8 = false ∧ 2 ^ 40 < (2 ^ 40 - 4) + 8 := by decide +kernel
/-- ParameterBlock (R394): a block at host address 0 whose header is good, one that is not; contexts and none. -/
def loading : State := { base with ctxs := [], mem := writeCells [] (hostKey 0) (leBytes 16 (0x4D524150 + 1 * 2 ^ 32 + 192 * 2 ^ 96)) }
theorem test_parameter_premises : loading.ctxs = [] ∧ base.ctxs ≠ [] ∧ (let h := loading.read (hostKey 0) 16;
      bits h 31 0 = 0x4D524150 ∧ bits h 47 32 = 1 ∧ bits h 63 48 = 0 ∧ bits h 127 96 = 192) ∧ bits (base.read (hostKey 0) 16) 31 0 ≠ 0x4D524150 := by decide +kernel
/-- A queue of one entry at host address 0x1000: its operation and LEN, and its payload from byte 24. -/
def entry (op payload : Nat) : State := { base with
  queues := [{ q := 0, base := 0x1000, comp := 0x2000, en := true, tail := 1, appended := 1 }]
  mem := writeCells base.mem (hostKey 0x1000) (leBytes 128 (op + 2 ^ 8 + payload * 2 ^ 192)) }
def reads (op payload : Nat) (p : EntryRef → Instr) : Bool := match (entry op payload).nextEntry 0 with
  | some h => h.ref == { queue := 0, n := 1, notify := false, status := 0 } && (h.cmd == some (p h.ref)) | none => false
/-- QueueRegisters, CommandOrder, EntryCompletion (R298-R302): an enabled queue with an entry, a disabled one; each command's block (R303). -/
theorem test_queue_premises : (entry 3 0).queue 0 = { q := 0, base := 0x1000, comp := 0x2000, en := true, tail := 1, appended := 1 } ∧
    (base.queue 0).en = false ∧ base.nextEntry 0 = none ∧ ((1 : BitVec 32) - 0).toNat < 2 ^ 31 ∧ ((entry 0x40 0).nextEntry 0).map (·.cmd.isNone) = some true := by
  decide +kernel
theorem test_signal_entry : reads 3 0x3000 (fun e => .signal e 0x3000 0 false) = true := by decide +kernel
theorem test_wait_entry : reads 4 (0x3000 + 5 * 2 ^ 64) (fun e => .wait e 0x3000 5) = true := by decide +kernel
theorem test_copy_entry : reads 2 (0x30000 + 0x30100 * 2 ^ 64 + 16 * 2 ^ 128) (fun e => .copy e 0x30000 0x30100 16 0) = true := by decide +kernel
theorem test_destroy_entry : reads 0x11 0 (fun e => .ctxdestroy e 0) = true := by decide +kernel
theorem test_malloc_entry : reads 0x12 (2 * 2 ^ 64) (fun e => .wmalloc e 0 2 0) = true := by decide +kernel
theorem test_free_entry : reads 0x13 (1 * 2 ^ 64 + 1 * 2 ^ 128) (fun e => .wmfree e 0 1 1) = true := by decide +kernel
theorem test_invalidate_entry : reads 0x14 (0x30000 * 2 ^ 64 + 0x10000 * 2 ^ 128) (fun e => .tlbinv e 0 0x30000 0x10000) = true := by decide +kernel
theorem test_calload_entry : reads 0x20 0x4000 (fun e => .calload e 0x4000) = true := by decide +kernel
theorem test_health_entry : reads 0x21 0x4000 (fun e => .health e 0x4000) = true := by decide +kernel
theorem test_retry_entry : reads 0x30 (1 * 2 ^ 64) (fun e => .retry e 0 1) = true := by decide +kernel
theorem test_terminate_entry : reads 0x31 (1 * 2 ^ 64) (fun e => .terminate e 0 1) = true := by decide +kernel
theorem test_release_entry : reads 0x32 0 (fun e => .release e 0 0) = true := by decide +kernel
theorem test_launch_entry : ((entry 1 (0x30000 + 2 ^ 128 + 2 ^ 160)).nextEntry 0).map (fun h => match h.cmd with | some (.launch _ _) => true | _ => false) = some true := by
  decide +kernel
theorem test_block_body : let b := ofLeBytes (readCells loading.mem (hostKey 0) 192)
    blockBodyBad b 192 = false ∧ blockBodyBad (b + 2 ^ 512) 192 = true := by decide +kernel
/-- SignalAndWait, WaitSatisfied (R303): a word below and at the value; a queue that a WAIT holds. -/
theorem test_wait_premises : (entry 4 (0x3000 + 5 * 2 ^ 64)).read (hostKey 0x3000) 8 < 5 ∧ (0 : Word).toNat ≤ (entry 4 0x3000).read (hostKey 0x3000) 8 ∧
    ((after (.wait { queue := 0, n := 1, notify := false, status := 0 } 0x3000 5) (entry 4 (0x3000 + 5 * 2 ^ 64))).queue 0).waiting =
      some ({ queue := 0, n := 1, notify := false, status := 0 }, 0x3000, 5) ∧
    ((after (.wait { queue := 0, n := 1, notify := false, status := 0 } 0x3000 0) (entry 4 0x3000)).queue 0).counted = 1 := by decide +kernel
/-- EntryCompletion (R301): the entry started, with a status record. -/
def one : EntryRef := { queue := 0, n := 1, notify := false, status := 0 }
theorem test_completion_premises : ((entry 3 0x3000).startEntry { addr := 0x1000, ref := one, cmd := none }).queues.map (fun q => (q.started, q.counted, q.open_.length)) =
    [(1, 0, 1)] ∧ (after (.signal one 0x3000 0 false) (entry 3 0x3000)).read (hostKey 0x2000) 8 = 1 := by decide +kernel
/-- Contexts (R305, R306): a payload with a valid PASID, one without, a number in use; a context to destroy, and one that is being destroyed. -/
def payload : CtxPayload := { ptroot := 0, shbase := 0, shsize := 0, wmtab := 0, fqbase := 0, fqlen := 1, ctx := 1, debug := false, wdog := 0, fabid := 0, savebase := 0, savesize := 0 }
theorem test_context_premises : ({ base with ctxPasid := base.ctxPasid.set 1 0x80000005 } : State).ctxPasid[(1 : Fin 64)].getLsbD 31 = true ∧
    base.ctxPasid[(1 : Fin 64)].getLsbD 31 = false ∧ base.hasCtx 0 = true ∧ tablePages payload.wmtab = [] ∧ (base.ctx 0).destroying = none ∧
    (after (.ctxdestroy one 0) (entry 0x11 0)).waitsOf one (.ctxdestroy one 0) = some [] ∧
    ((after (.ctxdestroy one 0) (entry 0x11 0)).ctx 0).destroying = some one ∧ (after (.ctxdestroy one 0) (entry 0x11 0)).nextEntry 0 = none ∧
    (after (.ctxdestroy one 0) (entry 0x11 0)).ctxBusy 0 = true ∧
    ({ after (.ctxdestroy one 0) (entry 0x11 0) with launches := [], teams := [], cur := {} } : State).ctxBusy 0 = false := by decide +kernel
/-- CopyCommand (R303): both pages there; the destination a page of code, one that is sealed, one that is absent. -/
theorem test_copy_premises : let s := entry 2 (0x30000 + 0x30100 * 2 ^ 64 + 16 * 2 ^ 128)
    s.translate 0 0 0x30000 = .leaf (page 0x30000) ∧ s.codePage 0 0x30100 = false ∧ s.codePage 0 0x10000 = true ∧ s.translate 0 0 0x50000 = .absent ∧
    (s.ctx 0).failed = none ∧ 0x30000 % 2 ^ 16 + 16 ≤ 2 ^ 16 ∧ s.zeroFrame 0 0x30000 = s ∧
    ((after (.copy one 0x30000 0x30100 16 0) s).queue 0).counted = 1 := by decide +kernel
/-- RecordAllocation, RecordRelease (R340, R341): a free run from id 2; id 1 allocated and bound; the records lie together. -/
def records (op p : Nat) : State := { recorded with queues := (entry op p).queues, mem := writeCells recorded.mem (hostKey 0x1000) (leBytes 128 (op + 2 ^ 8 + p * 2 ^ 192)) }
theorem test_allocation_premises : let s := records 0x12 (2 * 2 ^ 64)
    s.recordFree 0 1 = false ∧ s.recordFree 0 2 = true ∧ s.recordFree 0 3 = true ∧ s.recordKey 0 2 0 = some 0x30200 ∧ s.recordKey 0 3 0 = some 0x30300 ∧
    (after (.wmalloc one 0 2 0) s).read 0x30200 2 = 2 ∧ (after (.wmalloc one 0 2 0) s).read 0x30308 8 = 1 := by decide +kernel
theorem test_release_premises : let s := records 0x13 (1 * 2 ^ 64 + 1 * 2 ^ 128)
    s.hasCtx 0 = true ∧ 1 + 1 - 1 ≤ 4 ∧ 1 ∉ (s.ctx 0).freeing ∧ (s.core 0).slots[(0 : Fin 8)].id = 1 ∧
    (let t := after (.wmfree one 0 1 1) s; t.waitsOf one (.wmfree one 0 1 1) = some [] ∧ t.nextEntry 0 = none ∧ 1 ∈ (t.ctx 0).freeing ∧ (t.core 0).slots[(0 : Fin 8)] = {} ∧ t.remotes = [] ∧
      (after (.wmfree one 0 1 1) t).read 0x30100 256 = 0) := by decide +kernel
/-- TranslationInvalidation (R328): the range of a cached page, with no work that uses it, and with a copy under way. -/
theorem test_invalidation_premises : let t := after (.tlbinv one 0 0x30000 0x10000) (entry 0x14 (0x30000 * 2 ^ 64 + 0x10000 * 2 ^ 128))
    t.tlb.length = 2 ∧ t.waitsOf one (.tlbinv one 0 0x30000 0x10000) = some [] ∧ t.nextEntry 0 = none ∧ t.work = [] ∧
    ((after (.tlbinv one 0 0x30000 0x10000) t).queue 0).counted = 1 := by decide +kernel

/-! ## Launches -/

/-- An object at 0x30000 (R307): .scode at 0x10000 of 256 bytes, .lcode of one clause, one kernel at 0x100 with one stage at 0x200. -/
def objHead : Nat := 0x52504F4A + 2 ^ 32 + 2 ^ 48 + 0x10000 * 2 ^ 64 + 0x10000 * 2 ^ 128 + 0x100 * 2 ^ 192 + 0x10000 * 2 ^ 256 + 24 * 2 ^ 320 + 0x100 * 2 ^ 512 + 0x200 * 2 ^ 576 + 16 * 2 ^ 640
def objKernel : Nat := 1 * 2 ^ 32 + 1 * 2 ^ 40
def objStage : Nat := 1 * 2 ^ 48 + 1 * 2 ^ 64 + 1 * 2 ^ 80
def object (stage : Nat) : State := bytesAt 0x30200 16 stage (bytesAt 0x30100 64 objKernel (bytesAt 0x30000 128 objHead base))
def launching : LaunchPayload := { obj := 0x30000, args := 0, teams := 1, dieMask := 1, ctx := 0, coop := false, idem := false, place := false, layout := 0, mxuse := 0, kidx := 0 }
theorem test_object_premises : headerBad 0x30000 objHead = false ∧ kernelBad objHead objKernel = false ∧
    (match ((object objStage).loadKernel 0 launching).2 with | .ok k => (k.image, k.ssize, k.groups, k.stages.length) | .error n => (n, 0, 0, 0)) = (0x10000, 0x100, 1, 1) ∧
    (match ((object (objStage - 2 ^ 64)).loadKernel 0 launching).2 with | .ok _ => 0 | .error n => n) = 7 ∧
    (match (base.loadKernel 0 launching).2 with | .ok _ => 0 | .error n => n) = 2 := by decide +kernel
/-- LaunchRefused, LaunchStarts (R304, R309): the entry of the launch; no context, no die, a fenced die; the launch starts. -/
def launchable : State := { object objStage with
  queues := (entry 1 0).queues
  mem := writeCells (object objStage).mem (hostKey 0x1000) (leBytes 128 (1 + 2 ^ 8 + (0x30000 + 2 ^ 128 + 2 ^ 160) * 2 ^ 192)) }
theorem test_launch_premises : launchable.hasCtx 0 = true ∧ (launchable.ctx 0).destroying = none ∧ (launchable.ctx 0).failed = none ∧ UnitRef.die 0 ∉ launchable.fenced ∧
    UnitRef.die 0 ∈ ({ launchable with fenced := [.die 0] } : State).fenced ∧
    (after (.launch one launching) launchable).launches.length = 2 ∧
    ((after (.launch one launching) launchable).launches.getLast?.map fun l => (l.ssize, l.assigned[(0 : Fin 8)])) = some (0x100, 1) := by decide +kernel
/-- LaunchEnds (R302): nothing left to run; a lost launch at rest and one with a group under way. -/
def ending : State := { entry 1 0 with
  teams := []
  cur := {}
  queues := [{ q := 0, base := 0x1000, comp := 0x2000, en := true, appended := 1, started := 1, open_ := [{ ref := one }] }]
  launches := [{ entry := some one, stages := [{}] }] }
theorem test_launch_end_premises : ending.launches.find? (fun x => x.key == 0) = some { entry := some one, stages := [{}] } ∧ ending.nmrunsOf 0 = [] ∧
    ((after (.launchEnd 0) ending).queue 0).counted = 1 ∧ ending.launchAtRest { entry := some one, stages := [{}], lost := some 3 } = true ∧
    ({ base with work := [{ id := 1, group := 1, kind := .copy [] none 0 0 }] } : State).launchAtRest (base.launch 0) = false := by decide +kernel
/-- FirstDenial (R302). -/
theorem test_denial_premises : ({ denials := [(1, 0, 0, 5), (0, 3, 1, 7), (0, 3, 0, 9)] } : Launch).firstDenial = 9 := by decide
/-- StoppedAnswers (R261): a recorded group and one at BRK, the entries naming them. -/
def answered (op p : Nat) (st : Stop) : State := { entry op p with cur := { group with stop := st } }
theorem test_answer_premises : ((after (.retry one 0 1) (answered 0x30 (1 * 2 ^ 64) (.recorded 1 { cause := causeAlign } 0))).cur.stop = .running) ∧
    ((after (.terminate one 0 1) (answered 0x31 (1 * 2 ^ 64) (.recorded 1 { cause := causeAlign } 0))).launch 0).faulted = some 1 ∧
    (after (.release one 0 (base.unitOf group.place)) (answered 0x32 ((base.unitOf group.place).toNat * 2 ^ 64) (.brk 5))).cur.spc = 0x10004 ∧
    (answered 0x31 (1 * 2 ^ 64) .running).groups.all (fun g => g.stop == .running) = true := by decide +kernel

/-! ## Teams -/

/-- One team that waits, on a machine with nothing else on it; another of a lower priority that is resident. -/
def low : Team := { key := 2, launch := 1, status := .resident, cluster := 0, unitCores := [0] }
def waitingWith (ts : List Team) : State := { base with
  cur := {}
  teams := { key := 1, status := .waiting 0 } :: ts
  launches := [{ scode := 0x10000, ssize := 0x100, stages := [{ max := 1, mxuse := 1 }], prio := 1, dieMask := 1 }, { key := 1, stages := [{ max := 1 }], idem := true }] }
def waiter : Team := { key := 1, status := .waiting 0 }
/-- TeamPlaced, PlacementOrder, ServedFirst (R245, R310): the team is offered, fits and is first; one locked out by an urgent team. -/
theorem test_place_premises : (waitingWith []).offers 0 = [waiter] ∧ waiter.isSaved = false ∧ waiter.isWaiting = true ∧ ((waitingWith []).tryPlace waiter).isSome = true ∧
    (waitingWith []).returning 0 = [] ∧ ((waitingWith []).teams.all fun t => t.victim != .flush) = true ∧ (after (.teamPlace 0) (waitingWith [])).others.length = 1 := by
  decide +kernel
theorem test_place_drain : (waitingWith []).drainFor waiter = waitingWith [] := by decide +kernel
/-- PlacementTimes (R310, R315, R317): each status and each victim's order, before and after its time. -/
def timed (st : TeamStatus) (v : Victim) (now : Nat) : State := { waitingWith [] with teams := [{ key := 1, status := st, victim := v }], now := now }
theorem test_time_premises : ((after (.placementWaitExpiry 1) (timed (.waiting 0) .none (2 ^ 20))).teams.map (·.urgent)) = [true] ∧
    ((after (.placementWaitExpiry 1) (timed (.saved false) .none (2 ^ 20))).teams.map (·.urgent)) = [true] ∧
    ((after (.savePointTimeout 1) (timed .resident (.save 0 false) 65536)).teams.map (·.victim)) = [.save 0 true] ∧
    ((after (.drainBudgetExpiry 1) (timed .resident (.drain 0) 5)).teams.map (·.victim)) = [.drainFree] ∧
    (timed .resident (.drain 0) 5).saveRoom [{ key := 1, status := .resident, victim := .drain 0 }] = false := by decide +kernel
/-- A context with a save area of 2^30 bytes. -/
theorem test_drain_saves : (match (after (.drainBudgetExpiry 1) { timed .resident (.drain 0) 5 with
    tlb := [{ page 0 with va := 2 ^ 30, size := 30, pa := 0 }], ctxs := [{ savebase := 2 ^ 30, savesize := 2 ^ 30 }] }).teams.map (·.victim) with
    | [.save 5 false] => true | _ => false) = true := by decide +kernel
/-- StageArbiter (R311): a stage queue of depth 4 over three quarters full, one that is empty, one that is closed. -/
def arbited (ts : List Word) : State := { waitingWith [] with now := 1024, teams := [], launches := [{ stages := [{ max := 1, depth := 4 }, { min := 1, max := 3 }], dieMask := 1, queues := [{ die := 0, q := 0, tokens := ts }] }] }
theorem test_arbiter_premises : ((after (.stageArbiter 0) (arbited [1, 2, 3, 4])).launches.map fun l => (l.queueAt 0 0).target) = [2] ∧
    ((after (.stageArbiter 0) (arbited [1, 2, 3, 4])).teams.map (·.stage)) = [1, 1] ∧
    ((after (.stageArbiter 0) (arbited [1])).launches.map fun l => (l.queueAt 0 0).target) = [1] ∧
    (arbited []).queueClosed ((arbited []).launch 0) 0 0 = true ∧ (arbited []).now / 1024 = 1 ∧ (arbited []).arbiters[(0 : Fin 8)] = 0 ∧
    (after (.stageArbiter 0) { arbited [1, 2, 3, 4] with now := 1023 }).arbiters[(0 : Fin 8)] = 0 := by decide +kernel
/-- TeamFlushed (R314): a victim to flush, settled. -/
def flushing : State := { base with teams := base.teams.map fun t => { t with victim := .flush } }
theorem test_flush_premises : (flushing.teams.all fun t => t.status == .resident && t.victim == .flush && flushing.teamSettled t) = true ∧
    ((flushing.flushTeam (flushing.team 0)).teams.map (·.status)) = [.waiting 0] := by decide +kernel
/-- VictimChoice, VictimsTaken (R310, R317): the resident team of a core that the waiting team needs; every choice. -/
theorem test_victims_premises : (match (waitingWith [low]).choice ((waitingWith [low]).launch 1) [low] low with | .drainFree => true | _ => false) = true ∧
    (match ({ waitingWith [low] with launches := [{}, { key := 1, idem := true, stages := [{ expect := 4 }] }] } : State).choice
        { key := 1, idem := true, stages := [{ expect := 4 }] } [low] low with | .flush => true | _ => false) = true ∧
    (match ({ waitingWith [low] with launches := [{}, { key := 1, stages := [{ expect := 4 }] }] } : State).choice
        { key := 1, stages := [{ expect := 4 }] } [low] low with | .drain _ => true | _ => false) = true := by decide +kernel
/-- Every core of the die taken by teams of the lower priority: as few as will do are told. -/
def crowd : List Team := (List.range 3).map fun c => { low with key := 10 + c, cluster := c, unitCores := [4 * c, 4 * c + 1, 4 * c + 2, 4 * c + 3], win := #v[{ base := 0, size := 2 ^ 20 }, {}, {}], placedAt := c }
def crowded : State := { waitingWith crowd with launches := [{ scode := 0x10000, ssize := 0x100, stages := [{ max := 1, mxuse := 1 }], prio := 1, dieMask := 1, deckle := #v[4096, 0, 0] }, { key := 1, idem := true }] }
theorem test_victims_taken : crowded.tryPlace waiter = none ∧ ((crowded.victimsFor [] waiter).map fun vs => vs.map (·.key)) = some [12] ∧ crowded.going = [] ∧
    crowded.heldPads [0] = [] ∧ crowded.fitsWithout [] waiter = false ∧ crowded.offers 0 = [waiter] ∧
    ((after (.teamPlace 0) crowded).teams.map fun t => t.victim == .none) = [true, true, true, false] := by decide +kernel
/-- TeamSaved (R315, R316): a team asked to save whose group waits in QTAKE; a surplus one. -/
def saving (v : Victim) : State := { base.setCur { group with wait := .qtake } with
  teams := base.teams.map fun t => { t with victim := v, area := [{ base := 0, size := 2 ^ 20 }] }
  tlb := [page 0x10000, { page 0 with va := 2 ^ 30, size := 30, pa := 0 }]
  ctxs := [{ savebase := 2 ^ 30, savesize := 2 ^ 30 }] }
theorem test_save_premises : (let s := saving (.save 0 false)
    s.teamSettled (s.team 0) && s.groups.all (fun g => !g.live || s.atSavePoint g false) &&
    ((after (.teamSave 0) s).teams.map (·.status) == [.saved false])) = true := by decide +kernel
def surplusOne : State := { saving .none with
  teams := (saving .none).teams.map fun t => { t with stage := 1, area := [] }
  launches := [{ scode := 0x10000, ssize := 0x100, stages := [{ max := 1, depth := 4 }, { max := 2 }], dieMask := 1, assigned := #v[1, 0, 0, 0, 0, 0, 0, 0], queues := [{ die := 0, q := 0, target := 0 }] }] }
theorem test_park_premises : surplusOne.queueClosed (surplusOne.launch 0) 0 0 = false ∧ surplusOne.saveRoom [surplusOne.team 0] = true ∧
    (surplusOne.areasFor [surplusOne.team 0]).isSome = true ∧ ((after (.teamPark 0) surplusOne).teams.map (·.status)) = [.saved true] := by decide +kernel
/-- TeamRestored (R316): a saved team with its windows held, and being claimed, is first and fits. -/
def restoring (held claiming : List Nat) : State := { saving .none with
  teams := (saving .none).teams.map fun t => { t with status := .saved false, held := held, claiming := claiming, area := [{ base := 0, size := 2 ^ 20 }], arrays := [] }
  launches := [{ scode := 0x10000, ssize := 0x100, lbase := 0x20000, lsize := 24, teams := 1, dieMask := 1, stages := [{ max := 1, mxuse := 1 }], deckle := #v[256, 256, 256] }] }
theorem test_restore_premises : (restoring [0, 1, 2] []).offers 0 = [(restoring [0, 1, 2] []).team 0] ∧ ((restoring [0, 1, 2] []).fitSaved [] ((restoring [0, 1, 2] []).team 0)).isSome = true ∧
    (match (restoring [0, 1, 2] []).fitSaved [] ((restoring [0, 1, 2] []).team 0) with | some f => (restoring [0, 1, 2] []).fitReady ((restoring [0, 1, 2] []).team 0) f | none => false) = true ∧
    ((after (.teamRestore 0) (restoring [0, 1, 2] [])).teams.map (·.status)) = [.resident] ∧
    ((after (.windowClaim 0) (restoring [0, 1, 2] [1])).teams.map (·.held)) = [[0, 2]] := by decide +kernel

/-! ## Packets -/

/-- A machine whose context 0 has a symmetric heap at 0x30000 in a page that remote writes may reach, and operations to it from die 1. -/
def homed : State := { base with tlb := [page 0x10000, { page 0x30000 with rwr := true }] }
def op (kind code : Nat) (addr value : Word) : Packet := { packet with
  kind := kind, op := code, sdie := 1, addr := addr, ext := if kind = 2 then BitVec.allOnes 64 else 0, value := value
  ty := if kind = 1 then 2 else 0
  body := if kind = 2 then List.replicate 128 1 else [] }
/-- The packet is under way. -/
def sent (p : Packet) (s : State := homed) : State := { s with inflight := [p] }
def isAt (r : Landing) : Bool := match r with | .at _ _ => true | _ => false
def refusal (r : Landing) : Nat := match r with | .refuse n => n | _ => 255
/-- HomeRefusals (R222): good, beyond the heap, without a translation, of the host, homed elsewhere, without RWR, sealed. -/
theorem test_landing_premises : let p := op 1 0xE0 0x100 5; let c := homed.ctx 0; let l := { page 0x30000 with rwr := true }
    isAt (homed.landing p c 0x100 4 true) = true ∧ refusal (homed.landing p c 0x10000 4 true) = 1 ∧ homed.inMotion 0 0x30100 = false ∧
    refusal (({ homed with tlb := [] } : State).landing p c 0x100 4 true) = 2 ∧ refusal (({ homed with tlb := [{ l with hm := true, sa := true }] } : State).landing p c 0x100 4 true) = 9 ∧
    refusal (({ homed with tlb := [{ l with hm := true }] } : State).landing p c 0x100 4 true) = 5 ∧ refusal (({ homed with tlb := [{ l with pa := 2 ^ 37 }] } : State).landing p c 0x100 4 true) = 5 ∧
    refusal (base.landing p c 0x100 4 true) = 3 ∧ refusal (({ homed with tlb := [{ l with sealed := true }] } : State).landing p c 0x100 4 true) = 4 := by decide +kernel
/-- OperationApplied, PacketNotApplied, ReadAnswered (R221): a first copy, another copy, one that is too old, one of no context. -/
theorem test_operation_premises : (sent (op 1 0xE0 0x100 5)).arrives (op 1 0xE0 0x100 5) = true ∧ ((sent (op 1 0xE0 0x100 5)).packetCtx (op 1 0xE0 0x100 5)).map (·.num) = some 0 ∧
    (after (.operationPacket (op 1 0xE0 0x100 5)) (sent (op 1 0xE0 0x100 5))).read 0x30100 4 = 5 ∧
    (after (.operationPacket (op 1 0xE0 0x100 5)) (sent (op 1 0xE0 0x100 5))).acks.length = 1 ∧
    (let t := after (.operationPacket (op 1 0xE0 0x100 5)) (sent (op 1 0xE0 0x100 5)); let u := after (.operationPacket (op 1 0xE0 0x100 5)) (sent (op 1 0xE0 0x100 5) t)
      u.read 0x30100 4 = 5 ∧ u.acks.length = 2 ∧ t.seenAt 0 (op 1 0xE0 0x100 5) = some (some true)) ∧
    ((sent { op 1 0xE0 0x100 5 with ctx := 3 }).packetCtx { op 1 0xE0 0x100 5 with ctx := 3 }).isSome = false ∧ base.arrives (op 1 0xE0 0x100 5) = false ∧
    homed.heldRow 0x30100 4 = false := by decide +kernel
theorem test_old_packet : (let w : HomeWindow := { die := 0, slice := 0, ctx := 0, spkg := 0, sdie := 1, stream := 0, high := 2000 }
    (after (.operationPacket (op 1 0xE0 0x100 5)) (sent (op 1 0xE0 0x100 5) { homed with windows := [w] })).acks.length) = 0 := by decide +kernel
theorem test_read_answered : ((after (.operationPacket { op 1 0xE6 0x100 0 with ty := 0 }) (sent { op 1 0xE6 0x100 0 with ty := 0 })).inflight.map fun q => (q.kind, q.stream, q.ddie)) =
    [(3, 7, 1)] := by decide +kernel
/-- BulkLineApplied (R233): a line of ones, with an arrival word 0x200 behind it. -/
theorem test_bulk_line : (let p := { op 2 1 0x100 0 with ext := 0x200 }; let t := after (.rbulkLine p) (sent p)
    (t.read 0x30100 4, t.read 0x3017C 4, t.acks.length)) = (0x01010101, 0x01010101, 1) := by decide +kernel
/-- FlushMerged (R212): partials for record 1, sent by the flush of the bound slot. -/
theorem test_flush_premises_packet : (let s := after (.wmflush 2 1) { recorded with tlb := [{ page 0x30000 with rwr := true }] }
    match s.inflight with | [p] => (p.kind, s.arrives p, (after (.watermarkFlush p) s).read (0x30100 + 32 + 24) 8 == 1, (s.packetCtx p).isSome) | _ => (0, false, false, false)) =
      (6, true, true, true) := by decide +kernel
/-- DeferredApplied (R353): a packet in a bank's buffer whose row is free. -/
theorem test_deferred_premises : (let p := op 1 0xE0 0x100 5; let s := { homed with deferred := [(0, 3, p)] }
    ((after (.deferredApply 0 3) s).deferred.length, (after (.deferredApply 0 3) s).read 0x30100 4, (s.packetCtx p).isSome)) = (0, 5, true) := by decide +kernel
/-- AnswersReceived, AnswersSent (R220, R372): an operation outstanding on die 1, its denial, its acknowledgement, its time to leave again. -/
def outstanding : State := { homed with
  remotes := [{ id := 7, pkt := { op 1 0xE0 0x100 5 with scount := 4 }, ctx := 0, group := 1, work := 9, sent := 0 }]
  work := [{ id := 9, group := 1, kind := .remote 1 }], ns := 120000 }
def denial : Packet := { op 5 0 0 0 with sdie := 0, ddie := 1, scount := 4, ext := 6 }
def ack : Packet := { op 4 0 0 0 with sdie := 0, ddie := 1, scount := 4, ext := 1 }
theorem test_answer_received : (sent denial outstanding).arrives denial = true ∧ (outstanding.findRemote 0 1 0 4).map (·.id) = some 7 ∧
    (after (.denial denial) (sent denial outstanding)).cur.remstat = { d := true, reason := 6, count := 1, seq := 4 } ∧
    (after (.acknowledgement ack) (sent ack outstanding)).remotes = [] ∧ (after (.acknowledgement ack) (sent ack outstanding)).work = [] ∧
    (after (.retransmit 7) outstanding).inflight.length = 1 ∧ ({ outstanding with ns := 119999 } : State).ns < 0 + 120000 := by decide +kernel
theorem test_ack_premises : (let s := after (.operationPacket (op 1 0xE0 0x100 5)) (sent (op 1 0xE0 0x100 5))
    (((after (.ackSend 0) s).inflight.map fun q => (q.kind, q.ddie, q.ext)), s.acks.length)) = ([(4, 1, 1)], 1) := by decide +kernel
/-- ReadReplied (R228): a reply to a slot behind its block's arrival word. -/
theorem test_reply_premises : (let p := { op 3 0 0x30108 9 with width := 4, ctx := 0, virt := true, ext := 4 }; let s := sent p homed
    (isAt (s.replyKey p 0), s.arrives p, (s.packetCtx p).isSome, (after (.rreadReply p) s).read 0x30108 8)) = (true, true, true, 2 ^ 63 + 9) := by decide +kernel

/-! ## The fabric -/

/-- A calender of two packages of which fibre 0 lights package 1 in every slot, and package 1 heard at once. -/
def cal2 : Calender := { pkgid := 0, domain := 2, calid := 5, out := List.replicate 32 1, inn := List.replicate 32 1 }
def lit : State := { base with cal := some cal2, reach := [{ pkg := 1, dies := 0xFF, heard := 0, reachable := true }] }
def beaconOf (dies : Byte) : Packet := { packet with kind := 7, spkg := 1, ext := 5, body := [1, dies, 0] }
/-- Reachability (R364): a beacon of package 1, under another CALID, and time without one. -/
theorem test_beacon_premises : lit.arrives (beaconOf 0xFF) = true ∧ lit.calid = 5 ∧ lit.holding = false ∧
    ((after (.beacon (beaconOf 3)) lit).reach.map fun r => (r.pkg, r.dies)) = [(1, 3)] ∧
    ((after (.peerUnreachable 1) { lit with ns := 512001 }).reach.map (·.reachable)) = [false] ∧ ¬ 0 + 512000 < ({ lit with ns := 512000 } : State).ns := by decide +kernel
/-- SlotStart, LitFibres (R364, R389): one lit fibre; in a drain; in the dark phase; a fibre that is down. -/
theorem test_slot_start_premises : lit.lit 0 = some 1 ∧ lit.lit 1 = none ∧ lit.slotsDone ≤ lit.slotCount ∧ ((after .slotStart lit).outbox.map (·.kind)) = [7] ∧
    ((after .slotStart { lit with calPhase := .drain 0, calNew := some (cal2, one) }).outbox.map (·.kind)) = [7, 8] ∧
    (after .slotStart { lit with calPhase := .dark 0 }).outbox = [] ∧ ({ lit with fibres := [{ fibre := 0, outDown := true }] } : State).lit 0 = none ∧
    (after .slotStart lit).slotCount < (after .slotStart lit).slotsDone := by decide +kernel
/-- Relays (R368): a packet for package 1 to hold and to forward; one that has waited 8 slots; a discarded one. -/
def relayed : Packet := { packet with kind := 1, op := 0xE0, dpkg := 1, spkg := 2, ty := 1 }
theorem test_relay_premises : packetFormed relayed = true ∧ lit.isDark = false ∧ (let s := after (.relayHold 0 relayed) lit
    (s.relays.map fun r => (r.id, r.pkt.relayed)) = [(1, true)] ∧ (after (.relayForward 1 0) s).outbox.length = 1 ∧
    (after (.relayTimeout 1) { s with ns := 32001 }).relays = [] ∧ (after (.relayForward 1 0) { s with reach := [] }).relays = []) ∧
    (after (.fabricPacketDiscard 0) lit).discards = 1 ∧ (after .discardSummary { lit with discards := 1, ns := 1000000 }).discards = 0 := by decide +kernel
/-- LossOfLight (R387): a module that goes dark, the third, a restripe in its dark interval. -/
theorem test_light_premises : lit.evUsed < 4031 ∧ lit.evHeld = [] ∧ (let s := after (.lossOfLight 0 { module := 1, since := 0 }) lit
    (s.fibre 0).dark = [1] ∧ (s.fibre 0).restripe = some 200 ∧ ((after (.restripe 0) { s with ns := 4000 }).fibre 0).stripe = 0xFF00FF ∧
    (s.ns + 200) / 4000 * 4000 < 200 + 200 ∧ ((after (.lightReturn 0 1) s).fibre 0).dark = []) ∧
    ((after (.lossOfLight 0 { module := 0, since := 0 }) { lit with fibres := [{ fibre := 0, dark := [1, 2] }] }).fibre 0).dark.length = 3 ∧
    (after (.lossOfLight 0 { module := 1, since := 0 }) { lit with ns := 2001 }).fibres = [] := by decide +kernel
/-- CalenderLoad (R366, R390): the entry, a change in progress, a context with a FABID. -/
theorem test_calload_premises : (entry 0x20 0x4000).calPhase = .none ∧ (match (entry 0x20 0x4000).nextEntry 0 with | some h => h.ref == one | none => false) = true ∧
    ({ base with ctxs := [{ fabid := 4 }] } : State).ctxs.any (·.fabid != 0) = true := by decide +kernel
/-- CalenderPhases, CalenderResumes (R389): each phase; drained and not; locked, and after 500 us. -/
def changing (ph : CalPhase) (fs : List Fibre) (ns : Nat) : State := { lit with calPhase := ph, calNew := some (cal2, one), fibres := fs, ns := ns }
theorem test_phase_premises : (after .calenderDrain (changing (.accepted 0) [] 4000)).calPhase = .drain 4000 ∧ (after .calenderDrain (changing (.accepted 0) [] 3999)).calPhase = .accepted 0 ∧
    (after .calenderDark (changing (.drain 0) [{ fibre := 0, markerOut := true, markerIn := true }] 4)).calPhase = .dark 4 ∧
    (after .calenderDark (changing (.drain 0) [{ fibre := 0, markerOut := true }] 4)).calPhase = .drain 0 ∧
    (after .calenderRelock (changing (.dark 0) [] 4)).calPhase = .relock 4 ∧
    ((after (.fibreLock { fibre := 0, out := true }) (changing (.relock 0) [] 4)).fibre 0).outLocked = true ∧
    (after .calenderResume (changing (.relock 0) [{ fibre := 0, outLocked := true, inLocked := true }] 4)).calPhase = .none ∧
    (after .calenderResume (changing (.relock 0) [] 499999)).calPhase = .relock 0 ∧ (after .calenderResume (changing (.relock 0) [] 500000)).calPhase = .none := by decide +kernel
theorem test_marker_premises : let p := { packet with kind := 8, spkg := 1, ext := 5 }
    (changing (.drain 0) [] 4).arrives p = true ∧ ((after (.drainMarker 0 p) (changing (.drain 0) [] 4)).fibre 0).markerIn = true := by decide +kernel

/-! ## Failures and ageing -/

/-- UnitFenced (R375, R379): errors enough for a lane, and none; a sequencer's heartbeat; units fenced already, and ones that are not there. -/
def errorsAt (u : UnitRef) (k n : Nat) : State := { base with errors := List.replicate n (u, k, 0) }
theorem test_fence_unit_premises : (errorsAt (.lane 0 3) 1 3).triggered (.lane 0 3) = true ∧ base.triggered (.lane 0 3) = false ∧ unitExists (.lane 0 3) = true ∧
    unitExists (.core 300) = false ∧ reportable (.core 4) = true ∧ base.evUsed < 4096 ∧ UnitRef.lane 0 3 ∈ (after (.unitFence (.lane 0 3) 0) (errorsAt (.lane 0 3) 1 3)).fenced ∧
    UnitRef.core 5 ∈ (after (.heartbeatLoss (.core 5) 0) base).fenced := by decide +kernel
/-- SpareLane (R380): the lane of the group fenced, spare 64 free. -/
theorem test_spare_premises : (base.core 0).fencedLanes = [] ∧ (base.core 0).laneOf 3 = some 3 ∧ (base.core 0).spares = [] ∧
    ((after (.unitFence (.lane 0 3) 0) (errorsAt (.lane 0 3) 1 3)).core 0).plane 3 = 64 := by decide +kernel
/-- BanksAndChannels, LostFrames (R381, R383): a beater of a pair and both; a channel; a leaf in a lost frame. -/
theorem test_channel_premises : unitExists (.channel 0 3) = true ∧ unitExists (.beater 1 0 0) = true ∧ (errorsAt (.beater 1 0 0) 2 3).triggered (.beater 1 0 0) = true ∧
    (after (.unitFence (.channel 0 3) 0) (errorsAt (.channel 0 3) 4 100)).fenced = [.channel 0 3] ∧
    (after (.unitFence (.beater 1 0 0) 0) (errorsAt (.beater 1 0 0) 2 3)).fenced = [.beater 1 0 0] ∧
    UnitRef.clusterScratch 0 ∈ (after (.unitFence (.beater 1 0 0) 0) { errorsAt (.beater 1 0 0) 2 3 with fenced := [.beater 1 0 1] }).fenced := by decide +kernel
theorem test_lost_frame_premises : let s := { table 15 with fenced := [.channel 0 5] }
    (match walkFrom s 0 0 0x50000 [(16, 5, true, false, 1)] 0x8000 with | .malformed => true | _ => false) = true ∧
    entryBad 16 true false 1 (s.read 0x8050 16) = false ∧ (s.read 0x8050 16).testBit 0 = true ∧ s.poisonedAt 0x8050 16 = false := by decide +kernel
/-- StrandedTeams (R382): the resident team's core fenced, its launch IDEM and not. -/
theorem test_stranded_premises : ((after (.unitFence (.core 0) 0) { base with errors := [(.core 0, 6, 0), (.core 0, 6, 0), (.core 0, 6, 0)] }).launches.map (·.lost)) = [some 0] ∧
    ((after (.unitFence (.core 0) 0) { base with launches := base.launches.map fun l => { l with idem := true } }).teams.map (·.status)) = [.waiting 0] := by decide +kernel
/-- Links (R391): the eighth failure in a row; a link that retrains and does not come up. -/
theorem test_link_premises : ((after (.flitReplay 0 { link := 1, ok := false }) { base with links := [{ die := 0, link := 1, fails := 7 }] }).link 0 1).retraining = true ∧
    ((after (.flitReplay 0 { link := 1, ok := true }) { base with links := [{ die := 0, link := 1, fails := 7 }] }).link 0 1).fails = 0 ∧
    ((after (.linkRetrainEnd 0 1 false) { base with links := [{ die := 0, link := 1, retraining := true }] }).link 0 1).fenced = true := by decide +kernel
/-- Stacks (R350-R352): a patrol, a refresh and its end, a burst that is due, a row held for 8 us. -/
theorem test_stack_premises : (after (.patrolScrub 0) { base with soft := [(64, 3)] }).soft = [] ∧ (after (.perBankRefresh 0 1 2) base).refresh = [(0, 1, 2, 180)] ∧
    (after (.refreshEnd 0 1 2) { base with refresh := [(0, 1, 2, 180)], ns := 180 }).refresh = [] ∧
    ((after (.burstRollback 0 1) { base with bursts := [{ core := 96, stack := 0, channel := 1, since := [none], waiter := some 0 }], ns := 1000 }).bursts.map (·.since)) = [[]] ∧
    (after (.rowHoldTimeout 0 7) { base with rows := [{ core := 96, stack := 0, row := 7, since := 0, waiter := some 1 }], ns := 8000 }).rows = [] ∧
    (after (.rowHoldTimeout 0 7) { base with rows := [{ core := 96, stack := 0, row := 7, since := 0 }], ns := 8000 }).rows.length = 1 := by decide +kernel
/-- PowerAndAgeing (R392): a reading that is due, a re-plan at each step. -/
def planning (volt : Int) : State := { base with health := base.health.set 0 { replanning := some 0, volt := volt } }
theorem test_ageing_premises : ((after (.canaryRead 0 [{ slack := 5, core := none }]) base).health[(0 : Fin 8)]).slack = 5 ∧
    ((after (.replan 0 [{ slack := 25, core := none }]) (planning 0)).health[(0 : Fin 8)]).replanning = none ∧
    ((after (.replan 0 [{ slack := 40, core := none }]) (planning 10)).health[(0 : Fin 8)]).volt = 5 ∧
    ((after (.replan 0 [{ slack := 5, core := none }]) (planning 10)).health[(0 : Fin 8)]).volt = 15 ∧
    (after (.replan 0 [{ slack := 5, core := none }]) (planning 50)).ceiling = 1 ∧ base.evUsed < 4032 ∧
    UnitRef.core 3 ∈ (after (.replan 0 [{ slack := 5, core := some 3 }]) (planning 50)).fenced := by decide +kernel
/-- HealthRecord (R386): its entry. -/
theorem test_health_premises : (match (entry 0x21 0x4000).nextEntry 0 with | some h => h.ref == one && h.cmd == some (.health one 0x4000) | none => false) = true ∧
    (entry 0x21 0x4000).memOk := by decide +kernel
/-- Attestation (R396): each stage of the connection. -/
def spdmAt (v c a k : Bool) (n : Option Bool) : State := { base with spdm := { version := v, capabilities := c, algorithms := a, sessions := k, session := n } }
theorem test_spdm_premises : ((after .getVersion base).spdm.version) = true ∧ ((after (.getCapabilities []) (spdmAt true false false false none)).spdm.capabilities) = true ∧
    ((after (.negotiateAlgorithms [0, 0, 0, 0, 0x80, 0, 0, 0, 2, 0]) (spdmAt true true false false none)).spdm.algorithms) = true ∧
    ((after (.negotiateAlgorithms []) (spdmAt true true false false none)).spdm.algorithms) = false ∧
    ((after (.keyExchange 0 []) (spdmAt true true true true none)).spdm.session) = some false ∧
    ((after (.finish []) (spdmAt true true true true (some false))).spdm.session) = some true ∧
    ((after .endSession (spdmAt true true true true (some true))).spdm.session) = none ∧ (0x85 : Nat) ∉ [0x81, 0x82, 0x83, 0x84, 0xE0, 0xE1, 0xE3, 0xE4, 0xE5, 0xE8, 0xEC] := by
  decide +kernel

/-! ## Conditions and values of the shared operations -/

/-- Interlocks, ScalarUses (R17): a load into s5 that is under way holds `ADDI s4, s5`, and not what reads s6. -/
theorem test_arriving_premises : let s := { base with work := [{ id := 1, group := 1, kind := .laneMem 0xC0 { ty := 0, d := 69, u := true } [] 0 1 }] }
    (next s 0x1020A063).scalarReady exec s.cur = false ∧ (next s 0x1020C063).scalarReady exec s.cur = true ∧
    (scalarUses (.addi 4 5 99)).reads = [5] := by decide +kernel
/-- ScalarPoison (R376): marks of an s-register, a p-register and a b-register; the first stops what reads it. -/
theorem test_scalar_poison_premises : let s := base.setCur { group with poisonS := [(1, 3), (66, 0), (82, 0)] }
    (s.cur.poisonS.find? fun e => e.1 == 1) = some (1, 3) ∧ (s.cur.poisonS.find? fun e => e.1 == 64 + 2) = some (66, 0) ∧ s.cur.clean [2] ∧
    s.cur.cleanOther [80 + 3] ∧ (after (.add 4 1 2 false) s).cur.stop ≠ .running ∧ (after (.add 4 2 2 false) s).cur.stop = .running := by decide +kernel
/-- LaneChecks (R73, R123, R378): no flag in the header, a register being written, poison of the guard and of a source, a thread that differs. -/
theorem test_lane_checks_premises : let g := started.cur
    clauseSlot { g with lq := g.lq.map fun e => { e with hdr := e.hdr.map fun h => { h with flagA := none } } } 0xC0 { ty := 0, d := 3, a := 1 } = some 8 ∧
    clauseSlot { g with lq := g.lq.map fun e => { e with dirty := [3] } } 0xC0 { ty := 0, d := 3, a := 1, pd := 0 } = some 9 ∧
    clauseSlot { g with lq := g.lq.map fun e => { e with dirty := [3] } } 0x00 { ty := 1, d := 3, a := 1 } = some 9 ∧
    ((guardCheck { g with poisonS := [(65, 0)] } { pg := 1 }).map (·.slot)) = some 6 ∧ (guardCheck g { pg := 1 }).isNone = true ∧
    ((poisonCheck { g with poisonV := [(5, 3, 4)] } [(10, [5]), (11, [6])] 0xFFFFFFFF).map fun f => (f.slot, f.tmask)) = some (10, 8) ∧
    ((uniformCheck (g.wv 6 1 fun _ => 1) [(10, [5]), (11, [6])] 0xFFFFFFFF).map fun f => (f.slot, f.tmask)) = some (11, 0xFFFFFFFE) ∧
    (0xFFFFFFFF : Word32).getLsbD (0 : Fin 32).val = true := by decide +kernel
/-- BlockHeads (R188): two rows of 16 Q8 columns with two scales: the header's length is 128, the pitch 16. -/
theorem test_block_head_premises : let p := blockPrefix { rows := 2, bytes := 32, sstride := 32, coff := 0, sarg := 0, policy := 0, smode := 1, slot := 0, wmen := false, cc := false, rc := false, bf := false, qfmt := 0x22 } false [0x3F80, 0x3CC2] 0 7
    p.length = 128 ∧ ofLeBytes ((p.drop 8).take 4) = 128 ∧ ofLeBytes ((p.drop 74).take 2) = 0x3CC2 ∧ ofLeBytes ((p.drop 16).take 4) = 7 := by decide +kernel
/-- BeaterFloats (R174): 3.0 and 2.0: the larger, the smaller, the product, the sum, 2 to the difference; equal values; b = +Inf. -/
theorem test_beater_floats : ([7, 8, 9, 12, 10].map fun cmd => beaterNew cmd 0x10 0x40400000 0x40000000 0) =
      [0x40400000, 0x40000000, 0x40C00000, 0x40A00000, 0x40000000] ∧
    beaterNew 10 0x10 0x40400000 0x40400000 0 = 0x3F800000 ∧ beaterNew 10 0x10 0x40400000 0x7F800000 0 = 0 := by decide +kernel
/-- SlotAddition (R56): with the anchor 0, 1.0 adds 2^52 and -1.0 takes it away; half a step is 0; 2^36 is too far; each flag; 1.5 is read. -/
theorem test_slot_addition : slotAdd 0 0x3F800000 0 = 2 ^ 52 ∧ slotAdd 0 0xBF800000 0 = 2 ^ 112 - 2 ^ 52 ∧ slotAdd 5 0x25000000 0 = 5 ∧
    slotAdd 0 0x51800000 0 = 2 ^ 123 ∧ slotAdd 0 0x3F800000 1 = 2 ^ 124 ∧ slotAdd 0 0x7FC00000 0 = 2 ^ 120 ∧ slotAdd 0 0x7F800000 0 = 2 ^ 121 ∧
    slotAdd 0 0xFF800000 0 = 2 ^ 122 ∧ slotAdd (255 * 2 ^ 112) 0x3F800000 (-1) = 255 * 2 ^ 112 + 2 ^ 53 ∧ slotRead (3 * 2 ^ 51) = 0x3FC00000 ∧
    slotRead (2 ^ 120) = 0x7FC00000 := by decide +kernel
/-- RowOperands: R46's example of Q6; a zero-run row whose elements 1 and 3 are present. -/
theorem test_row_operands : rowOperands 0x21 false 4 [0xC1, 0xFF, 0x85] = [1, -1, 31, -31] ∧
    rowOperands 0x22 true 4 [0x0A, 0, 0, 0, 5, 0x80] = [0, 5, 0, -127] := by decide +kernel
/-- DrainResults (R54): the sum 19 under scales of 1.0 as FP32, BF16, a Q4 code that saturates, and raw. -/
theorem test_drain_results : ([0, 1, 2, 3].map fun f => drainElem { wmen := false, slot := 0, pitch := 0, qfmt := 0x20, pair := false, ls := false, form := f, bank := 0 }
    0x3F80 (1, 0) 0x3F80 0x3F80 19) = [(0x41980000, 0x41980000, 0), (0x4198, 0x41980000, 0), (7, 0x41980000, 1), (19, 0, 0)] := by decide +kernel
/-- PolicyScales: R346's example, each policy. -/
def clipped : Stats := { maxabs := 0x40400000, total := 1000000, sat := 12, bins := ((Vector.replicate 16 0).set 6 500).set 5 100000 }
theorem test_policy_scales : ((List.range 8).map fun p => policyScale p 127 clipped (-4)) =
    [0x3CC2, 0x3D00, 0x3D42, 0x3C82, 0x3D00, 0x3D42, 0x3D80, 0x3F80] := by decide +kernel
/-- FenceTriggers (R378, R379): the first read of a poisoned unit counts for its channel, the second does not; too few and enough. -/
theorem test_trigger_premises : let s := { base with poisoned := [0x30000] }
    ((s.notePoison 0x30004 4 0).errors.map (·.1)) = [.channel 0 3] ∧ ((s.notePoison 0x30004 4 0).notePoison 0x30004 4 0).errors.length = 1 ∧
    (errorsAt (.channel 0 3) 4 (base.params.chBursts - 1)).triggered (.channel 0 3) = false ∧
    (errorsAt (.channel 0 3) 4 base.params.chBursts).triggered (.channel 0 3) = true := by decide +kernel
/-- LostFrames (R383): the channel of the table's own frame fenced. -/
theorem test_lost_table_premises : (match walkFrom { table 15 with fenced := [.channel 0 0] } 0 0 0x50000 [(16, 5, true, false, 1)] 0x8000 with
    | .malformed => true | _ => false) = true := by decide +kernel
/-- HomeRefusals (R83, R222): a write to the code of a running launch, in a page that remote writes may reach. -/
theorem test_code_landing_premises : let p := { op 1 0xE0 0x10000 5 with virt := true }
    refusal (({ homed with tlb := [{ page 0x10000 with rwr := true }] } : State).landing p (homed.ctx 0) 0x10000 4 true) = 3 ∧
    isAt (({ homed with tlb := [{ page 0x10000 with rwr := true }] } : State).landing p (homed.ctx 0) 0x10000 4 false) = true := by decide +kernel
/-- AnswersSent (R222): a bulk line whose source has become poisoned is denied and not sent again. -/
theorem test_poisoned_again_premises : let s := { outstanding with
      remotes := outstanding.remotes.map (fun r => { r with src := some [(0x30000, 128)] }), poisoned := [0x30000] }
    (after (.retransmit 7) s).inflight = [] ∧ (after (.retransmit 7) s).cur.remstat.reason = 10 := by decide +kernel
/-- SlotStart (R368): in a slot's dark interval no beacon fits. -/
theorem test_late_slot_premises : (after .slotStart { lit with ns := 3801 }).outbox = [] := by decide +kernel
/-- LossOfLight (R387): a packet in the replay buffer goes out again at the restripe. -/
theorem test_replay_premises : let f : Fibre := { fibre := 0, dark := [1], restripe := some 200, lostAt := some 0, sent := [(5, relayed)] }
    ((after (.restripe 0) { lit with fibres := [f], ns := 4000 }).outbox) = [relayed] := by decide +kernel
/-- CalenderResumes (R389): a held packet for a package of the calender goes out, or stays where no out-fibre takes it. -/
theorem test_held_packet_premises : let s := { changing (.relock 0) [{ fibre := 0, outLocked := true, inLocked := true }] 4 with heldOut := [relayed] }
    (after .calenderResume s).outbox.length + (after .calenderResume s).heldOut.length = 1 := by decide +kernel
/-- Attestation (R396): an answer in an open session is sealed and counted; a session begins with keys of its own. -/
theorem test_sealed_premises : (after .heartbeat (spdmAt true true true true (some true))).spdm.sent = 1 ∧
    ((after .heartbeat (spdmAt true true true true (some true))).hostOut.map fun m => match m with | .secured b => b.length | _ => 0) = [6 + 1 + 16] ∧
    (after (.keyExchange 0 []) (spdmAt true true true true none)).fresh = base.fresh + 7 := by decide +kernel
/-- Stacks (R351): the rollback withdraws the access issued since the last safe point. -/
theorem test_withdraw_premises : let a : LaneAcc := { thread := 0, key := 0x10000 }
    let s := { base with
      bursts := [{ core := 96, stack := 0, channel := 1, since := [some (4, a)], waiter := some 0 }], ns := 1000
      work := [{ id := 4, group := 1, kind := .burst 0xC0 { ty := 0 } [] [(a, 9, false)] 0 1 }] }
    ((after (.burstRollback 0 1) s).work.map fun w => match w.kind with | .burst _ _ acc got _ _ => (acc, got) | _ => ([], [])) = [([a], [])] := by decide +kernel
/-- PartialAccess (R161, R172): an ATOM in a read-only page, uniform and not. -/
theorem test_partial_premises : let s := (laneRec 0 1 1).setCur ((laneRec 0 1 1).cur.wp 2 3)
    let u := { s with tlb := [page 0x10000, page 0x20000, { page 0x30000 with w := false }] }
    u.laneThreads { ty := 1, d := 3, a := 1, b := 4, x := 2, pg := 2 } = [0, 1] ∧
    u.lineAt u.cur.place 0 .atomic 0x30008 = .prot ∧
    (after (.atom { ty := 1, d := 3, a := 1, b := 4, x := 2, pg := 2 }) u).cur.tmask = 3 := by decide +kernel
/-- VictimsTaken (R316): where a held window stands in the way, it is claimed and no team is told to leave. -/
def holding : State := { crowded with teams := waiter :: { low with
  key := 10, status := .saved true, held := [0, 1, 2, 3], arrays := [], unitCores := [0, 1, 2, 3], win := #v[{ base := 0, size := 2 ^ 20 }, {}, {}]
  area := [{ base := 0, size := 2 ^ 20 }] } :: crowd.drop 1 }
theorem test_claim_premises : holding.going = [] ∧ holding.heldPads [0] = [(10, 0), (10, 1), (10, 2), (10, 3)] ∧ holding.claimed.fitsWithout [] waiter = false ∧ holding.tryPlace waiter = none ∧
    (holding.claimed.unhold [(10, 0)]).fitsWithout [] waiter = true ∧
    ((after (.teamPlace 0) holding).teams.map fun t => (t.claiming, t.victim == .none)) = [([], true), ([0], true), ([], true), ([], true)] := by decide +kernel
/-- TeamRestored (R316): one window still held, the others from the save area. -/
theorem test_mixed_restore_premises : ((after (.teamRestore 0) (restoring [0] [])).teams.map fun t => (t.held, t.area)) = [([], [])] := by decide +kernel

end Sys2Proof.Machine.Tests
end

/-! # The state after cold reset (R9, R21, R298, R338, R356, R385, R393, R394) -/

namespace Sys2Proof.Machine

/-- Nothing is listed at reset, so every byte reads as the blank byte (log 4). -/
theorem cellRead_reset (k : Nat) : cellRead State.reset.mem k = 0 := rfl

/-- No queue is listed at reset, so each is the disabled one of its number (R298). -/
theorem queue_reset (n : Nat) : State.reset.queue n = { q := n } := rfl

/-- Every s-register of a group slot at reset is zero (log 8). -/
theorem reset_s_zero (i : Fin 64) : State.reset.cur.s[i] = 0 := by
  simp [State.reset]

/-- No context has a PASID at reset (R358). -/
theorem reset_ctxPasid_zero (i : Fin 64) : State.reset.ctxPasid[i] = 0 := by
  simp [State.reset]

theorem resetMemory : Claim.ResetMemory := ⟨wf_reset, cellRead_reset⟩

theorem resetValues : Claim.ResetValues := by
  exact ⟨rfl, rfl, rfl, rfl, rfl, rfl, rfl, rfl, cellRead_reset, rfl, rfl, rfl, rfl, rfl, rfl, rfl, rfl, rfl, rfl, reset_s_zero,
    queue_reset, rfl, rfl, rfl, rfl, rfl, rfl, rfl, rfl, rfl, rfl, rfl, rfl, rfl, rfl, rfl, rfl, rfl, reset_ctxPasid_zero, rfl, rfl⟩

/-- Settles O7: every field of the reset state has its default, read off field by field. -/
theorem resetStateAsSpecified : Obligations.ResetStateAsSpecified := ⟨resetMemory, resetValues⟩

end Sys2Proof.Machine

/-! # CRD and CWR: the control registers of R19's map (R18-R30, R110) -/

namespace Sys2Proof.Machine

/-- A fold that adds one power of two for each number of a test adds a number whose bits are the tests. -/
theorem exists_foldl_bits (n : Nat) (p : Fin n → Prop) [DecidablePred p] :
    ∃ m < 2 ^ n, (∀ i : Fin n, m.testBit i.val = decide (p i)) ∧
      ∀ a, (List.finRange n).foldl (fun a i => if p i then a + 2 ^ i.val else a) a = a + m := by
  induction n with
  | zero => exact ⟨0, by simp, fun i => i.elim0, fun a => rfl⟩
  | succ n ih =>
    obtain ⟨m, hm, hbit, hfold⟩ := ih fun i => p i.castSucc
    refine ⟨m + if p (Fin.last n) then 2 ^ n else 0, ?_, ?_, fun a => ?_⟩
    · rw [Nat.pow_succ]; split <;> omega
    · refine Fin.lastCases ?_ fun i => ?_
      · by_cases h : p (Fin.last n) <;> simp [h, Nat.add_comm m, Nat.testBit_two_pow_add_eq, Nat.testBit_lt_two_pow hm]
      · rw [Fin.val_castSucc, ← hbit i]
        split
        · rw [Nat.add_comm, Nat.testBit_two_pow_add_gt i.isLt]
        · rfl
    · rw [List.finRange_succ_last, List.foldl_append, List.foldl_map]
      simp only [Fin.val_castSucc, List.foldl_cons, List.foldl_nil, Fin.val_last]
      rw [hfold]
      split <;> omega

/-- FLAGS (R24): bit i tells whether flag i counts anything, and bit 12 is IH. -/
theorem Group.flags_getLsbD (g : Group) (i : Nat) :
    g.flags.getLsbD i = ((if h : i < 12 then decide (g.f[i] ≠ 0) else false) || decide (i = 12 ∧ g.ih = true)) := by
  obtain ⟨m, hm, hbit, hfold⟩ := exists_foldl_bits 12 fun i : Fin 12 => g.f[i] ≠ 0
  have hflags : g.flags = BitVec.ofNat 64 (2 ^ 12 * g.ih.toNat + m) := by
    unfold Group.flags
    rw [hfold]
    cases g.ih <;> rfl
  have hih : g.ih.toNat.testBit (i - 12) = decide (i - 12 = 0 ∧ g.ih = true) := by
    rw [Nat.testBit_bool_toNat]
    cases g.ih <;> simp
  rw [hflags, BitVec.getLsbD_ofNat, Nat.testBit_two_pow_mul_add _ hm]
  by_cases h : i < 12
  · have := hbit ⟨i, h⟩
    simp only [Fin.getElem_fin] at this
    simp [h, this, show i < 64 by omega, show i ≠ 12 by omega]
  · rw [if_neg h, dif_neg h, hih]
    by_cases h' : i = 12
    · simp [h']
    · simp [h', show i - 12 ≠ 0 by omega]

/-- CRD is a scalar word without sources, whose body reads the register (R110). -/
theorem exec_crd (d : Fin 64) (cr : BitVec 12) (s : State) : exec (.crd d cr) s = execCrd d cr s := rfl

/-- CWR is a scalar word with one source, whose body stores it (R110). -/
theorem exec_cwr (a : Fin 64) (cr : BitVec 12) (s : State) : exec (.cwr a cr) s = execCwr a cr s := rfl

/-- CRD of a register of the map writes what it reads to d and falls through (R110). -/
theorem execCrd_some (d : Fin 64) (cr : BitVec 12) (s : State) (x : Word) (h : s.readCr cr.toNat = some x) :
    execCrd d cr s = s.sets d x :=
  scalar_ok [] _ s _ s.cur.clean_nil (by rw [h])

/-- CRD outside the map is PRIV naming slot 7 (R110). -/
theorem execCrd_none (d : Fin 64) (cr : BitVec 12) (s : State) (h : s.readCr cr.toNat = none) :
    execCrd d cr s = s.raises causePriv 7 :=
  scalar_raises [] _ s _ _ _ _ _ s.cur.clean_nil (by rw [h]; rfl)

/-- CWR of a register with writable fields stores them and falls through (R110). -/
theorem execCwr_some (a : Fin 64) (cr : BitVec 12) (s : State) (g : Group) (hc : s.cur.clean [a])
    (h : s.writeCr cr.toNat (s.rs a) = some g) : execCwr a cr s = s.falls (s.setCur g) :=
  scalar_ok [(10, a)] _ s _ hc (by rw [h])

/-- CWR of any other number is PRIV naming slot 7 (R110). -/
theorem execCwr_none (a : Fin 64) (cr : BitVec 12) (s : State) (hc : s.cur.clean [a])
    (h : s.writeCr cr.toNat (s.rs a) = none) : execCwr a cr s = s.raises causePriv 7 :=
  scalar_raises [(10, a)] _ s _ _ _ _ _ hc (by rw [h]; rfl)

/-- A number that no row of R19's map has reads as nothing. -/
theorem readCr_eq_none (s : State) (n : Nat) (h : 0x01C < n) : s.readCr n = none := by
  unfold State.readCr
  split
  case h_30 => rfl
  all_goals omega

/-- A number that names no register with a writable field takes no write (R18). -/
theorem writeCr_eq_none (s : State) (n : Nat) (x : Word)
    (h : n ∉ [0x009, 0x00A, 0x00B, 0x00C, 0x00D, 0x012, 0x013, 0x014, 0x015, 0x016, 0x018]) : s.writeCr n x = none := by
  simp only [List.mem_cons, List.not_mem_nil, or_false, not_or] at h
  unfold State.writeCr
  split
  case h_12 => rfl
  all_goals omega

/-- FPCTL as CWR stores it: DAZ and FTZ, and DRM where it is a mode (R25). -/
theorem fpctl_stored (x : Word) : (if 5 ≤ x.toNat % 8 then x.setWidth 5 &&& 0x18 else x.setWidth 5) =
    BitVec.ofNat 5 (x.toNat % 32 / 8 * 8 + (if x.toNat % 8 < 5 then x.toNat % 8 else 0)) := by
  have hx : x.setWidth 5 = BitVec.ofNat 5 (x.toNat % 32) := by
    apply BitVec.eq_of_toNat_eq; simp
  have hall : ∀ n < 32, (if 5 ≤ n % 8 then BitVec.ofNat 5 n &&& 0x18 else BitVec.ofNat 5 n) =
      BitVec.ofNat 5 (n / 8 * 8 + (if n % 8 < 5 then n % 8 else 0)) := by decide
  have hmod : x.toNat % 32 % 8 = x.toNat % 8 := by omega
  rw [hx, ← hmod]
  exact hall _ (Nat.mod_lt _ (by decide))

/-- The traps after a write of CYCCMP (R22; log 35): TIMER is pending where it was, or where the old or the new value is reached. -/
theorem cyccmp_traps (s : State) (x : Word) :
    (if s.timerDue s.cur || (x ≠ 0 && x.toNat ≤ s.cycle s.cur) then s.cur.traps.addTimer else s.cur.traps) =
      { s.cur.traps with
        timer := s.cur.traps.timer || decide (s.cur.cyccmp ≠ 0 ∧ s.cur.cyccmp.toNat ≤ s.cycle s.cur) ||
          decide (x ≠ 0 ∧ x.toNat ≤ s.cycle s.cur) } := by
  have hdue : s.timerDue s.cur = decide (s.cur.cyccmp ≠ 0 ∧ s.cur.cyccmp.toNat ≤ s.cycle s.cur) := by
    simp [State.timerDue, bne, Bool.decide_and, Bool.beq_eq_decide_eq]
  rw [hdue]
  simp only [Bool.decide_and, Traps.addTimer, Bool.or_assoc]
  generalize (_ || _ : Bool) = b
  cases b <;> simp

/-- LPC of an empty lane queue is the address of the last clause executed (R16). -/
theorem State.lpc_of_nil {s : State} {g : Group} (h : g.lq = []) : s.lpc g = g.lastLpc := by rw [State.lpc, h]

/-- LPC is else the address of the clause at the queue's head (R16). -/
theorem State.lpc_of_cons {s : State} {g : Group} {e : LqEntry} {q : List LqEntry} (h : g.lq = e :: q) :
    s.lpc g = BitVec.ofNat 64 ((s.launchOf g).lbase + 12 * e.idx) := by rw [State.lpc, h]

theorem controlRead : Claim.ControlRead := by
  intro s d cr
  refine ⟨fun e he hcr => ?_, fun hcr => ?_, s.cur.flags_getLsbD⟩
  · refine (exec_crd d cr s).trans (execCrd_some d cr s e.2 ?_)
    rw [hcr]
    clear hcr
    revert e
    have hdim : (s.launchOf s.cur).gridDim = BitVec.ofNat 64 ((s.launchOf s.cur).teams % 2 ^ 32 +
        2 ^ 32 * (s.launchOf s.cur).groups + 2 ^ 40 * (s.launchOf s.cur).stages.length) := by
      unfold Launch.gridDim; congr 1; omega
    have hrem : s.cur.remstat.word = BitVec.ofNat 64 ((if s.cur.remstat.d then 1 else 0) + 2 ^ 8 * s.cur.remstat.reason.toNat +
        2 ^ 16 * s.cur.remstat.count.toNat + 2 ^ 32 * s.cur.remstat.seq.toNat) := by
      unfold RemStat.word; congr 1; omega
    have hwin : ∀ w : Window, w.word = BitVec.ofNat 64 (w.base + 2 ^ 32 * w.size) := by
      intro w; unfold Window.word; congr 1; omega
    simp only [List.forall_mem_cons, ← hdim, ← hrem, ← hwin]
    cases hq : s.cur.lq with
    | nil => simp [State.readCr, Group.groupId, State.cycle, State.lpc_of_nil hq]
    | cons e q => simp [State.readCr, Group.groupId, State.cycle, State.lpc_of_cons hq]
  · simp only [List.forall_mem_cons] at hcr
    refine (exec_crd d cr s).trans (execCrd_none d cr s (readCr_eq_none s _ ?_))
    omega

theorem controlWrite : Claim.ControlWrite := by
  intro s a cr hc
  refine ⟨fun e he hcr => ?_, fun hcr => ?_⟩
  · refine (exec_cwr a cr s).trans (execCwr_some a cr s e.2 hc ?_)
    rw [hcr]
    clear hcr
    revert e
    have hrem : (if (s.rs a).getLsbD 0 then { s.cur with remstat := {} } else s.cur) =
        if (s.rs a).toNat % 2 = 1 then { s.cur with remstat := { d := false, reason := 0, count := 0, seq := 0 } } else s.cur := by
      simp [BitVec.getLsbD, Nat.testBit_zero]
    simp only [List.forall_mem_cons]
    exact ⟨congrArg (fun p : Traps => some ({ s.cur with cyccmp := s.rs a, traps := p } : Group)) (cyccmp_traps s (s.rs a)), rfl, rfl, rfl, rfl, rfl, rfl, rfl,
      congrArg (fun c : BitVec 5 => some ({ s.cur with fpctl := c } : Group)) (fpctl_stored (s.rs a)), rfl, congrArg some hrem, by simp⟩
  · simp only [List.forall_mem_cons] at hcr
    refine (exec_cwr a cr s).trans (execCwr_none a cr s hc (writeCr_eq_none s _ _ ?_))
    simpa using hcr

/-- Settles O14: what each register of R19's map reads and stores, and that no other number does. -/
theorem controlRegisterAccess : Obligations.ControlRegisterAccess := ⟨controlRead, controlWrite⟩

end Sys2Proof.Machine

/-! # What a lane instruction writes, and where its clause goes on (R10-R12, R16, R72, R73, R105, R120-R122) -/

namespace Sys2Proof.Machine

/-! ## Masks -/

/-- A mask's bits are the test's answers. -/
theorem maskOf_getLsbD (f : Fin 32 → Bool) (t : Fin 32) : (maskOf f).getLsbD t.val = f t := by
  obtain ⟨m, -, hbit, hfold⟩ := exists_foldl_bits 32 fun i => f i = true
  unfold maskOf
  rw [hfold, BitVec.getLsbD_ofNat, Nat.zero_add, hbit]
  simp [t.isLt]

/-! ## Writing a lane result -/

/-- A v-register written in the threads of a mask, thread by thread (R11, R12). -/
theorem Group.wv_v_self (g : Group) (r : Fin 64) (act : Word32) (f : Fin 32 → Word32) (t : Fin 32) :
    (g.wv r act f).v[r][t] = if act.getLsbD t.val then f t else g.v[r][t] := by
  simp [Group.wv]

/-- Writing a v-register leaves every other one. -/
theorem Group.wv_v_other (g : Group) (d r : Fin 64) (act : Word32) (f : Fin 32 → Word32) (h : r ≠ d) :
    (g.wv d act f).v[r] = g.v[r] := by
  have h' : d.val ≠ r.val := fun c => h (Fin.ext c.symm)
  simp [Group.wv, h']

/-- A result with a v-register's code goes to that register's active threads (R120). -/
theorem Group.writeDst_v (g : Group) (d : Fin 128) (act : Word32) (sgn : Bool) (f : Fin 32 → Word32) (h : d.val < 64) :
    g.writeDst d act sgn f = g.wv ⟨d.val, h⟩ act f := dif_pos h

/-- A result with an s-register's code goes to it, extended to 64 bits (R11, R120). -/
theorem Group.writeDst_s (g : Group) (d : Fin 128) (act : Word32) (sgn : Bool) (f : Fin 32 → Word32) (h : 64 ≤ d.val) :
    g.writeDst d act sgn f = g.ws ⟨d.val - 64, by omega⟩
      (if sgn then (f (lowest act)).signExtend 64 else (f (lowest act)).setWidth 64) := dif_neg (by omega)

/-- A predicate written for the active threads reads, thread by thread (R12, R120). -/
theorem Group.rp_writePred_self (g : Group) (p : Fin 8) (act : Word32) (q : Fin 32 → Bool) (hp : p ≠ 0) (t : Fin 32) :
    ((g.writePred p act q).rp p).getLsbD t.val = if act.getLsbD t.val then q t else (g.rp p).getLsbD t.val := by
  have hrp : (g.writePred p act q).rp p = (g.rp p &&& ~~~act) ||| (maskOf q &&& act) := by
    refine Eq.trans ?_ (g.rp_wp_self p _ hp)
    unfold Group.writePred
    split <;> rfl
  rw [hrp]
  simp only [BitVec.getLsbD_or, BitVec.getLsbD_and, BitVec.getLsbD_not, maskOf_getLsbD, t.isLt, decide_true, Bool.true_and]
  cases act.getLsbD t.val <;> simp

/-- Writing a predicate leaves every other one (R10). -/
theorem Group.rp_writePred_other (g : Group) (p r : Fin 8) (act : Word32) (q : Fin 32 → Bool) (h : r ≠ p) :
    (g.writePred p act q).rp r = g.rp r := by
  rw [← Group.rp_wp_other g p r ((g.rp p &&& ~~~act) ||| (maskOf q &&& act)) h]
  unfold Group.writePred
  split <;> rfl

/-- Writing a predicate changes the predicates and the marks of registers, and nothing else. -/
theorem Group.writePred_frame (g : Group) (p : Fin 8) (act : Word32) (q : Fin 32 → Bool) :
    g.writePred p act q = { g with
      p := (g.writePred p act q).p, poisonS := (g.writePred p act q).poisonS, softReg := (g.writePred p act q).softReg } := by
  unfold Group.writePred Group.wp Group.unmark
  split <;> split <;> rfl

/-- p0 discards a write of some of its bits and of all (R10). -/
@[simp] theorem Group.writePred_zero (g : Group) (act : Word32) (q : Fin 32 → Bool) : g.writePred 0 act q = g := by
  unfold Group.writePred
  split <;> rfl

/-- A write of all bits of a predicate takes its marks away (R375, R378; log 62). -/
theorem Group.writePred_full_marks (g : Group) (p : Fin 8) (q : Fin 32 → Bool) (hp : p ≠ 0) :
    (g.writePred p 0xFFFFFFFF q).poisonS = g.poisonS.filter (fun e => e.1 != 64 + p.val) ∧
    (g.writePred p 0xFFFFFFFF q).softReg = g.softReg.filter (fun e => e.1 != 128 + p.val) := by
  have hcode : 64 + p.val + 64 = 128 + p.val := by omega
  simp [Group.writePred, Group.wp, hp, Group.unmark, predReg, hcode]

/-- A write of some bits of a predicate leaves every mark (log 62). -/
theorem Group.writePred_part_marks (g : Group) (p : Fin 8) (act : Word32) (q : Fin 32 → Bool) (h : act ≠ 0xFFFFFFFF) :
    (g.writePred p act q).poisonS = g.poisonS ∧ (g.writePred p act q).softReg = g.softReg := by
  unfold Group.writePred
  rw [if_neg h]
  exact ⟨rfl, rfl⟩

theorem laneWrites : Claim.LaneWrites := by
  intro g d p act sgn f q
  refine ⟨fun hd => ?_, fun hd => ?_, g.rp_writePred_self p act q, fun r => g.rp_writePred_other p r act q,
    g.writePred_frame p act q, g.writePred_zero act q, fun hp ha => ?_, g.writePred_part_marks p act q⟩
  · rw [g.writeDst_v d act sgn f hd]
    exact ⟨g.wv_v_self ⟨d, hd⟩ act f, fun r hr => g.wv_v_other ⟨d, hd⟩ r act f fun c => hr (congrArg Fin.val c), rfl⟩
  · simp only [g.writeDst_s d act sgn f hd, BitVec.signExtend, BitVec.ofNat_toNat]
  · rw [ha]
    exact g.writePred_full_marks p q hp

/-! ## Going on in the clause -/

/-- The place in the clause after a lane instruction, by its header (R16, R72, R73). -/
theorem State.laneDone_eq (s : State) (dirty : List Nat) (e : LqEntry) (q : List LqEntry) (h : ClauseHeader) (hq : s.cur.lq = e :: q)
    (hh : e.hdr = some h) :
    s.laneDone dirty =
      let g := { s.cur with replay := 0xFFFFFFFF, retired := s.cur.retired + 1, roomWait := false }
      s.setCur (if e.pos = h.count.val then
        { g with lq := q, lastLpc := BitVec.ofNat 64 ((s.launchOf s.cur).lbase + 12 * e.idx), yielded := h.yieldHint }
      else { g with lq := { e with pos := e.pos + 1, dirty := e.dirty ++ dirty } :: q }) := by
  unfold State.laneDone
  simp only [hq, hh]
  rfl

theorem laneProgress : Claim.LaneProgress := by
  intro s e q h dirty hq hh
  simp only [s.laneDone_eq dirty e q h hq hh]
  by_cases hp : e.pos = h.count.val
  · simp [hp, State.setCur]
  · simp [hp, State.setCur]

/-! ## The start of a clause -/

/-- An event of the current group acts on the state as it is. -/
theorem onGroup_cur (s : State) (key : Nat) (f : State → State) (hl : s.cur.live = true) (hk : s.cur.key = key) :
    onGroup key f s = .next (f s) := by
  simp [onGroup, State.group, State.groups, State.focus, hl, hk]

/-- A clause whose header stands at the head starts once the flags that it waits for are zero (R72). -/
theorem State.startClause_eq (s : State) (e : LqEntry) (q : List LqEntry) (h : ClauseHeader) (hq : s.cur.lq = e :: q)
    (hh : e.hdr = some h) :
    s.startClause = if s.cur.flagsFree h then s.setCur { s.cur with lq := { e with started := true } :: q } else s := by
  unfold State.startClause
  simp only [hq, hh]

theorem exec_clauseStart (key : Nat) (s : State) : exec (.clauseStart key) s = execClauseStart key s := rfl

theorem clauseStart : Claim.ClauseStart := by
  intro s t key w e q hl hk hq
  subst hk
  simp only [exec_clauseStart, execClauseStart, onGroup_cur s _ _ hl rfl, hq]
  have hgo : e.started = false → s.cur.stop = .running → ¬ (e.started || s.cur.stop != .running) = true := by
    intro hs hr; simp [hs, hr]
  refine ⟨fun h => ?_, fun hs hr hb => ?_, fun h hs hr hb hh => ?_, fun hs hb hh hr => ⟨fun hi => ?_, fun hi hf => ?_⟩⟩
  · rw [if_pos (by simpa using h)]
  · have hpos : s.cur.clpos = 0 := by simp [Group.clpos, hq, hs]
    rw [if_neg (hgo hs hr), if_pos hb, State.laneHalt, hpos]
    rfl
  · rw [if_neg (hgo hs hr), if_neg (by simp [hb]), if_pos (by simp [hh]), s.startClause_eq e q h hq hh]
    rfl
  · rw [if_neg (hgo hs hr), if_neg (by simp [hb]), if_neg (by simp [hh]), if_pos (by simpa [State.inLcode] using hi)]
  · rw [if_neg (hgo hs hr), if_neg (by simp [hb]), if_neg (by simp [hh]), if_neg (by simpa [State.inLcode] using hi)]
    simp only [State.laneWordAt, hf]
    refine ⟨fun hd => ?_, fun h hd => ⟨fun ho => ?_, fun ho => ?_⟩⟩
    · simp only [hd]
    · simp only [hd]
      rw [if_pos (by simpa [State.inLcode] using ho)]
    · simp only [hd]
      rw [if_neg (by simpa [State.inLcode] using ho), State.startClause_eq _ { e with hdr := some h } q h rfl rfl]
      have hflags : ((List.finRange 12).all fun f => !h.wait.getLsbD f.val || s.cur.f[f] == 0) = s.cur.flagsFree h := rfl
      rw [hflags, ← (State.fetch_same hf).cur]
      cases hfree : t.cur.flagsFree h
      · rw [if_neg (by simpa [Group.flagsFree] using hfree), ← hs]
      · rw [if_pos (by simpa [Group.flagsFree] using hfree)]
        rfl

/-- Settles O27: the writes of a result, the place in the clause after it, and the start of a clause. -/
theorem laneWritesAndClauseProgress : Obligations.LaneWritesAndClauseProgress := ⟨laneWrites, laneProgress, clauseStart⟩

end Sys2Proof.Machine

/-! # The frame of the lane instructions that compute (R9, R10, R124) -/

namespace Sys2Proof.Machine

/-! ## What the report of an error leaves alone -/

/-- The second state is the first but for what the report of an error changes (R378, R385). -/
def State.OnlyReports (s t : State) : Prop := t = s.reported t

theorem State.OnlyReports.refl (s : State) : s.OnlyReports s := rfl

theorem State.OnlyReports.trans {s t u : State} (h : s.OnlyReports t) (k : t.OnlyReports u) : s.OnlyReports u := by
  unfold State.OnlyReports at *
  rw [h] at k
  exact k

theorem State.OnlyReports.cur {s t : State} (h : s.OnlyReports t) : t.cur = s.cur := by rw [h]; rfl
theorem State.OnlyReports.mem {s t : State} (h : s.OnlyReports t) : t.mem = s.mem := by rw [h]; rfl

/-- A fold of reports is a report. -/
theorem foldl_onlyReports {α : Type} (f : State → α → State) (hf : ∀ s a, State.OnlyReports s (f s a)) (l : List α) (s : State) :
    s.OnlyReports (l.foldl f s) := by
  induction l generalizing s with
  | nil => exact .refl s
  | cons a l ih => exact (hf s a).trans (ih (f s a))

theorem State.msix_onlyReports (s : State) (v : Nat) : s.OnlyReports (s.msix v) := by
  unfold State.msix
  split <;> rfl

theorem State.putEvent_onlyReports (s : State) (e : LogEntry) : s.OnlyReports (s.putEvent e) :=
  State.OnlyReports.trans (t := { s with
    log := s.log.drop (s.log.length - 4095) ++ [{ e with seq := s.evHead, time := s.ns }], evHead := s.evHead + 1 }) rfl
    (State.msix_onlyReports _ _)

theorem State.logEvent_onlyReports (s : State) (e : LogEntry) : s.OnlyReports (s.logEvent e) := by
  unfold State.logEvent
  split
  · split
    · rfl
    · exact s.putEvent_onlyReports e
  · split
    · rfl
    · exact s.putEvent_onlyReports e

theorem State.count_onlyReports (s : State) (die : Nat) (f : Health → Health) : s.OnlyReports (s.count die f) := by
  unfold State.count
  split <;> rfl

theorem State.noteUnit_onlyReports (s : State) (u ctx : Nat) : s.OnlyReports (s.noteUnit u ctx) := by
  unfold State.noteUnit
  split
  · rfl
  · refine State.OnlyReports.trans ?_ (State.logEvent_onlyReports _ _)
    exact State.OnlyReports.trans (t := { s with poisonSeen := _, errors := _ }) rfl (State.count_onlyReports _ _ _)

theorem State.notePoison_onlyReports (s : State) (k n ctx : Nat) : s.OnlyReports (s.notePoison k n ctx) :=
  foldl_onlyReports _ (fun s u => s.noteUnit_onlyReports u ctx) _ s

theorem State.noteReg_onlyReports (act : Word32) (s : State) (code : Nat) : s.OnlyReports (s.noteReg act code) := by
  unfold State.noteReg
  dsimp only
  split
  · exact foldl_onlyReports _ (fun s _ => s.notePoison_onlyReports _ _ _) _ s
  · split
    · exact s.notePoison_onlyReports _ _ _
    · exact .refl s

theorem State.chargeLane_onlyReports (s : State) (lane : Nat) : s.OnlyReports (s.chargeLane lane) := by
  unfold State.chargeLane State.count
  dsimp only
  split <;> rfl

/-! ## What computing leaves of a group -/

/-- A group after a compute instruction with the fields w: beside its result, the status of its lane stream and what a fault sets, every
register is what it was; of the s-, v- and p-registers only the destinations are new. -/
structure Group.Computed (w : LaneFields) (g h : Group) : Prop where
  rest : h = { g with
    s := h.s, v := h.v, p := h.p, lq := h.lq, lastLpc := h.lastLpc, replay := h.replay, tmask := h.tmask, nfflag := h.nfflag
    fpstat := h.fpstat, traps := h.traps, wait := h.wait, stop := h.stop, poisonS := h.poisonS, poisonV := h.poisonV, softReg := h.softReg
    retired := h.retired, yielded := h.yielded, roomWait := h.roomWait }
  rs : ∀ r : Fin 64, r.val + 64 ≠ w.d.val → h.rs r = g.rs r
  v : ∀ r : Fin 64, r.val ≠ w.d.val → h.v[r] = g.v[r]
  rp : ∀ p : Fin 8, p ≠ w.pd → h.rp p = g.rp p

namespace Group.Computed

variable {w : LaneFields} {g h k : Group}

theorem refl (g : Group) : g.Computed w g := ⟨rfl, fun _ _ => rfl, fun _ _ => rfl, fun _ _ => rfl⟩

theorem trans (a : g.Computed w h) (b : h.Computed w k) : g.Computed w k where
  rest := by
    have hk := b.rest
    rw [a.rest] at hk
    exact hk
  rs r hr := (b.rs r hr).trans (a.rs r hr)
  v r hr := (b.v r hr).trans (a.v r hr)
  rp p hp := (b.rp p hp).trans (a.rp p hp)

theorem raiseStatus (g : Group) (fl : Flags5) (nf : BitVec 4) : g.Computed w (g.raiseStatus fl nf) :=
  ⟨rfl, fun _ _ => rfl, fun _ _ => rfl, fun _ _ => rfl⟩

theorem saturated (g : Group) (armed : Bool) (n : Nat) : g.Computed w (g.saturated armed n) := by
  unfold Group.saturated
  split
  · exact refl g
  · dsimp only
    split <;> exact ⟨rfl, fun _ _ => rfl, fun _ _ => rfl, fun _ _ => rfl⟩

theorem writeDst (g : Group) (act : Word32) (sgn : Bool) (f : Fin 32 → Word32) : g.Computed w (g.writeDst w.d act sgn f) := by
  by_cases hd : w.d.val < 64
  · rw [g.writeDst_v _ act sgn f hd]
    exact ⟨rfl, fun _ _ => rfl, fun r hr => g.wv_v_other ⟨w.d, hd⟩ r act f fun c => hr (congrArg Fin.val c), fun _ _ => rfl⟩
  · rw [g.writeDst_s _ act sgn f (by omega)]
    refine ⟨?_, fun r hr => g.rs_ws_other _ r _ ?_, fun r _ => by rw [Group.ws_v], fun p _ => by simp [Group.rp]⟩
    · unfold Group.ws
      split <;> rfl
    · intro c
      have := congrArg Fin.val c
      simp only at this
      omega

theorem writePred (g : Group) (act : Word32) (q : Fin 32 → Bool) : g.Computed w (g.writePred w.pd act q) where
  rest := by
    rw [g.writePred_frame]
  rs r _ := by rw [g.writePred_frame]; rfl
  v r _ := by rw [g.writePred_frame]
  rp p hp := g.rp_writePred_other w.pd p act q hp

theorem wp (g : Group) (x : Word32) : g.Computed w (g.wp w.pd x) where
  rest := by
    unfold Group.wp
    split <;> rfl
  rs r _ := by simp [Group.rs]
  v r _ := by rw [Group.wp_v]
  rp p hp := g.rp_wp_other w.pd p x hp

end Group.Computed

/-- The state after a compute instruction: the current group's registers as its fields say, and what the report of an error changes. -/
def State.Computed (w : LaneFields) (s t : State) : Prop := t = { s.reported t with cur := t.cur } ∧ s.cur.Computed w t.cur

theorem State.OnlyReports.setCur {w : LaneFields} {s u : State} (hu : s.OnlyReports u) {g : Group} (hg : s.cur.Computed w g) :
    s.Computed w (u.setCur g) := ⟨congrArg (fun x : State => ({ x with cur := g } : State)) hu, hg⟩

/-- A fault of the lane stream, with whatever has been reported (R253-R255). -/
theorem State.OnlyReports.laneFault {w : LaneFields} {s u : State} (hu : s.OnlyReports u) (f : FaultInfo) :
    s.Computed w (u.laneHalt (.fault f)) :=
  hu.setCur (by rw [hu.cur]; exact ⟨rfl, fun _ _ => rfl, fun _ _ => rfl, fun _ _ => rfl⟩)

theorem State.laneLacks_computed (w : LaneFields) (s : State) : s.Computed w (s.laneHalt .lacks) :=
  (State.OnlyReports.refl s).setCur ⟨rfl, fun _ _ => rfl, fun _ _ => rfl, fun _ _ => rfl⟩

/-- Going on in the clause after a result. -/
theorem State.laneDone_computed {w : LaneFields} {s : State} {g : Group} (hg : s.cur.Computed w g) (dirty : List Nat) :
    s.Computed w ((s.setCur g).laneDone dirty) := by
  unfold State.laneDone
  split
  · exact (State.OnlyReports.refl s).setCur hg
  · split
    · exact (State.OnlyReports.refl s).setCur hg
    · refine (State.OnlyReports.refl s).setCur (hg.trans ?_)
      dsimp only
      split <;> exact ⟨rfl, fun _ _ => rfl, fun _ _ => rfl, fun _ _ => rfl⟩

/-! ## The frame of a lane instruction whose body computes -/

/-- A body that computes: a fault and nothing else, or new registers of the current group as the fields say. -/
def BodyComputes (w : LaneFields) (body : State → Word32 → Res) : Prop :=
  ∀ s act, (∃ f, body s act = .error (.fault f)) ∨ ∃ g, body s act = .ok (s.setCur g) ∧ s.cur.Computed w g

/-- Whatever a lane instruction whose body computes meets, it leaves the rest of the state. -/
theorem lane_computed {op : Nat} {w : LaneFields} {body : State → Word32 → Res} (hb : BodyComputes w body) {s t : State}
    (h : lane op w body s = .next t) : s.Computed w t := by
  have hrefl := State.OnlyReports.refl s
  have hnote : ∀ (act : Word32) (rs : List Nat), s.OnlyReports (rs.foldl (State.noteReg act) s) := fun act rs =>
    foldl_onlyReports _ (State.noteReg_onlyReports act) rs s
  suffices hall : ∃ u, lane op w body s = .next u ∧ s.Computed w u by
    obtain ⟨u, hu, hc⟩ := hall
    rw [hu, Host.Outcome.next.injEq] at h
    exact h ▸ hc
  unfold lane
  dsimp only
  split
  · exact ⟨s, rfl, rfl, .refl _⟩
  split
  · exact ⟨_, rfl, hrefl.laneFault _⟩
  split
  · exact ⟨_, rfl, hrefl.laneFault _⟩
  split
  · exact ⟨_, rfl, s.laneLacks_computed w⟩
  split
  · exact ⟨_, rfl, (State.noteReg_onlyReports _ s _).laneFault _⟩
  split
  · exact ⟨_, rfl, State.laneDone_computed (.refl s.cur) _⟩
  split
  · exact ⟨_, rfl, (hnote _ _).laneFault _⟩
  split
  · exact ⟨_, rfl, hrefl.laneFault _⟩
  obtain ⟨f, hf⟩ | ⟨g, hg, hc⟩ := hb s (activeMask s.cur w)
  · rw [hf]
    exact ⟨_, rfl, hrefl.laneFault _⟩
  · rw [hg]
    dsimp only
    split
    · exact ⟨_, rfl, (s.chargeLane_onlyReports _).laneFault _⟩
    · exact ⟨_, rfl, State.laneDone_computed hc _⟩

theorem lanePer_computed (op : Nat) (sgn : Bool) (f : Group → Fin 32 → Word32 → Word32 → Word32 → LaneOut) (w : LaneFields)
    (s t : State) (h : lanePer op sgn f w s = .next t) : s.Computed w t :=
  lane_computed (fun _ _ => .inr ⟨_, rfl, (Group.Computed.raiseStatus _ _ _).trans (.writeDst _ _ _ _)⟩) h

theorem laneInt_computed (op : Nat) (f : Nat → Int → Int → Int → Int) (w : LaneFields) (s t : State)
    (h : laneInt op f w s = .next t) : s.Computed w t := lanePer_computed op _ _ w s t h

theorem laneBits_computed (op : Nat) (f : Word32 → Word32 → Word32 → Word32) (w : LaneFields) (s t : State)
    (h : laneBits op f w s = .next t) : s.Computed w t := lanePer_computed op _ _ w s t h

theorem laneFloat_computed (op : Nat) (x : Nat → FVal → FVal → FVal → Exact) (w : LaneFields) (s t : State)
    (h : laneFloat op x w s = .next t) : s.Computed w t := lanePer_computed op _ _ w s t h

theorem laneUn_computed (op : Nat) (f : Group → Nat → LaneOut) (w : LaneFields) (s t : State)
    (h : laneUn op f w s = .next t) : s.Computed w t := lanePer_computed op _ _ w s t h

theorem laneTest_computed (op : Nat) (f : Group → Word32 → Word32 → Bool × Flags5) (w : LaneFields) (s t : State)
    (h : laneTest op f w s = .next t) : s.Computed w t :=
  lane_computed (fun _ _ => .inr ⟨_, rfl, (Group.Computed.raiseStatus _ _ _).trans (.writePred _ _ _)⟩) h

theorem laneCross_computed (op : Nat) (f : Group → Word32 → (Fin 32 → Word32) → Fin 32 → Word32) (w : LaneFields) (s t : State)
    (h : laneCross op f w s = .next t) : s.Computed w t :=
  lane_computed (fun _ _ => .inr ⟨_, rfl, .writeDst _ _ _ _⟩) h

theorem execQcvt_computed (w : LaneFields) (s t : State) (h : execQcvt w s = .next t) : s.Computed w t := by
  refine lane_computed (fun s act => ?_) h
  dsimp only
  cases hs : scaleCheck s.cur w act with
  | error e =>
    unfold scaleCheck at hs
    dsimp only at hs
    split at hs
    · cases hs
    · cases hs
      exact .inl ⟨_, rfl⟩
  | ok => exact .inr ⟨_, rfl, ((Group.Computed.raiseStatus _ _ _).trans (.writeDst _ _ _ _)).trans (.saturated _ _ _)⟩

theorem execDqcvt_computed (w : LaneFields) (s t : State) (h : execDqcvt w s = .next t) : s.Computed w t := by
  refine lane_computed (fun s act => ?_) h
  dsimp only
  cases hs : scaleCheck s.cur w act with
  | error e =>
    unfold scaleCheck at hs
    dsimp only at hs
    split at hs
    · cases hs
    · cases hs
      exact .inl ⟨_, rfl⟩
  | ok => exact .inr ⟨_, rfl, (Group.Computed.raiseStatus _ _ _).trans (.writeDst _ _ _ _)⟩

theorem execGtest_computed (w : LaneFields) (s t : State) (h : execGtest w s = .next t) : s.Computed w t :=
  lane_computed (fun _ _ => .inr ⟨_, rfl, .writePred _ _ _⟩) h

theorem execFold_computed (w : LaneFields) (s t : State) (h : execFold w s = .next t) : s.Computed w t :=
  lane_computed (fun _ _ => .inr ⟨_, rfl, (Group.Computed.raiseStatus _ _ _).trans (.writeDst _ _ _ _)⟩) h

theorem execScan_computed (w : LaneFields) (s t : State) (h : execScan w s = .next t) : s.Computed w t :=
  lane_computed (fun _ _ => .inr ⟨_, rfl, (Group.Computed.raiseStatus _ _ _).trans (.writeDst _ _ _ _)⟩) h

theorem execPset_computed (w : LaneFields) (s t : State) (h : execPset w s = .next t) : s.Computed w t :=
  lane_computed (fun _ _ => .inr ⟨_, rfl, .writePred _ _ _⟩) h

theorem execPmov_computed (w : LaneFields) (s t : State) (h : execPmov w s = .next t) : s.Computed w t := by
  refine lane_computed (fun s act => .inr ⟨_, rfl, ?_⟩) h
  split
  · exact .wp _ _
  · exact .writeDst _ _ _ _


/-- Every compute instruction, by its row of the opcode table (R75): its meaning is one of the shared forms above. -/
theorem exec_computed {i : Instr} {op : Nat} {w : LaneFields} (hi : laneOf i = some (op, w)) (hop : op < 0xC0) {s t : State}
    (h : exec i s = .next t) : s.Computed w t := by
  unfold laneOf at hi
  split at hi
  all_goals cases hi
  case h_1 => exact laneInt_computed _ _ _ s t (show execIadd _ s = .next t from h)
  case h_2 => exact laneInt_computed _ _ _ s t (show execIsub _ s = .next t from h)
  case h_3 => exact laneInt_computed _ _ _ s t (show execImul _ s = .next t from h)
  case h_4 => exact laneInt_computed _ _ _ s t (show execImulh _ s = .next t from h)
  case h_5 => exact laneInt_computed _ _ _ s t (show execImad _ s = .next t from h)
  case h_6 => exact laneInt_computed _ _ _ s t (show execImin _ s = .next t from h)
  case h_7 => exact laneInt_computed _ _ _ s t (show execImax _ s = .next t from h)
  case h_8 => exact laneInt_computed _ _ _ s t (show execIabs _ s = .next t from h)
  case h_9 => exact laneInt_computed _ _ _ s t (show execIneg _ s = .next t from h)
  case h_10 => exact lanePer_computed _ _ _ _ s t (show execIdot4 _ s = .next t from h)
  case h_11 => exact laneInt_computed _ _ _ s t (show execIdiv _ s = .next t from h)
  case h_12 => exact laneInt_computed _ _ _ s t (show execIrem _ s = .next t from h)
  case h_13 => exact laneBits_computed _ _ _ s t (show execLaneAnd _ s = .next t from h)
  case h_14 => exact laneBits_computed _ _ _ s t (show execLaneOr _ s = .next t from h)
  case h_15 => exact laneBits_computed _ _ _ s t (show execLaneXor _ s = .next t from h)
  case h_16 => exact laneBits_computed _ _ _ s t (show execNot _ s = .next t from h)
  case h_17 => exact laneBits_computed _ _ _ s t (show execLaneAndn _ s = .next t from h)
  case h_18 => exact laneBits_computed _ _ _ s t (show execBmux3 _ s = .next t from h)
  case h_19 => exact laneBits_computed _ _ _ s t (show execLaneShl _ s = .next t from h)
  case h_20 => exact laneBits_computed _ _ _ s t (show execLaneShr _ s = .next t from h)
  case h_21 => exact laneBits_computed _ _ _ s t (show execLaneSar _ s = .next t from h)
  case h_22 => exact laneBits_computed _ _ _ s t (show execBfe _ s = .next t from h)
  case h_23 => exact laneBits_computed _ _ _ s t (show execBfi _ s = .next t from h)
  case h_24 => exact laneBits_computed _ _ _ s t (show execLanePopc _ s = .next t from h)
  case h_25 => exact laneBits_computed _ _ _ s t (show execLaneClz _ s = .next t from h)
  case h_26 => exact laneBits_computed _ _ _ s t (show execBrev _ s = .next t from h)
  case h_27 => exact laneTest_computed _ _ _ s t (show execIcmp _ s = .next t from h)
  case h_28 => exact lanePer_computed _ _ _ _ s t (show execSel _ s = .next t from h)
  case h_29 => exact laneBits_computed _ _ _ s t (show execMov _ s = .next t from h)
  case h_30 => exact lanePer_computed _ _ _ _ s t (show execMovid _ s = .next t from h)
  case h_31 => exact laneFloat_computed _ _ _ s t (show execFadd _ s = .next t from h)
  case h_32 => exact laneFloat_computed _ _ _ s t (show execFsub _ s = .next t from h)
  case h_33 => exact laneFloat_computed _ _ _ s t (show execFmul _ s = .next t from h)
  case h_34 => exact laneFloat_computed _ _ _ s t (show execFfma _ s = .next t from h)
  case h_35 => exact lanePer_computed _ _ _ _ s t (show execFmin _ s = .next t from h)
  case h_36 => exact lanePer_computed _ _ _ _ s t (show execFmax _ s = .next t from h)
  case h_37 => exact lanePer_computed _ _ _ _ s t (show execFabs _ s = .next t from h)
  case h_38 => exact lanePer_computed _ _ _ _ s t (show execFneg _ s = .next t from h)
  case h_39 => exact laneTest_computed _ _ _ s t (show execFcmp _ s = .next t from h)
  case h_40 => exact laneUn_computed _ _ _ s t (show execFrcp _ s = .next t from h)
  case h_41 => exact laneUn_computed _ _ _ s t (show execFrsq _ s = .next t from h)
  case h_42 => exact laneFloat_computed _ _ _ s t (show execFsqrt _ s = .next t from h)
  case h_43 => exact laneFloat_computed _ _ _ s t (show execFdiv _ s = .next t from h)
  case h_44 => exact laneUn_computed _ _ _ s t (show execFexp2 _ s = .next t from h)
  case h_45 => exact laneUn_computed _ _ _ s t (show execFlog2 _ s = .next t from h)
  case h_46 => exact laneUn_computed _ _ _ s t (show execFsin _ s = .next t from h)
  case h_47 => exact laneUn_computed _ _ _ s t (show execFcos _ s = .next t from h)
  case h_48 => exact laneUn_computed _ _ _ s t (show execFtanh _ s = .next t from h)
  case h_49 => exact laneUn_computed _ _ _ s t (show execFfrc _ s = .next t from h)
  case h_50 => exact laneUn_computed _ _ _ s t (show execFrnd _ s = .next t from h)
  case h_51 => exact laneUn_computed _ _ _ s t (show execFclass _ s = .next t from h)
  case h_52 => exact lanePer_computed _ _ _ _ s t (show execFscl _ s = .next t from h)
  case h_53 => exact lanePer_computed _ _ _ _ s t (show execFexpo _ s = .next t from h)
  case h_54 => exact lanePer_computed _ _ _ _ s t (show execCvt _ s = .next t from h)
  case h_55 => exact execQcvt_computed _ s t h
  case h_56 => exact execDqcvt_computed _ s t h
  case h_57 => exact laneBits_computed _ _ _ s t (show execPack _ s = .next t from h)
  case h_58 => exact laneBits_computed _ _ _ s t (show execUnpack _ s = .next t from h)
  case h_59 => exact laneCross_computed _ _ _ s t (show execXperm _ s = .next t from h)
  case h_60 => exact laneCross_computed _ _ _ s t (show execGmask _ s = .next t from h)
  case h_61 => exact execGtest_computed _ s t h
  case h_62 => exact execFold_computed _ s t h
  case h_63 => exact execScan_computed _ s t h
  case h_64 => exact execPset_computed _ s t h
  case h_65 => exact execPmov_computed _ s t h
  case h_66 => exact laneCross_computed _ _ _ s t (show execGpeer _ s = .next t from h)
  all_goals exact absurd hop (by decide)

theorem laneComputeFrame : Claim.LaneComputeFrame := by
  intro s t i op w hi hop h
  obtain ⟨hrest, hcur⟩ := exec_computed hi hop h
  refine ⟨hrest, fun k => by rw [hrest]; rfl, hcur.rs, hcur.v, hcur.rp, ?_⟩
  rw [hcur.rest]
  simp

/-- Settles O29: a compute instruction halts with a fault, or writes its own destinations, and goes on in its clause. -/
theorem laneComputeLeavesRest : Obligations.LaneComputeLeavesRest := laneComputeFrame

end Sys2Proof.Machine

/-! # Numbers in memory: what a read gives after a write (R6) -/

namespace Sys2Proof.Machine

@[simp] theorem leBytes_length (n w : Nat) : (leBytes n w).length = n := by
  induction n generalizing w with
  | zero => rfl
  | succ n ih => simp [leBytes, ih]

/-- The little-endian bytes of a number hold its low bytes. -/
theorem ofLeBytes_leBytes (n w : Nat) : ofLeBytes (leBytes n w) = w % 256 ^ n := by
  induction n generalizing w with
  | zero => simp [leBytes, ofLeBytes, Nat.mod_one]
  | succ n ih =>
    have hsplit : w % 256 ^ (n + 1) = w % 256 + 256 * (w / 256 % 256 ^ n) := by rw [Nat.pow_succ', Nat.mod_mul]
    rw [leBytes, ofLeBytes, ih, BitVec.toNat_ofNat, hsplit]

theorem ofLeBytes_lt (l : List Byte) : ofLeBytes l < 256 ^ l.length := by
  induction l with
  | nil => simp [ofLeBytes]
  | cons b l ih =>
    have hb := b.isLt
    rw [ofLeBytes, List.length_cons, Nat.pow_succ']
    omega

theorem readCells_length (m : List Host.Cell) (k n : Nat) : (readCells m k n).length = n := by simp [readCells]

/-- Eight bytes of memory are a number of 64 bits. -/
theorem State.read_lt (s : State) (k n : Nat) : s.read k n < 256 ^ n := by
  have := ofLeBytes_lt (readCells s.mem k n)
  rwa [readCells_length] at this

/-- A number written to memory reads back, as far as the bytes hold it. -/
theorem State.read_write_self (s : State) (k n v : Nat) (hm : s.memOk) : (s.write k n v).read k n = v % 256 ^ n := by
  have h := readCells_writeCells_self s.mem k (leBytes n v) hm
  rw [leBytes_length] at h
  rw [State.read, State.write_mem, h, ofLeBytes_leBytes]

/-- A byte outside the run written is left. -/
theorem State.cellRead_write_other (s : State) (k n v j : Nat) (h : j < k ∨ k + n ≤ j) :
    cellRead (s.write k n v).mem j = cellRead s.mem j :=
  cellRead_writeCells_other s.mem k j _ (by rwa [leBytes_length])

/-- A number that lies outside the run written is left. -/
theorem State.read_write_other (s : State) (k n v k' n' : Nat) (h : k' + n' ≤ k ∨ k + n ≤ k') :
    (s.write k n v).read k' n' = s.read k' n' :=
  State.read_congr _ _ _ _ fun j _ _ => s.cellRead_write_other k n v j (by omega)

theorem State.memOk_write (s : State) (k n v : Nat) (hm : s.memOk) : (s.write k n v).memOk := wf_writeBytes s k _ hm

/-- A read depends on memory alone. -/
theorem State.read_of_mem {s t : State} (h : s.mem = t.mem) (k n : Nat) : s.read k n = t.read k n := by
  rw [State.read, h]; rfl

end Sys2Proof.Machine

/-! # An operation that has its answer (R28, R220, R222) -/

namespace Sys2Proof.Machine

/-- No line of a bulk transfer waits to be sent, and no change of a record to be made. -/
def State.NoneWaits (s : State) : Prop :=
  (∀ w ∈ s.work, ∀ ls m b, w.kind = .bulk ls m b → ls = []) ∧ ∀ w ∈ s.work, ∀ id b, w.kind ≠ .record id b

/-- Where no line waits, pumping sends nothing. -/
theorem State.NoneWaits.pumpAll {s : State} (h : s.NoneWaits) : s.pumpAll = s := by
  unfold State.pumpAll
  refine List.foldlRecOn (motive := fun t => t = s) s.work _ rfl fun t ht w hw => ?_
  cases hk : w.kind with
  | bulk ls m b =>
    rw [h.1 w hw ls m b hk]
    exact ht
  | _ => exact ht

/-- Where no change of a record waits, none is made. -/
theorem State.NoneWaits.applyRecords {s : State} (h : s.NoneWaits) (n grp : Nat) : s.applyRecords n grp = s := by
  cases n with
  | zero => rfl
  | succ n =>
    unfold State.applyRecords
    split
    · rfl
    · rename_i x hx
      have hmem : x ∈ s.work := (List.mem_filter.1 (List.mem_of_find?_eq_some hx)).1
      split
      · rename_i id close hk
        exact absurd hk (h.2 x hmem id close)
      · rfl

/-- What one answer does to the work that it belongs to: nothing, one operation fewer left, or its end. -/
theorem State.oneDone_cases (s : State) (k : Nat) :
    s.oneDone k = s ∨ (∃ x, s.findWork k = some x ∧ s.oneDone k = s.finishWork x) ∨
    ∃ x kind, s.findWork k = some x ∧ (∀ ls m b, kind = .bulk ls m b → ∃ m', x.kind = .bulk ls m' b) ∧ (∀ id b, kind ≠ .record id b) ∧
      s.oneDone k = { s with work := s.work.map fun w => if w.id == k then { w with kind := kind } else w } := by
  unfold State.oneDone
  split
  · exact .inl rfl
  · rename_i x hx
    dsimp only
    split
    · split
      · exact .inr (.inl ⟨x, hx, rfl⟩)
      · exact .inr (.inr ⟨x, .remote _, hx, by simp, by simp, rfl⟩)
    · split
      · exact .inr (.inl ⟨x, hx, rfl⟩)
      · exact .inr (.inr ⟨x, .flush _, hx, by simp, by simp, rfl⟩)
    · rename_i ls n b hk
      split
      · exact .inr (.inl ⟨x, hx, rfl⟩)
      · refine .inr (.inr ⟨x, .bulk ls _ b, hx, fun ls' m b' he => ?_, by simp, rfl⟩)
        cases he
        exact ⟨n, hk⟩
    · exact .inl rfl

@[simp] theorem State.oneDone_mem (s : State) (k : Nat) : (s.oneDone k).mem = s.mem := by
  obtain h | ⟨x, -, h⟩ | ⟨x, kind, -, -, -, h⟩ := s.oneDone_cases k <;> simp [h]

@[simp] theorem State.oneDone_remotes (s : State) (k : Nat) : (s.oneDone k).remotes = s.remotes := by
  obtain h | ⟨x, -, h⟩ | ⟨x, kind, -, -, -, h⟩ := s.oneDone_cases k <;> simp [h]

/-- The end of a piece of work leaves REMSTAT. -/
@[simp] theorem State.finishWork_cur_remstat (s : State) (w : Work) : (s.finishWork w).cur.remstat = s.cur.remstat := by
  unfold State.finishWork State.updGroup
  dsimp only
  split
  · cases w.flag <;> dsimp only <;> split <;> rfl
  · rfl

@[simp] theorem State.oneDone_cur_remstat (s : State) (k : Nat) : (s.oneDone k).cur.remstat = s.cur.remstat := by
  obtain h | ⟨x, -, h⟩ | ⟨x, kind, -, -, -, h⟩ := s.oneDone_cases k <;> rw [h]
  exact s.finishWork_cur_remstat x

/-- An answer makes nothing wait. -/
theorem State.NoneWaits.oneDone {s : State} (h : s.NoneWaits) (k : Nat) : (s.oneDone k).NoneWaits := by
  obtain he | ⟨x, -, he⟩ | ⟨x, kind, hx, hbulk, hrec, he⟩ := s.oneDone_cases k
  · rwa [he]
  · rw [he]
    exact ⟨fun w hw => h.1 w (List.mem_filter.1 hw).1, fun w hw => h.2 w (List.mem_filter.1 hw).1⟩
  · rw [he]
    have hxm : x ∈ s.work := List.mem_of_find?_eq_some hx
    constructor
    · intro w hw ls m b hk
      obtain ⟨v, hv, rfl⟩ := List.mem_map.1 hw
      split at hk
      · obtain ⟨m', hm'⟩ := hbulk ls m b hk
        exact h.1 x hxm ls m' b hm'
      · exact h.1 v hv ls m b hk
    · intro w hw id b hk
      obtain ⟨v, hv, rfl⟩ := List.mem_map.1 hw
      split at hk
      · exact hrec id b hk
      · exact h.2 v hv id b hk

/-- The state in which an operation has its answer and the work it belongs to is not yet told: a denial is recorded. -/
def State.withAnswer (s : State) (r : Remote) (denied : Option Nat) : State :=
  let t : State := { s with remotes := s.remotes.filter fun q => q.id != r.id }
  match denied with
  | none => t
  | some reason => t.updGroup r.group fun g => { g with remstat := g.remstat.deny reason r.pkt.scount }

@[simp] theorem State.withAnswer_remotes (s : State) (r : Remote) (d : Option Nat) :
    (s.withAnswer r d).remotes = s.remotes.filter fun q => q.id != r.id := by cases d <;> rfl
@[simp] theorem State.withAnswer_work (s : State) (r : Remote) (d : Option Nat) : (s.withAnswer r d).work = s.work := by cases d <;> rfl
@[simp] theorem State.withAnswer_mem (s : State) (r : Remote) (d : Option Nat) : (s.withAnswer r d).mem = s.mem := by cases d <;> rfl

/-- Where nothing waits for the answer, it ends the operation and tells the work, and that is all. -/
theorem State.NoneWaits.answer {s : State} (h : s.NoneWaits) (r : Remote) (d : Option Nat) :
    s.answer r d = (s.withAnswer r d).oneDone r.work := by
  have ht : (s.withAnswer r d).NoneWaits := by
    unfold State.NoneWaits
    rwa [State.withAnswer_work]
  have hu := ht.oneDone r.work
  have hcalc : s.answer r d = (((s.withAnswer r d).oneDone r.work).applyRecords ((s.withAnswer r d).oneDone r.work).work.length
      r.group).pumpAll := by cases d <;> rfl
  rw [hcalc, hu.applyRecords, hu.pumpAll]

theorem State.NoneWaits.answer_noneWaits {s : State} (h : s.NoneWaits) (r : Remote) (d : Option Nat) : (s.answer r d).NoneWaits := by
  rw [h.answer r d]
  refine State.NoneWaits.oneDone ?_ _
  unfold State.NoneWaits
  rwa [State.withAnswer_work]

theorem State.NoneWaits.answer_mem {s : State} (h : s.NoneWaits) (r : Remote) (d : Option Nat) : (s.answer r d).mem = s.mem := by
  rw [h.answer r d]; simp

theorem State.NoneWaits.answer_remotes {s : State} (h : s.NoneWaits) (r : Remote) (d : Option Nat) :
    (s.answer r d).remotes = s.remotes.filter fun q => q.id != r.id := by
  rw [h.answer r d]; simp

end Sys2Proof.Machine

/-! # Answers at the sender: denials, acknowledgements and replies (R28, R220, R222, R226, R228, R353, R372) -/

namespace Sys2Proof.Machine

theorem exec_denial (p : Packet) (s : State) : exec (.denial p) s = execDenial p s := rfl
theorem exec_acknowledgement (p : Packet) (s : State) : exec (.acknowledgement p) s = execAcknowledgement p s := rfl
theorem exec_rreadReply (p : Packet) (s : State) : exec (.rreadReply p) s = execRreadReply p s := rfl

/-- What an operation must be for an answer to name it. -/
theorem findRemote_test (r : Remote) (ctx die stream count : Nat) :
    (r.ctx == ctx && r.pkt.sdie == die && r.pkt.stream == stream && r.pkt.scount == count) = true ↔
      r.ctx = ctx ∧ r.pkt.sdie = die ∧ r.pkt.stream = stream ∧ r.pkt.scount = count := by
  simp [and_assoc]

/-- An answer that names no outstanding operation finds none. -/
theorem State.findRemote_eq_none (s : State) (ctx die stream count : Nat) :
    s.findRemote ctx die stream count = none ↔
      ∀ q ∈ s.remotes, ¬ (q.ctx = ctx ∧ q.pkt.sdie = die ∧ q.pkt.stream = stream ∧ q.pkt.scount = count) := by
  simp only [State.findRemote, List.find?_eq_none, findRemote_test]

/-- An operation that is found is outstanding, and is the one that the answer names. -/
theorem State.findRemote_some {s : State} {ctx die stream count : Nat} {r : Remote} (h : s.findRemote ctx die stream count = some r) :
    r ∈ s.remotes ∧ r.ctx = ctx ∧ r.pkt.sdie = die ∧ r.pkt.stream = stream ∧ r.pkt.scount = count :=
  ⟨List.mem_of_find?_eq_some h, (findRemote_test r ctx die stream count).1 (List.find?_some (p := fun q : Remote => q.ctx == ctx && q.pkt.sdie == die && q.pkt.stream == stream && q.pkt.scount == count) h)⟩

theorem execDenial_eq (p : Packet) (s : State) (c : Ctx) (hk : p.kind = 5) (ha : s.arrives p = true) (hc : s.packetCtx p = some c) :
    execDenial p s = match s.findRemote c.num p.ddie p.stream p.scount with
      | some r => .next ((s.taken p).answer r (some (p.ext.toNat % 256)))
      | none => .next (s.taken p) := by
  unfold execDenial
  simp only [hk, ha, hc]
  rfl

theorem State.NoneWaits.taken {s : State} (h : s.NoneWaits) (p : Packet) : (s.taken p).NoneWaits := h

/-- A denial recorded in REMSTAT, where the issuing group is current (R28). -/
theorem State.withAnswer_remstat (s : State) (r : Remote) (reason : Nat) (hl : s.cur.live = true) (hg : s.cur.key = r.group) :
    (s.withAnswer r (some reason)).cur.remstat = s.cur.remstat.deny reason r.pkt.scount := by
  simp [State.withAnswer, State.updGroup, hl, hg]

/-- The work whose remote operations are more than the one answered has one fewer left. -/
theorem State.oneDone_remote_many (s : State) (k n : Nat) (x : Work) (hx : s.findWork k = some x) (hk : x.kind = .remote n) (hn : 1 < n) :
    (s.oneDone k).work = s.work.map fun w => if w.id = x.id then { w with kind := .remote (n - 1) } else w := by
  have hid : x.id = k := by simpa using List.find?_some hx
  subst hid
  unfold State.oneDone
  simp only [hx, hk]
  rw [if_neg (by omega)]
  simp only [beq_iff_eq]

/-- The work whose last remote operation is answered ends. -/
theorem State.oneDone_remote_last (s : State) (k n : Nat) (x : Work) (hx : s.findWork k = some x) (hk : x.kind = .remote n) (hn : n ≤ 1) :
    (s.oneDone k).work = s.work.filter fun w => w.id != x.id := by
  unfold State.oneDone
  simp only [hx, hk]
  rw [if_pos hn, State.finishWork_work]

/-- REMSTAT after a denial (R28): the first one's reason and count stand, the others are counted up to the field's end. -/
theorem RemStat.deny_eq (r : RemStat) (x : Word) (seq : Nat) :
    r.deny (x.toNat % 256) seq = if r.d then { r with count := if r.count = 0xFFFF then 0xFFFF else r.count + 1 }
      else { d := true, reason := BitVec.ofNat 8 x.toNat, count := 1, seq := BitVec.ofNat 32 seq } := by
  have hreason : BitVec.ofNat 8 (x.toNat % 256) = BitVec.ofNat 8 x.toNat := by
    apply BitVec.eq_of_toNat_eq; simp
  unfold RemStat.deny
  rw [hreason]
  split
  · congr 1
    split <;> simp_all
  · rfl

/-- A denial that names an outstanding operation. -/
theorem execDenial_some (p : Packet) (s : State) (c : Ctx) (r : Remote) (hk : p.kind = 5) (ha : s.arrives p = true)
    (hc : s.packetCtx p = some c) (hw : s.NoneWaits) (hr : s.findRemote c.num p.ddie p.stream p.scount = some r) :
    execDenial p s = .next (((s.taken p).withAnswer r (some (p.ext.toNat % 256))).oneDone r.work) := by
  rw [execDenial_eq p s c hk ha hc, hr, ← (hw.taken p).answer]

/-! ## Acknowledgements -/

/-- What one bit of the map does. -/
def State.ackOne (c : Ctx) (p : Packet) (t : State) (i : Nat) : State :=
  if p.ext.getLsbD i then
    match t.findRemote c.num p.ddie p.stream ((p.scount + i) % 2 ^ 64) with
    | some r => if isRread r.pkt then t else t.answer r none
    | none => t
  else t

theorem execAcknowledgement_eq (p : Packet) (s : State) (c : Ctx) (hk : p.kind = 4) (ha : s.arrives p = true)
    (hc : s.packetCtx p = some c) : execAcknowledgement p s = .next ((List.range 64).foldl (State.ackOne c p) (s.taken p)) := by
  unfold execAcknowledgement
  simp only [hk, ha, hc]
  rfl

/-- The operation that bit i of an acknowledgement's map ends. -/
def ackEnds (c : Ctx) (p : Packet) (i : Nat) (q : Remote) : Prop :=
  isRread q.pkt = false ∧ p.ext.getLsbD i = true ∧
    q.ctx = c.num ∧ q.pkt.sdie = p.ddie ∧ q.pkt.stream = p.stream ∧ q.pkt.scount = (p.scount + i) % 2 ^ 64

/-- The tag by which an answer names an operation (R371). -/
def Remote.tag (q : Remote) : Nat × Nat × Nat × Nat := (q.ctx, q.pkt.sdie, q.pkt.stream, q.pkt.scount)

/-- A list without repetition under a map gives equal elements for equal images. -/
theorem eq_of_nodup_map {α β : Type} {f : α → β} {l : List α} (h : (l.map f).Nodup) {a b : α} (ha : a ∈ l) (hb : b ∈ l) (he : f a = f b) :
    a = b := List.inj_on_of_nodup_map h ha hb he

/-- One bit of the map ends the operation that it names, unless that is a read; nothing else is outstanding less. -/
theorem State.ackOne_remotes (c : Ctx) (p : Packet) (t : State) (i : Nat) (hw : t.NoneWaits) (hid : (t.remotes.map (·.id)).Nodup)
    (htag : (t.remotes.map Remote.tag).Nodup) (q : Remote) :
    q ∈ (t.ackOne c p i).remotes ↔ q ∈ t.remotes ∧ ¬ ackEnds c p i q := by
  unfold State.ackOne
  split
  · rename_i hbit
    cases hr : t.findRemote c.num p.ddie p.stream ((p.scount + i) % 2 ^ 64) with
    | none =>
      have hnone := (t.findRemote_eq_none _ _ _ _).1 hr
      exact ⟨fun h => ⟨h, fun ⟨_, _, hn⟩ => hnone q h hn⟩, And.left⟩
    | some r =>
      obtain ⟨hmem, hc, hd, hs, hn⟩ := State.findRemote_some hr
      have hsame : q ∈ t.remotes → (q.ctx = c.num ∧ q.pkt.sdie = p.ddie ∧ q.pkt.stream = p.stream ∧
          q.pkt.scount = (p.scount + i) % 2 ^ 64) → q = r := fun hq ⟨h1, h2, h3, h4⟩ =>
        eq_of_nodup_map htag hq hmem (by simp only [Remote.tag, h1, h2, h3, h4, hc, hd, hs, hn])
      dsimp only
      split
      · rename_i hread
        refine ⟨fun h => ⟨h, fun ⟨hno, _, hname⟩ => ?_⟩, And.left⟩
        rw [hsame h hname, hread] at hno
        cases hno
      · rename_i hread
        rw [hw.answer_remotes, List.mem_filter]
        refine and_congr_right fun hq => ?_
        rw [bne_iff_ne, not_iff_not]
        constructor
        · intro he
          rw [eq_of_nodup_map hid hq hmem he]
          exact ⟨by simpa using hread, hbit, hc, hd, hs, hn⟩
        · intro ⟨_, _, hname⟩
          rw [hsame hq hname]
  · rename_i hbit
    exact ⟨fun h => ⟨h, fun ⟨_, hb, _⟩ => hbit hb⟩, And.left⟩

/-- What the acknowledgement of any number of operations keeps. -/
structure AckKeeps (s t : State) : Prop where
  noneWaits : t.NoneWaits
  sublist : t.remotes.Sublist s.remotes
  mem : t.mem = s.mem
  remstat : t.cur.remstat = s.cur.remstat

theorem State.ackOne_keeps (c : Ctx) (p : Packet) {s t : State} (i : Nat) (h : AckKeeps s t) : AckKeeps s (t.ackOne c p i) := by
  unfold State.ackOne
  split
  · split
    · split
      · exact h
      · rename_i r _ _
        exact ⟨h.noneWaits.answer_noneWaits r none, by rw [h.noneWaits.answer_remotes]; exact List.filter_sublist.trans h.sublist,
          by rw [h.noneWaits.answer_mem, h.mem], by rw [h.noneWaits.answer, State.oneDone_cur_remstat]; exact h.remstat⟩
    · exact h
  · exact h

/-- The whole map, bit by bit. -/
theorem foldl_ackOne (c : Ctx) (p : Packet) (s : State) (hw : s.NoneWaits) (hid : (s.remotes.map (·.id)).Nodup)
    (htag : (s.remotes.map Remote.tag).Nodup) (n : Nat) :
    let t := (List.range n).foldl (State.ackOne c p) s
    AckKeeps s t ∧ ∀ q, q ∈ t.remotes ↔ q ∈ s.remotes ∧ ¬ ∃ i < n, ackEnds c p i q := by
  induction n with
  | zero => exact ⟨⟨hw, .refl _, rfl, rfl⟩, by simp⟩
  | succ n ih =>
    obtain ⟨hkeeps, hmem⟩ := ih
    rw [List.range_succ, List.foldl_append]
    refine ⟨State.ackOne_keeps c p n hkeeps, fun q => ?_⟩
    rw [List.foldl_cons, List.foldl_nil, State.ackOne_remotes c p _ n hkeeps.noneWaits (hid.sublist (hkeeps.sublist.map _))
      (htag.sublist (hkeeps.sublist.map _)), hmem]
    constructor
    · rintro ⟨⟨hq, hno⟩, hn⟩
      refine ⟨hq, fun ⟨i, hi, he⟩ => ?_⟩
      obtain hlt | rfl := Nat.lt_succ_iff_lt_or_eq.1 hi
      · exact hno ⟨i, hlt, he⟩
      · exact hn he
    · rintro ⟨hq, hno⟩
      exact ⟨⟨hq, fun ⟨i, hi, he⟩ => hno ⟨i, by omega, he⟩⟩, fun he => hno ⟨n, by omega, he⟩⟩

theorem answersReceived : Claim.AnswersReceived := by
  intro s p c r x n ha hc hbulk hrec
  have hw : s.NoneWaits := ⟨hbulk, hrec⟩
  refine ⟨fun hk hno => ?_, fun hk hr => ?_, fun hk hid htag => ?_⟩
  · rw [exec_denial, execDenial_eq p s c hk ha hc, (s.findRemote_eq_none _ _ _ _).2 hno]
  · rw [exec_denial, execDenial_some p s c r hk ha hc hw hr]
    refine ⟨_, rfl, by simp [State.taken], by simp [State.taken], fun hl hg => ?_, fun hx hxk hn => ?_, fun hx hxk hn => ?_⟩
    · rw [State.oneDone_cur_remstat, State.withAnswer_remstat (s.taken p) r _ hl hg]
      exact RemStat.deny_eq _ _ _
    · rw [State.oneDone_remote_many _ r.work n x (by rw [← hx, State.findWork, State.findWork, State.withAnswer_work]; rfl) hxk hn,
        State.withAnswer_work]
      rfl
    · rw [State.oneDone_remote_last _ r.work n x (by rw [← hx, State.findWork, State.findWork, State.withAnswer_work]; rfl) hxk hn,
        State.withAnswer_work]
      rfl
  · rw [exec_acknowledgement, execAcknowledgement_eq p s c hk ha hc]
    obtain ⟨hkeeps, hmem⟩ := foldl_ackOne c p (s.taken p) (hw.taken p) hid htag 64
    refine ⟨_, rfl, hkeeps.mem, hkeeps.remstat, fun q => (hmem q).trans (and_congr_right fun _ => not_congr ?_)⟩
    exact ⟨fun ⟨i, hi, hread, hb, hn⟩ => ⟨hread, i, hi, hb, hn⟩, fun ⟨hread, i, hi, hb, hn⟩ => ⟨i, hi, hread, hb, hn⟩⟩

end Sys2Proof.Machine

/-! # The reply of a remote read (R226, R228, R353) -/

namespace Sys2Proof.Machine

/-- What a write-once step makes of a word (R226): the payload marked where the word is empty, the word where it holds the same or has been
in conflict, and otherwise the conflict marker. -/
def onceWord (w pay : Nat) : Nat :=
  if w < 2 ^ 63 then 2 ^ 63 + pay else if w = 2 ^ 64 - 1 ∨ w % 2 ^ 63 = pay then w else 2 ^ 64 - 1

/-- A word's highest bit tells whether it has been written. -/
theorem bit_63 (w : Nat) (hw : w < 2 ^ 64) : bit w 63 = decide (2 ^ 63 ≤ w) := by
  have h : w / 2 ^ 63 % 2 = if 2 ^ 63 ≤ w then 1 else 0 := by split <;> omega
  rw [bit, h]
  by_cases hb : 2 ^ 63 ≤ w
  · rw [if_pos hb, decide_eq_true hb]; rfl
  · rw [if_neg hb, decide_eq_false hb]; rfl

theorem onceStep_word (w pay : Nat) (hw : w < 2 ^ 64) (hp : pay < 2 ^ 63) : (onceStep w pay).1 = onceWord w pay := by
  unfold onceStep onceWord onceMarker
  rw [bit_63 w hw, Nat.mod_eq_of_lt hp]
  by_cases h : w < 2 ^ 63
  · rw [if_pos (by simpa using h), if_pos h]
  · rw [if_neg (by simpa using h), if_neg h]
    by_cases h1 : w = 2 ^ 64 - 1
    · rw [if_pos h1, if_pos (.inl h1)]
    · by_cases h2 : w % 2 ^ 63 = pay
      · rw [if_neg h1, if_pos h2, if_pos (.inr h2)]
      · rw [if_neg h1, if_neg h2, if_neg (not_or.2 ⟨h1, h2⟩)]

/-- The step is a transition where the word was empty. -/
theorem onceStep_transition (w pay : Nat) (hw : w < 2 ^ 64) : (onceStep w pay).2.1 = decide (w < 2 ^ 63) := by
  unfold onceStep
  rw [bit_63 w hw]
  by_cases h : w < 2 ^ 63
  · rw [if_pos (by simpa using h), decide_eq_true h]
  · rw [if_neg (by simpa using h), decide_eq_false h]
    split
    · rfl
    · split <;> rfl

theorem State.logConflict_onlyReports (s : State) (p : Packet) (ctx addr old new : Nat) :
    s.OnlyReports (s.logConflict p ctx addr old new) :=
  (s.count_onlyReports _ _).trans (State.logEvent_onlyReports _ _)

/-- A write-once step at a key writes its word, and reports a conflict (R226, R385). -/
theorem State.onceAt_onlyReports (s : State) (p : Packet) (ctx key pay : Nat) (hp : pay < 2 ^ 63) :
    (s.write key 8 (onceWord (s.read key 8) pay)).OnlyReports (s.onceAt p ctx key pay).1 := by
  rw [← onceStep_word _ pay (s.read_lt key 8) hp]
  unfold State.onceAt
  dsimp only
  split
  · exact State.logConflict_onlyReports _ _ _ _ _ _
  · exact .refl _

theorem State.onceAt_transition (s : State) (p : Packet) (ctx key pay : Nat) :
    (s.onceAt p ctx key pay).2 = decide (s.read key 8 < 2 ^ 63) := onceStep_transition _ pay (s.read_lt key 8)

/-- The next of the write-once steps at consecutive words, and the transitions so far. -/
def onceNext (p : Packet) (ctx key : Nat) (pay : Nat → Nat) (q : State × Nat) (i : Nat) : State × Nat :=
  let r := q.1.onceAt p ctx (key + 8 * i) (pay i); (r.1, if r.2 then q.2 + 1 else q.2)

/-- What n write-once steps at consecutive words leave and make. -/
structure OnceSteps (s t : State) (key n : Nat) (pay : Nat → Nat) : Prop where
  memOk : t.memOk
  word : ∀ i < n, t.read (key + 8 * i) 8 = onceWord (s.read (key + 8 * i) 8) (pay i)
  other : ∀ j, j < key ∨ key + 8 * n ≤ j → cellRead t.mem j = cellRead s.mem j
  remotes : t.remotes = s.remotes
  work : t.work = s.work

/-- Numbers outside the words of write-once steps are left. -/
theorem OnceSteps.read_other {s t : State} {key n : Nat} {pay : Nat → Nat} (h : OnceSteps s t key n pay) (k m : Nat)
    (hk : k + m ≤ key ∨ key + 8 * n ≤ k) : t.read k m = s.read k m :=
  State.read_congr _ _ _ _ fun j _ _ => h.other j (by omega)

/-- A word that holds a payload is a number of 64 bits. -/
theorem onceWord_lt (w pay : Nat) (hw : w < 2 ^ 64) (hp : pay < 2 ^ 63) : onceWord w pay < 2 ^ 64 := by
  unfold onceWord
  split
  · omega
  · split <;> omega

/-- Write-once steps at consecutive words: each word takes its own step, and the transitions are counted (R226). -/
theorem foldl_onceNext (p : Packet) (ctx key : Nat) (pay : Nat → Nat) (hp : ∀ i, pay i < 2 ^ 63) (s : State) (hm : s.memOk) (n : Nat) :
    let q := (List.range n).foldl (onceNext p ctx key pay) (s, 0)
    OnceSteps s q.1 key n pay ∧ q.2 = ((List.range n).filter fun i => decide (s.read (key + 8 * i) 8 < 2 ^ 63)).length := by
  induction n with
  | zero => exact ⟨⟨hm, by simp, fun _ _ => rfl, rfl, rfl⟩, rfl⟩
  | succ n ih =>
    rw [List.range_succ, List.foldl_append, List.filter_append, List.length_append]
    obtain ⟨hs, hcount⟩ := ih
    generalize (List.range n).foldl (onceNext p ctx key pay) (s, 0) = q at hs hcount
    have hold : q.1.read (key + 8 * n) 8 = s.read (key + 8 * n) 8 := hs.read_other _ _ (by omega)
    have hrep := q.1.onceAt_onlyReports p ctx (key + 8 * n) (pay n) (hp n)
    have hmem := hrep.mem
    simp only [List.foldl_cons, List.foldl_nil, onceNext]
    refine ⟨⟨?_, fun i hi => ?_, fun j hj => ?_, ?_, ?_⟩, ?_⟩
    · rw [State.memOk, hmem]
      exact q.1.memOk_write _ _ _ hs.memOk
    · rw [State.read_of_mem hmem]
      obtain hlt | rfl := Nat.lt_succ_iff_lt_or_eq.1 hi
      · rw [State.read_write_other _ _ _ _ _ _ (by omega), hs.word i hlt]
      · rw [State.read_write_self _ _ _ _ hs.memOk, hold]
        exact Nat.mod_eq_of_lt (onceWord_lt _ _ (s.read_lt _ 8) (hp i))
    · rw [hmem, State.cellRead_write_other _ _ _ _ _ (by omega), hs.other j (by omega)]
    · rw [hrep]; exact hs.remotes
    · rw [hrep]; exact hs.work
    · rw [State.onceAt_transition, hold, hcount, List.filter_singleton]
      cases decide (s.read (key + 8 * n) 8 < 2 ^ 63) <;> rfl

theorem execRreadReply_eq (p : Packet) (s : State) (c : Ctx) (hk : p.kind = 3) (ha : s.arrives p = true) (hc : s.packetCtx p = some c) :
    execRreadReply p s = match s.replyKey p c.num with
      | .later => .next (s.keep p)
      | .at key _ =>
        if s.heldRow key 16 || s.heldRow (key - p.addr.toNat % 256) 8 then .next ((s.taken p).defer p (frameStack key) (Config.bankOf key))
        else .next ((s.taken p).landReply p c key)
      | _ => .next (s.taken p) := by
  unfold execRreadReply
  simp only [hk, ha, hc]
  rfl

/-- The state in which a reply's words and its arrival are written, and the read that it answers is still outstanding (R228). -/
def State.replyWritten (s : State) (p : Packet) (c : Ctx) (key : Nat) : State :=
  let q := (List.range (if p.width = 8 then 2 else 1)).foldl
    (onceNext p c.num key fun i => bits p.value.toNat (32 * i + 31) (32 * i)) (s, 0)
  if q.2 = 0 then q.1 else q.1.addArrival (key - p.addr.toNat % 256) q.2

theorem State.landReply_eq (s : State) (p : Packet) (c : Ctx) (key : Nat) :
    s.landReply p c key = match (s.replyWritten p c key).findRemote c.num p.ddie p.reqStream p.ext.toNat with
      | some r => (s.replyWritten p c key).answer r none
      | none => s.replyWritten p c key := rfl

/-- The words of a reply and the arrival word of its block, which lies before the slot (R228). -/
theorem State.replyWritten_spec (s : State) (p : Packet) (c : Ctx) (key : Nat) (hm : s.memOk) (hb : key - p.addr.toNat % 256 + 8 ≤ key) :
    let t := s.replyWritten p c key
    let arr := key - p.addr.toNat % 256
    let n := if p.width = 8 then 2 else 1
    let fresh := ((List.range n).filter fun i => decide (s.read (key + 8 * i) 8 < 2 ^ 63)).length
    (∀ i < n, t.read (key + 8 * i) 8 = onceWord (s.read (key + 8 * i) 8) (p.value.toNat / 2 ^ (32 * i) % 2 ^ 32)) ∧
    t.read arr 8 = (if fresh = 0 then s.read arr 8 else arrAdd (s.read arr 8) fresh % 2 ^ 64) ∧
    (∀ j, j < key ∨ key + 8 * n ≤ j → j < arr ∨ arr + 8 ≤ j → cellRead t.mem j = cellRead s.mem j) ∧
    t.remotes = s.remotes ∧ t.work = s.work := by
  have hbits : ∀ i, bits p.value.toNat (32 * i + 31) (32 * i) = p.value.toNat / 2 ^ (32 * i) % 2 ^ 32 := by
    intro i
    rw [bits, show 32 * i + 31 + 1 - 32 * i = 32 by omega]
  have hpay : ∀ i, bits p.value.toNat (32 * i + 31) (32 * i) < 2 ^ 63 := by
    intro i
    rw [hbits]
    omega
  obtain ⟨hs, hcount⟩ := foldl_onceNext p c.num key _ hpay s hm (if p.width = 8 then 2 else 1)
  unfold State.replyWritten
  dsimp only
  rw [← hcount]
  generalize (if p.width = 8 then 2 else 1) = n at *
  generalize (List.range n).foldl (onceNext p c.num key _) (s, 0) = q at *
  have harr : q.1.read (key - p.addr.toNat % 256) 8 = s.read (key - p.addr.toNat % 256) 8 := hs.read_other _ _ (by omega)
  by_cases h0 : q.2 = 0
  · simp only [if_pos h0]
    exact ⟨fun i hi => by rw [hs.word i hi, hbits], harr, fun j hj _ => hs.other j hj, hs.remotes, hs.work⟩
  · simp only [if_neg h0, State.addArrival]
    refine ⟨fun i hi => ?_, ?_, fun j hj hj' => ?_, hs.remotes, hs.work⟩
    · rw [State.read_write_other _ _ _ _ _ _ (by omega), hs.word i hi, hbits]
    · rw [State.read_write_self _ _ _ _ hs.memOk, harr]
      rfl
    · rw [State.cellRead_write_other _ _ _ _ _ hj', hs.other j hj]

theorem readReplied : Claim.ReadReplied := by
  intro s p c key hm hk ha hc hbulk hrec
  have hw : s.NoneWaits := ⟨hbulk, hrec⟩
  simp only [exec_rreadReply, execRreadReply_eq p s c hk ha hc]
  refine ⟨fun r hr => by simp only [hr], fun hr => by simp only [hr], fun l hr hh => ?_, fun l hr hh hb => ?_⟩
  · simp only [hr]
    rw [if_pos (by simpa using hh)]
    rfl
  · simp only [hr]
    rw [if_neg (by simpa using hh), State.landReply_eq]
    obtain ⟨hword, harr, hother, hremotes, hwork⟩ := (s.taken p).replyWritten_spec p c key hm hb
    have hw' : ((s.taken p).replyWritten p c key).NoneWaits := by
      unfold State.NoneWaits
      rwa [hwork]
    have hfind : ((s.taken p).replyWritten p c key).findRemote c.num p.ddie p.reqStream p.ext.toNat =
        s.findRemote c.num p.ddie p.reqStream p.ext.toNat := by
      rw [State.findRemote, hremotes]; rfl
    rw [hfind]
    cases hf : s.findRemote c.num p.ddie p.reqStream p.ext.toNat with
    | none => exact ⟨_, rfl, hword, harr, hother, nofun, fun _ => hremotes⟩
    | some r =>
      have hmem := hw'.answer_mem r none
      refine ⟨_, rfl, fun i hi => ?_, ?_, fun j hj hj' => ?_, fun r' he => ?_, nofun⟩
      · rw [State.read_of_mem hmem]; exact hword i hi
      · rw [State.read_of_mem hmem]; exact harr
      · rw [hmem]; exact hother j hj hj'
      · cases he
        rw [hw'.answer_remotes, hremotes]
        rfl

end Sys2Proof.Machine

/-! # What the sender and the home send (R220, R222, R352, R372, R389) -/

namespace Sys2Proof.Machine

theorem exec_ackSend (die : Nat) (s : State) : exec (.ackSend die) s = execAckSend die s := rfl
theorem exec_retransmit (id : Nat) (s : State) : exec (.retransmit id) s = execRetransmit id s := rfl

/-- Sending a packet changes what is under way and the fibres, and nothing else. -/
theorem State.emit_frame (s : State) (p : Packet) : s.emit p = { s with
    inflight := (s.emit p).inflight, heldOut := (s.emit p).heldOut, outbox := (s.emit p).outbox, fibres := (s.emit p).fibres } := by
  unfold State.emit State.transmit
  split
  · rfl
  · split
    · rfl
    · split <;> rfl

@[simp] theorem State.emit_acks (s : State) (p : Packet) : (s.emit p).acks = s.acks := by rw [s.emit_frame]
@[simp] theorem State.emit_remotes (s : State) (p : Packet) : (s.emit p).remotes = s.remotes := by rw [s.emit_frame]

/-! ## Acknowledgements leave (R372) -/

/-- The map of an acknowledgement: a bit for each count, from the lowest. -/
def ackMap (lo : Nat) (l : List Ack) : Word := l.foldl (fun (m : Word) b => m ||| BitVec.twoPow 64 (b.scount - lo)) 0

theorem ackMap_getLsbD (lo : Nat) (l : List Ack) (i : Nat) (hi : i < 64) (hlo : ∀ b ∈ l, lo ≤ b.scount) :
    (ackMap lo l).getLsbD i = true ↔ ∃ b ∈ l, b.scount = lo + i := by
  suffices h : ∀ m : Word, (l.foldl (fun (m : Word) b => m ||| BitVec.twoPow 64 (b.scount - lo)) m).getLsbD i = true ↔
      m.getLsbD i = true ∨ ∃ b ∈ l, b.scount = lo + i by
    simpa [ackMap] using h 0
  induction l with
  | nil => simp
  | cons b l ih =>
    intro m
    have hb := hlo b (by simp)
    rw [List.foldl_cons, ih fun x hx => hlo x (by simp [hx]), BitVec.getLsbD_or, BitVec.getLsbD_twoPow, List.exists_mem_cons_iff]
    have hbit : (decide (b.scount - lo < 64) && decide (b.scount - lo = i)) = true ↔ b.scount = lo + i := by
      rw [Bool.and_eq_true, decide_eq_true_eq, decide_eq_true_eq]
      omega
    rw [Bool.or_eq_true, hbit, or_assoc]

/-- The least of the counts of a list and one more. -/
theorem foldl_min_scount (l : List Ack) (m : Nat) :
    let lo := l.foldl (fun m b => min m b.scount) m
    (lo = m ∨ ∃ b ∈ l, b.scount = lo) ∧ lo ≤ m ∧ ∀ b ∈ l, lo ≤ b.scount := by
  induction l generalizing m with
  | nil => simp
  | cons b l ih =>
    obtain ⟨hmem, hle, hall⟩ := ih (min m b.scount)
    rw [List.foldl_cons]
    refine ⟨?_, by omega, List.forall_mem_cons.2 ⟨by omega, hall⟩⟩
    obtain h | ⟨x, hx, h⟩ := hmem
    · by_cases hm : m ≤ b.scount
      · exact .inl (by omega)
      · exact .inr ⟨b, by simp, by omega⟩
    · exact .inr ⟨x, by simp [hx], h⟩

/-- The acknowledgements that leave with a's: those of its source stream at a die. -/
def Ack.like (die : Nat) (a b : Ack) : Prop :=
  b.die = die ∧ b.ctx = a.ctx ∧ b.fabid = a.fabid ∧ b.pkg = a.pkg ∧ b.sdie = a.sdie ∧ b.stream = a.stream

theorem Ack.like_iff (die : Nat) (a b : Ack) : a.like die b ↔ (b.die == die && b.ctx == a.ctx && b.fabid == a.fabid && b.pkg == a.pkg &&
    b.sdie == a.sdie && b.stream == a.stream) = true := by
  simp [Ack.like, and_assoc]

theorem execAckSend_none (die : Nat) (s : State) (h : ∀ b ∈ s.acks, b.die = die → b.pkg ≠ s.pkgid ∧ s.holding = true) :
    execAckSend die s = .next s := by
  have hnone : (s.acks.find? fun a => a.die == die && (a.pkg == s.pkgid || !s.holding)) = none := by
    rw [List.find?_eq_none]
    intro b hb
    have := h b hb
    simpa using this
  unfold execAckSend
  rw [hnone]

/-- The acknowledgements of a's stream that are queued, the lowest count of them, and those that leave in one map. -/
def State.acksLike (s : State) (die : Nat) (a : Ack) : List Ack :=
  s.acks.filter fun b => b.die == die && b.ctx == a.ctx && b.fabid == a.fabid && b.pkg == a.pkg && b.sdie == a.sdie && b.stream == a.stream
def State.ackLow (s : State) (die : Nat) (a : Ack) : Nat := (s.acksLike die a).foldl (fun m b => min m b.scount) a.scount
def State.acksSent (s : State) (die : Nat) (a : Ack) : List Ack := (s.acksLike die a).filter fun b => b.scount < s.ackLow die a + 64

/-- The packet of a stream's acknowledgements (R370, R372). -/
def State.ackPacketOf (s : State) (die : Nat) (a : Ack) : Packet :=
  { kind := 4, op := 0, dpkg := a.pkg, ddie := a.sdie, relayed := false, spkg := s.pkgid, sdie := die, stream := a.stream, fabid := a.fabid,
    scount := s.ackLow die a, addr := 0, ext := ackMap (s.ackLow die a) (s.acksSent die a), ctx := a.ctx }

theorem execAckSend_some (die : Nat) (s : State) (a : Ack)
    (h : (s.acks.find? fun b => b.die == die && (b.pkg == s.pkgid || !s.holding)) = some a) :
    execAckSend die s = .next (({ s with acks := s.acks.filter fun b => !(s.acksSent die a).contains b } : State).emit
      (s.ackPacketOf die a)) := by
  unfold execAckSend
  rw [h]
  rfl

theorem State.mem_acksLike (s : State) (die : Nat) (a b : Ack) : b ∈ s.acksLike die a ↔ b ∈ s.acks ∧ a.like die b := by
  rw [State.acksLike, List.mem_filter, Ack.like_iff]

theorem State.mem_acksSent (s : State) (die : Nat) (a b : Ack) :
    b ∈ s.acksSent die a ↔ b ∈ s.acks ∧ a.like die b ∧ b.scount < s.ackLow die a + 64 := by
  rw [State.acksSent, List.mem_filter, State.mem_acksLike, decide_eq_true_eq, and_assoc]

/-- The lowest count of a stream's acknowledgements is one of theirs. -/
theorem State.ackLow_spec (s : State) (die : Nat) (a : Ack) (ha : a ∈ s.acks) (hd : a.die = die) :
    (∃ b ∈ s.acks, a.like die b ∧ b.scount = s.ackLow die a) ∧ ∀ b ∈ s.acks, a.like die b → s.ackLow die a ≤ b.scount := by
  obtain ⟨hmem, -, hall⟩ := foldl_min_scount (s.acksLike die a) a.scount
  refine ⟨?_, fun b hb hl => hall b ((s.mem_acksLike die a b).2 ⟨hb, hl⟩)⟩
  obtain h | ⟨b, hb, h⟩ := hmem
  · exact ⟨a, ha, ⟨hd, rfl, rfl, rfl, rfl, rfl⟩, h.symm⟩
  · obtain ⟨hb, hl⟩ := (s.mem_acksLike die a b).1 hb
    exact ⟨b, hb, hl, h⟩

/-! ## Retransmission (R220) -/

/-- The state in which an operation has left again with a packet (R220). -/
def State.sentAgain (s : State) (id : Nat) (p : Packet) : State :=
  ({ s with remotes := s.remotes.map fun (q : Remote) => if q.id == id then { q with sent := s.ns, pkt := p } else q } : State).emit p

theorem execRetransmit_wait (id : Nat) (s : State) (r : Remote) (h : s.remotes.find? (fun q => q.id == id) = some r)
    (hw : s.ns < r.sent + 120000 ∨ (s.holding = true ∧ r.pkt.dpkg ≠ s.pkgid)) : execRetransmit id s = .next s := by
  unfold execRetransmit
  simp only [h]
  rw [if_pos (by simpa using hw)]

theorem execRetransmit_due (id : Nat) (s : State) (r : Remote) (h : s.remotes.find? (fun q => q.id == id) = some r)
    (ht : r.sent + 120000 ≤ s.ns) (hh : ¬ (s.holding = true ∧ r.pkt.dpkg ≠ s.pkgid)) :
    execRetransmit id s = match r.src with
      | none => .next (s.sentAgain id r.pkt)
      | some src =>
        if s.lineHeld src then .next (s.noteHeld src)
        else if s.linePoison src then .next ((s.noteLine src r.ctx).answer r (some 0x0A))
        else .next (s.sentAgain id (s.linePacket src r.pkt)) := by
  have hn : ¬ (decide (s.ns < r.sent + 120000) || (s.holding && r.pkt.dpkg != s.pkgid)) = true := by
    simp only [Bool.or_eq_true, Bool.and_eq_true, decide_eq_true_eq, bne_iff_ne, not_or]
    exact ⟨by omega, hh⟩
  unfold execRetransmit
  simp only [h]
  rw [if_neg hn]
  rfl

theorem answersSent : Claim.AnswersSent := by
  intro s die id a r
  simp only [exec_ackSend, exec_retransmit]
  refine ⟨execAckSend_none die s, fun h => ?_, fun h => ⟨execRetransmit_wait id s r h, fun src ht hh hsrc hheld => ?_,
    fun src ht hh hsrc hheld hp => ?_, fun ht hh hgood => ?_⟩⟩
  · have ha : a ∈ s.acks := List.mem_of_find?_eq_some h
    have hd : a.die = die := by
      have := List.find?_some h
      simp only [Bool.and_eq_true, beq_iff_eq] at this
      exact this.1
    obtain ⟨hex, hlow⟩ := s.ackLow_spec die a ha hd
    rw [execAckSend_some die s a h]
    refine ⟨_, s.ackPacketOf die a, s.ackLow die a, rfl, ?_, rfl, rfl, rfl, rfl, rfl, rfl, rfl, hex, hlow, fun i hi => ?_, fun b => ?_⟩
    · rw [State.emit_acks, State.emit_remotes]
    · refine (ackMap_getLsbD _ _ i hi fun b hb => ?_).trans ?_
      · obtain ⟨hb, hl, -⟩ := (s.mem_acksSent die a b).1 hb
        exact hlow b hb hl
      · simp only [State.mem_acksSent]
        exact ⟨fun ⟨b, ⟨hb, hl, _⟩, he⟩ => ⟨b, hb, hl, he⟩, fun ⟨b, hb, hl, he⟩ => ⟨b, ⟨hb, hl, by omega⟩, he⟩⟩
    · rw [State.emit_acks, List.mem_filter]
      refine and_congr_right fun hb => ?_
      rw [Bool.not_eq_true', ← Bool.not_eq_true, List.contains_iff_mem, State.mem_acksSent]
      exact not_congr ⟨fun ⟨_, hl, hlt⟩ => ⟨hl, hlt⟩, fun ⟨hl, hlt⟩ => ⟨hb, hl, hlt⟩⟩
  · rw [execRetransmit_due id s r h ht hh, hsrc]
    exact if_pos hheld
  · rw [execRetransmit_due id s r h ht hh, hsrc]
    exact (if_neg (Bool.eq_false_iff.1 hheld)).trans (if_pos hp)
  · rw [execRetransmit_due id s r h ht hh]
    cases hsrc : r.src with
    | none =>
      refine ⟨_, r.pkt, rfl, ?_, by simp [State.sentAgain], rfl, by simp [State.sentAgain]⟩
      simp [State.sentAgain]
    | some src =>
      have hg := hgood src hsrc
      dsimp only
      rw [if_neg (by simpa [State.lineHeld] using fun a b hab => (hg (a, b) hab).1),
        if_neg (by simpa [State.linePoison] using fun a b hab => (hg (a, b) hab).2)]
      refine ⟨_, s.linePacket src r.pkt, rfl, ?_, by simp [State.sentAgain], rfl, by simp [State.sentAgain]⟩
      simp [State.sentAgain]

/-- Settles O55: an answer ends what it names, a reply writes its slot, and what is not answered leaves again. -/
theorem answersReachTheSender : Obligations.AnswersReachTheSender := ⟨answersReceived, readReplied, answersSent⟩

end Sys2Proof.Machine

/-! # The times of placement and the parts of a save area (R310, R314, R315, R317) -/

namespace Sys2Proof.Machine

/-! ## Windows clear of each other, and the free parts of a save area -/

/-- Two windows have no byte in common (one of no bytes is clear of all that it does not lie inside). -/
def Window.Clear (v w : Window) : Prop := v.base + v.size ≤ w.base ∨ w.base + w.size ≤ v.base

theorem Window.Clear.symm {v w : Window} (h : v.Clear w) : w.Clear v := Or.symm h

/-- A part of a window from its base on is clear of what the window is clear of. -/
theorem Window.Clear.shrink {v w : Window} (h : v.Clear w) {n : Nat} (hn : n ≤ v.size) : ({ base := v.base, size := n } : Window).Clear w := by
  unfold Window.Clear at *
  simp only
  omega

/-- One step of `freeParts`: the gap below a part that is taken, if there is one, and the first byte above it. -/
def gapStep (limit : Nat) (q : Nat × List Window) (w : Window) : Nat × List Window :=
  (max q.1 (w.base + w.size), if q.1 < min limit w.base then q.2 ++ [{ base := q.1, size := min limit w.base - q.1 }] else q.2)

theorem freeParts_eq (limit : Nat) (taken : List Window) : freeParts limit taken =
    (fun q : Nat × List Window => if q.1 < limit then q.2 ++ [{ base := q.1, size := limit - q.1 }] else q.2)
      ((taken.insertionSort fun v w => v.base ≤ w.base).foldl (gapStep limit) (0, [])) := rfl

/-- What `freeParts` has found so far: parts between two bounds, inside the limit, clear of each other and of the parts that are taken. -/
structure Gaps (limit lo hi : Nat) (taken new : List Window) : Prop where
  bounds : ∀ v ∈ new, lo ≤ v.base ∧ v.base + v.size ≤ limit ∧ v.base + v.size ≤ hi
  clear : ∀ v ∈ new, ∀ w ∈ taken, v.Clear w
  pairwise : new.Pairwise Window.Clear

theorem gapStep_fold (limit : Nat) (l : List Window) (hl : l.Pairwise fun v w => v.base ≤ w.base) (lo : Nat) (gaps : List Window) :
    ∃ hi new, l.foldl (gapStep limit) (lo, gaps) = (hi, gaps ++ new) ∧ lo ≤ hi ∧ (∀ w ∈ l, w.base + w.size ≤ hi) ∧ Gaps limit lo hi l new := by
  induction l generalizing lo gaps with
  | nil => exact ⟨lo, [], by simp, le_refl _, by simp, by simp, by simp, .nil⟩
  | cons w r ih =>
    obtain ⟨hw, hr⟩ := List.pairwise_cons.mp hl
    obtain ⟨hi, new, he, hlo, hin, hg⟩ := ih hr (gapStep limit (lo, gaps) w).1 (gapStep limit (lo, gaps) w).2
    simp only [gapStep] at he hlo hg
    have hwhi : w.base + w.size ≤ hi := by omega
    have hnew : ∀ v ∈ new, v.Clear w := fun v hv => .inr (by have := (hg.bounds v hv).1; omega)
    by_cases hc : lo < min limit w.base
    · refine ⟨hi, { base := lo, size := min limit w.base - lo } :: new, ?_, by omega, by simpa using ⟨hwhi, hin⟩, ?_, ?_, ?_⟩
      · rw [if_pos hc, List.append_assoc, List.singleton_append] at he
        rw [List.foldl_cons, gapStep, if_pos hc, he]
      · simp only [List.forall_mem_cons]
        exact ⟨by omega, fun v hv => by have := hg.bounds v hv; omega⟩
      · simp only [List.forall_mem_cons]
        refine ⟨⟨.inl (by simp only; omega), fun z hz => .inl ?_⟩, fun v hv => ⟨hnew v hv, hg.clear v hv⟩⟩
        have := hw z hz
        simp only
        omega
      · refine List.pairwise_cons.mpr ⟨fun v hv => .inl ?_, hg.pairwise⟩
        have := (hg.bounds v hv).1
        simp only
        omega
    · refine ⟨hi, new, ?_, by omega, by simpa using ⟨hwhi, hin⟩, fun v hv => ?_, ?_, hg.pairwise⟩
      · rw [if_neg hc] at he
        rw [List.foldl_cons, gapStep, if_neg hc, he]
      · have := hg.bounds v hv
        omega
      · exact fun v hv => List.forall_mem_cons.mpr ⟨hnew v hv, hg.clear v hv⟩

/-- The free parts of a save area lie inside it, clear of each other and of what is set aside. -/
theorem freeParts_gaps (limit : Nat) (taken : List Window) : Gaps limit 0 limit taken (freeParts limit taken) := by
  have : Std.Total fun v w : Window => v.base ≤ w.base := ⟨fun v w => le_total v.base w.base⟩
  have : IsTrans Window fun v w => v.base ≤ w.base := ⟨fun _ _ _ => le_trans⟩
  obtain ⟨hi, new, he, -, hin, hg⟩ := gapStep_fold limit _ (List.pairwise_insertionSort (fun v w : Window => v.base ≤ w.base) taken) 0 []
  have hclear : ∀ v ∈ new, ∀ w ∈ taken, v.Clear w := fun v hv w hw => hg.clear v hv w ((List.mem_insertionSort _).mpr hw)
  rw [freeParts_eq, he]
  simp only [List.nil_append]
  split
  next hlt =>
    refine ⟨fun v hv => ?_, fun v hv w hw => ?_, List.pairwise_append.mpr ⟨hg.pairwise, by simp, fun v hv w hw => .inl ?_⟩⟩
    · rcases List.mem_append.mp hv with hv | hv
      · have := hg.bounds v hv
        omega
      · obtain rfl := List.mem_singleton.mp hv
        simp only
        omega
    · rcases List.mem_append.mp hv with hv | hv
      · exact hclear v hv w hw
      · obtain rfl := List.mem_singleton.mp hv
        exact .inr (hin w ((List.mem_insertionSort _).mpr hw))
    · obtain rfl := List.mem_singleton.mp hw
      exact (hg.bounds v hv).2.2
  next =>
    refine ⟨fun v hv => ?_, hclear, hg.pairwise⟩
    have := hg.bounds v hv
    omega

/-- What is taken of some parts is a list of their beginnings, in order, which hold the bytes wanted. -/
theorem takeParts_spec : ∀ (parts : List Window) (n : Nat) (ws : List Window), takeParts parts n = some ws →
    (ws.map (·.size)).sum = n ∧ (∀ w ∈ ws, ∃ v ∈ parts, w.base = v.base ∧ w.size ≤ v.size) ∧
      (parts.Pairwise Window.Clear → ws.Pairwise Window.Clear)
  | [], n, ws, h => by
    simp only [takeParts, Option.ite_none_right_eq_some, Option.some.injEq] at h
    obtain ⟨rfl, rfl⟩ := h
    simp
  | v :: r, n, ws, h => by
    by_cases hn : n = 0
    · simp only [takeParts, if_pos hn, Option.some.injEq] at h
      subst hn h
      simp
    · simp only [takeParts, if_neg hn, Option.map_eq_some_iff] at h
      obtain ⟨us, hus, rfl⟩ := h
      obtain ⟨hsum, hsub, hpw⟩ := takeParts_spec r _ us hus
      refine ⟨?_, ?_, fun hp => ?_⟩
      · simp only [List.map_cons, List.sum_cons, hsum]
        omega
      · simp only [List.forall_mem_cons]
        exact ⟨⟨v, List.mem_cons_self, rfl, min_le_right _ _⟩, fun w hw => by
          obtain ⟨z, hz, hb⟩ := hsub w hw
          exact ⟨z, List.mem_cons_of_mem _ hz, hb⟩⟩
      · obtain ⟨hv, hr⟩ := List.pairwise_cons.mp hp
        refine List.pairwise_cons.mpr ⟨fun w hw => ?_, hpw hr⟩
        obtain ⟨z, hz, hb, hs⟩ := hsub w hw
        have hw' : w = { base := z.base, size := w.size } := by rw [← hb]
        rw [hw']
        exact (((hv z hz).symm.shrink hs).symm.shrink (min_le_right _ _))

theorem State.areasFor_singleton (s : State) (x : Team) : s.areasFor [x] =
    (takeParts (freeParts (s.ctx (s.launch x.launch).ctx).savesize (s.areasTaken (s.launch x.launch).ctx)) (s.saveNeed x)).bind fun ws =>
      if ws.all (s.areaUsable (s.launch x.launch).ctx) then some [(x.key, ws)] else none := rfl

/-- The parts of the save area that a team is given (R317). -/
theorem State.areasFor_one (s : State) (x : Team) (q : List (Nat × List Window)) (h : s.areasFor [x] = some q) :
    ∃ ws, q = [(x.key, ws)] ∧ (ws.map (·.size)).sum = s.saveNeed x ∧ ws.Pairwise Window.Clear ∧
      ∀ w ∈ ws, w.base + w.size ≤ (s.ctx (s.launch x.launch).ctx).savesize ∧
        ∀ y ∈ s.teams, (s.launch y.launch).ctx = (s.launch x.launch).ctx → ∀ v ∈ y.area, v.Clear w := by
  simp only [State.areasFor_singleton, Option.bind_eq_some_iff, Option.ite_none_right_eq_some, Option.some.injEq] at h
  obtain ⟨ws, hws, -, rfl⟩ := h
  obtain ⟨hsum, hsub, hpw⟩ := takeParts_spec _ _ _ hws
  have hg := freeParts_gaps (s.ctx (s.launch x.launch).ctx).savesize (s.areasTaken (s.launch x.launch).ctx)
  refine ⟨ws, rfl, hsum, hpw hg.pairwise, fun w hw => ?_⟩
  obtain ⟨z, hz, hb, hs⟩ := hsub w hw
  refine ⟨by have := hg.bounds z hz; omega, fun y hy hc v hv => ?_⟩
  have hv' : v ∈ s.areasTaken (s.launch x.launch).ctx :=
    List.mem_flatMap.mpr ⟨y, List.mem_filter.mpr ⟨hy, by simpa using hc⟩, hv⟩
  have hw' : w = { base := z.base, size := w.size } := by rw [← hb]
  rw [hw']
  exact ((hg.clear z hz v hv').shrink hs).symm

/-! ## One team among those of the machine -/

section
variable {s : State} {x : Team} (hk : ∀ y ∈ s.teams, y.key = x.key → y = x)
include hk

theorem State.team_of_mem (hx : x ∈ s.teams) : s.team x.key = x := by
  unfold State.team
  cases h : s.teams.find? fun t => t.key == x.key with
  | none => exact absurd (List.find?_eq_none.mp h x hx) (by simp)
  | some y => exact hk y (List.mem_of_find?_eq_some h) (by simpa using List.find?_some h)

theorem State.updTeam_of_mem (f : Team → Team) :
    s.updTeam x.key f = { s with teams := s.teams.map fun z => if z.key = x.key then f x else z } := by
  have : (s.teams.map fun t => if t.key == x.key then f t else t) = s.teams.map fun z => if z.key = x.key then f x else z := by
    refine List.map_congr_left fun z hz => ?_
    by_cases h : z.key = x.key
    · simp [hk z hz h]
    · simp [h]
  rw [State.updTeam, this]

theorem State.updTeam_fixed (f : Team → Team) (hf : f x = x) : s.updTeam x.key f = s := by
  have : (s.teams.map fun z => if z.key = x.key then f x else z) = s.teams := by
    conv_rhs => rw [← List.map_id s.teams]
    refine List.map_congr_left fun z hz => ?_
    by_cases h : z.key = x.key
    · simp [hk z hz h, hf]
    · simp [h]
  rw [State.updTeam_of_mem hk, this]

theorem State.setVictims_one (f : Team → Victim) : s.setVictims [x] f = { s with teams := s.teams.map fun z => if z.key = x.key then
    { x with victim := f x
             area := if (f x).saves then ((((s.areasFor [x]).getD []).find? fun q => q.1 == x.key).map (·.2)).getD [] else x.area }
    else z } := by
  unfold State.setVictims
  dsimp only
  congr 1
  refine List.map_congr_left fun z hz => ?_
  by_cases h : z.key = x.key
  · obtain rfl := hk z hz h
    simp
  · simp [h, Ne.symm h]

end

/-! ## The three events -/

theorem exec_placementWaitExpiry (key : Nat) (s : State) : exec (.placementWaitExpiry key) s = execPlacementWaitExpiry key s := rfl
theorem exec_savePointTimeout (key : Nat) (s : State) : exec (.savePointTimeout key) s = execSavePointTimeout key s := rfl
theorem exec_drainBudgetExpiry (key : Nat) (s : State) : exec (.drainBudgetExpiry key) s = execDrainBudgetExpiry key s := rfl

/-- DRAIN_BUDGET_EXPIRY for a team that goes on its own and has spent its budget (R314, R317). -/
theorem execDrainBudgetExpiry_spent {s : State} {x : Team} (hx : x ∈ s.teams) (hk : ∀ y ∈ s.teams, y.key = x.key → y = x) {n : Nat}
    (hv : x.victim = .drain n) (hc : (s.launch x.launch).coop = false) (hn : n ≤ s.retiredOf x) :
    execDrainBudgetExpiry x.key s = .next (s.setVictims [x] fun _ => if s.saveRoom [x] then .save s.now false else .drainFree) := by
  have ht : s.together x = [x] := by simp [State.together, hc]
  unfold execDrainBudgetExpiry
  dsimp only
  rw [State.team_of_mem hk hx, hv, ht]
  exact if_neg (Nat.not_lt.mpr hn)

theorem execDrainBudgetExpiry_kept {s : State} {x : Team} (hx : x ∈ s.teams) (hk : ∀ y ∈ s.teams, y.key = x.key → y = x)
    (h : ∀ n, x.victim = .drain n → s.retiredOf x < n) : execDrainBudgetExpiry x.key s = .next s := by
  unfold execDrainBudgetExpiry
  dsimp only
  rw [State.team_of_mem hk hx]
  cases hv : x.victim with
  | drain n => exact if_pos (h n hv)
  | _ => rfl

theorem placementTimes : Claim.PlacementTimes := by
  intro s key n x hx hnd hkey
  subst hkey
  have hk : ∀ y ∈ s.teams, y.key = x.key → y = x := fun y hy he => List.inj_on_of_nodup_map hnd hy hx he
  dsimp only
  refine ⟨fun hst => ⟨fun hn => ?_, fun hn => ?_⟩, fun b hst => ⟨fun hn => ?_, fun hn => ?_⟩, fun hst => ?_,
    fun hv => ⟨fun hn => ?_, fun hn => ?_⟩, fun hv => ?_, fun hv hc => ⟨fun hn => ?_, fun hn hr => ?_, fun hn hr => ?_⟩, fun hv => ?_⟩
  · rw [exec_placementWaitExpiry, execPlacementWaitExpiry, State.updTeam_of_mem hk]
    simp only [hst, if_pos hn]
  · rw [exec_placementWaitExpiry, execPlacementWaitExpiry, State.updTeam_fixed hk _ (by rw [hst]; exact if_neg (Nat.not_le.mpr hn))]
  · rw [exec_placementWaitExpiry, execPlacementWaitExpiry, State.updTeam_of_mem hk]
    simp only [hst, if_pos hn]
  · rw [exec_placementWaitExpiry, execPlacementWaitExpiry, State.updTeam_fixed hk _ (by rw [hst]; exact if_neg (Nat.not_le.mpr hn))]
  · rw [exec_placementWaitExpiry, execPlacementWaitExpiry, State.updTeam_fixed hk _ (by rw [hst])]
  · rw [exec_savePointTimeout, execSavePointTimeout, State.updTeam_of_mem hk]
    simp only [hv, if_pos hn]
  · rw [exec_savePointTimeout, execSavePointTimeout, State.updTeam_fixed hk _ (by rw [hv]; exact if_neg (Nat.not_le.mpr hn))]
  · rw [exec_savePointTimeout, execSavePointTimeout, State.updTeam_fixed hk]
    split
    next m h => exact absurd h (hv m)
    next => rfl
  · rw [exec_drainBudgetExpiry, execDrainBudgetExpiry_kept hx hk]
    intro m hm
    rw [hv] at hm
    cases hm
    exact hn
  · obtain ⟨q, hq⟩ := Option.isSome_iff_exists.mp hr
    obtain ⟨ws, rfl, hws⟩ := s.areasFor_one x q hq
    refine ⟨ws, ?_, hws⟩
    rw [exec_drainBudgetExpiry, execDrainBudgetExpiry_spent hx hk hv hc hn, State.setVictims_one hk, hr, hq]
    simp [Victim.saves]
  · rw [exec_drainBudgetExpiry, execDrainBudgetExpiry_spent hx hk hv hc hn, State.setVictims_one hk, hr]
    simp [Victim.saves]
  · rw [exec_drainBudgetExpiry, execDrainBudgetExpiry_kept hx hk fun m hm => absurd hm (hv m)]

end Sys2Proof.Machine

/-! # The order in which the teams that wait on a die are served (R252, R286, R309, R310, R349) -/

namespace Sys2Proof.Machine

/-! ## The order of service -/

/-- The order of service as the statement writes it: priority, then launch, then stage and TEAMID. -/
theorem State.before_iff (s : State) (t u : Team) : s.before t u = true ↔
    (s.launch u.launch).prio < (s.launch t.launch).prio ∨ ((s.launch u.launch).prio = (s.launch t.launch).prio ∧
      ((s.launch t.launch).order < (s.launch u.launch).order ∨ ((s.launch t.launch).order = (s.launch u.launch).order ∧
        (t.stage < u.stage ∨ (t.stage = u.stage ∧ t.teamId.toNat ≤ u.teamId.toNat))))) := by
  simp only [State.before, Bool.or_eq_true, Bool.and_eq_true, decide_eq_true_eq, beq_iff_eq, eq_comm (a := (s.launch t.launch).prio)]

theorem State.before_total (s : State) : Std.Total fun t u : Team => s.before t u = true :=
  ⟨fun t u => by simp only [State.before_iff]; omega⟩

theorem State.before_trans (s : State) : IsTrans Team fun t u => s.before t u = true :=
  ⟨fun t u v h h' => by simp only [State.before_iff] at *; omega⟩

/-- The teams that wait on a die stand in the order in which they are served. -/
theorem State.offers_pairwise (s : State) (die : Nat) : (s.offers die).Pairwise fun t u => s.before t u = true := by
  have := s.before_total
  have := s.before_trans
  exact List.pairwise_insertionSort (fun t u : Team => s.before t u = true) _

theorem State.mem_offers (s : State) (die : Nat) (t : Team) : t ∈ s.offers die ↔
    t ∈ s.teams ∧ t.die = die ∧ (s.launch t.launch).stopped = false ∧ s.waitsForPlace t = true := by
  simp only [State.offers, List.mem_insertionSort, List.mem_filter, Bool.and_eq_true, beq_iff_eq, Bool.not_eq_true', and_assoc]

theorem State.lockedOut_eq_false (s : State) (die : Nat) (t : Team) : s.lockedOut die t = false ↔
    ∀ u ∈ s.offers die, u.urgent = true → (s.launch u.launch).prio ≤ (s.launch t.launch).prio := by
  simp [State.lockedOut]

/-! ## Who waits -/

theorem Team.isWaiting_iff (t : Team) : t.isWaiting = true ↔ ∃ n, t.status = .waiting n := by
  cases h : t.status <;> simp [Team.isWaiting, h]

theorem Team.isSaved_iff (t : Team) : t.isSaved = true ↔ ∃ b, t.status = .saved b := by
  cases h : t.status <;> simp [Team.isSaved, h]

theorem State.stageRoom_iff (s : State) (launch stage die : Nat) : s.stageRoom launch stage die = true ↔
    (stage = 0 → (s.residents launch 0 die).length < (((s.launch launch).stages[0]?).map (·.max)).getD 0) := by
  by_cases h : stage = 0 <;> simp [State.stageRoom, h]

/-- A team is among those that go with it, but for the team of an NMRUN group. -/
theorem State.mem_together {s : State} {t : Team} (ht : t ∈ s.teams) (hn : t.nmrun = false) : t ∈ s.together t := by
  unfold State.together
  split
  · exact List.mem_filter.mpr ⟨ht, by simp [hn]⟩
  · exact List.mem_singleton_self t

theorem State.answeredAll_iff (s : State) (t : Team) : s.answeredAll t = true ↔
    ∀ g ∈ s.groups, g.live = true → g.team = t.key → s.remotePending g.key = false := by
  simp only [State.answeredAll, List.all_eq_true, Bool.or_eq_true, Bool.not_eq_true', bne_iff_ne, ne_eq]
  refine forall₂_congr fun g _ => ?_
  cases g.live <;> by_cases hk : g.team = t.key <;> simp [hk]

/-- A saved team that may come back: its remote operations are answered, and a parked one is wanted or its instance closed (R286, R311). -/
theorem State.mayRestore_spec {s : State} {t : Team} (h : s.mayRestore t = true) :
    (∀ g ∈ s.groups, g.live = true → g.team = t.key → s.remotePending g.key = false) ∧
    (t.status = .saved true → s.queueClosed (s.launch t.launch) t.die (t.stage - 1) = true ∨
      (s.residents t.launch t.stage t.die).length < ((s.launch t.launch).queueAt t.die (t.stage - 1)).target) := by
  unfold State.mayRestore at h
  split at h
  next hs => exact ⟨(s.answeredAll_iff t).mp h, fun hp => by simp [hs] at hp⟩
  next =>
    simp only [Bool.and_eq_true, Bool.or_eq_true, decide_eq_true_eq] at h
    exact ⟨(s.answeredAll_iff t).mp h.1, fun _ => h.2⟩
  next => cases h

theorem State.waitsForPlace_spec {s : State} {t : Team} (ht : t ∈ s.teams) (h : s.waitsForPlace t = true) :
    (∃ n, t.status = .waiting n) ∧ (t.stage = 0 →
      (s.residents t.launch 0 t.die).length < (((s.launch t.launch).stages[0]?).map (·.max)).getD 0) ∨
    (∃ b, t.status = .saved b) ∧ (t.nmrun = false → s.mayRestore t = true) := by
  simp only [State.waitsForPlace, Bool.or_eq_true, Bool.and_eq_true] at h
  rcases h with ⟨⟨hw, hr⟩, -⟩ | ⟨hs, ha⟩
  · exact .inl ⟨t.isWaiting_iff.mp hw, (s.stageRoom_iff _ _ _).mp hr⟩
  · exact .inr ⟨t.isSaved_iff.mp hs, fun hn => List.all_eq_true.mp ha t (State.mem_together ht hn)⟩

/-! ## TEAM_PLACE -/

theorem exec_teamPlace (die : Nat) (s : State) : exec (.teamPlace die) s = execTeamPlace die s := rfl

theorem State.finishFlushes_of_none {s : State} (die : Nat) (h : ∀ t ∈ s.teams, t.victim ≠ .flush) : s.finishFlushes die = s := by
  have : (s.teams.filter fun t => t.die == die && t.status == .resident && t.victim == .flush) = [] :=
    List.filter_eq_nil_iff.mpr fun t ht => by simp [h t ht]
  rw [State.finishFlushes, this, List.foldl_nil]

/-- Where all that wait are kept out, nothing happens. -/
theorem execTeamPlace_none {s : State} (die : Nat) (hf : ∀ t ∈ s.teams, t.victim ≠ .flush)
    (h : ∀ t ∈ s.offers die, s.lockedOut die t = true) : execTeamPlace die s = .next s := by
  have : ((s.offers die).filter fun u => !s.lockedOut die u) = [] := List.filter_eq_nil_iff.mpr fun t ht => by simp [h t ht]
  unfold execTeamPlace
  dsimp only
  rw [State.finishFlushes_of_none die hf, this]
  rfl

theorem foldl_fixed {α β : Type} (f : β → α → β) (b : β) (l : List α) (h : ∀ a ∈ l, f b a = b) : l.foldl f b = b := by
  induction l with
  | nil => rfl
  | cons a r ih => rw [List.foldl_cons, h a List.mem_cons_self, ih fun c hc => h c (List.mem_cons_of_mem a hc)]

/-- TEAM_PLACE where every place that would be given is ready as it is (R344): the first team that has a place is the one placed. -/
theorem execTeamPlace_found {s u : State} (die : Nat) (x : Team) (hf : ∀ t ∈ s.teams, t.victim ≠ .flush)
    (hd : ∀ y ∈ s.offers die, s.lockedOut die y = false → s.drainFor y = s)
    (hx : ((s.offers die).filter fun y => !s.lockedOut die y).find? (fun y => (s.tryPlace y).isSome) = some x)
    (hw : x.isWaiting = true) (hs : s.firstServed die x = true) (hp : s.tryPlace x = some u) : execTeamPlace die s = .next u := by
  have hfold : ((s.offers die).filter fun y => !s.lockedOut die y).foldl State.drainFor s = s := by
    refine foldl_fixed _ _ _ fun y hy => ?_
    obtain ⟨hy, hl⟩ := List.mem_filter.mp hy
    exact hd y hy (by simpa using hl)
  unfold execTeamPlace
  dsimp only
  rw [State.finishFlushes_of_none die hf, hfold, hx]
  simp [hw, hs, hp]

section
variable {s : State} {die : Nat} {x : Team} (hs : Claim.ServedFirst s die x)
include hs

theorem servedFirst_lockedOut : s.lockedOut die x = false := (s.lockedOut_eq_false die x).mpr hs.1

theorem servedFirst_tryPlace_none {y : Team} (hy : y ∈ s.offers die) (hk : y.key ≠ x.key) (hb : s.before y x = true)
    (hl : s.lockedOut die y = false) : s.tryPlace y = none :=
  hs.2.1 y hy hk ((s.before_iff y x).mp hb) ((s.lockedOut_eq_false die y).mp hl)

theorem servedFirst_returnFit_none {y : Team} (hy : y ∈ s.returning die) (hk : y.key ≠ x.key) (hb : s.before y x = true)
    (hn : s.before x y = false) : s.returnFit y = none :=
  hs.2.2 y hy hk ((s.before_iff y x).mp hb) fun h => Bool.eq_false_iff.mp hn ((s.before_iff x y).mpr h)

theorem servedFirst_firstServed : s.firstServed die x = true := by
  simp only [State.firstServed, servedFirst_lockedOut hs, Bool.not_false, Bool.true_and, Bool.and_eq_true, Bool.not_eq_true', List.any_eq_false]
  refine ⟨fun y hy h => ?_, fun y hy h => ?_⟩
  · simp only [bne_iff_ne] at h
    obtain ⟨⟨⟨⟨hk, -⟩, hb⟩, hl⟩, hp⟩ := h
    rw [servedFirst_tryPlace_none hs hy hk hb hl] at hp
    cases hp
  · simp only [bne_iff_ne] at h
    obtain ⟨⟨⟨hk, hb⟩, hn⟩, hp⟩ := h
    rw [servedFirst_returnFit_none hs hy hk hb hn] at hp
    cases hp

/-- The team that is served first is the one that TEAM_PLACE comes to: of those before it, none has a place. -/
theorem servedFirst_find {u : State} (hnd : (s.teams.map (·.key)).Nodup) (hx : x ∈ s.offers die) (hp : s.tryPlace x = some u) :
    ((s.offers die).filter fun y => !s.lockedOut die y).find? (fun y => (s.tryPlace y).isSome) = some x := by
  have hmem : x ∈ (s.offers die).filter fun y => !s.lockedOut die y := List.mem_filter.mpr ⟨hx, by simp [servedFirst_lockedOut hs]⟩
  obtain ⟨v, hv⟩ := Option.isSome_iff_exists.mp (List.find?_isSome.mpr ⟨x, hmem, by simp [hp]⟩ :
    (((s.offers die).filter fun y => !s.lockedOut die y).find? fun y => (s.tryPlace y).isSome).isSome = true)
  obtain ⟨hvp, as, bs, hsplit, has⟩ := List.find?_eq_some_iff_append.mp hv
  have hvm : v ∈ (s.offers die).filter fun y => !s.lockedOut die y := by simp [hsplit]
  obtain ⟨hvo, hvl⟩ := List.mem_filter.mp hvm
  have hxs : x ∈ as ++ v :: bs := hsplit ▸ hmem
  rw [hv]
  rcases List.mem_append.mp hxs with ha | ha
  · simpa [hp] using has x ha
  · rcases List.mem_cons.mp ha with rfl | hb
    · rfl
    · have hsorted : (as ++ v :: bs).Pairwise fun t u => s.before t u = true := hsplit ▸ (s.offers_pairwise die).filter _
      have hbefore : s.before v x = true := (List.pairwise_cons.mp (List.pairwise_append.mp hsorted).2.1).1 x hb
      by_cases hk : v.key = x.key
      · rw [List.inj_on_of_nodup_map hnd ((s.mem_offers die v).mp hvo).1 ((s.mem_offers die x).mp hx).1 hk]
      · rw [servedFirst_tryPlace_none hs hvo hk hbefore (by simpa using hvl)] at hvp
        cases hvp

end

theorem placementOrder : Claim.PlacementOrder := by
  intro s die hf hnd
  dsimp only
  refine ⟨(s.offers_pairwise die).imp fun h => (s.before_iff _ _).mp h, fun t ht => ?_, fun h => ?_, fun x u hx hw _ hs hp hd => ?_⟩
  · obtain ⟨hmem, rfl, hstop, hwait⟩ := (s.mem_offers die t).mp ht
    refine ⟨hmem, rfl, hstop, (State.waitsForPlace_spec hmem hwait).imp_right fun ⟨hsv, hr⟩ => ⟨hsv, fun hn => State.mayRestore_spec (hr hn)⟩⟩
  · rw [exec_teamPlace, execTeamPlace_none die hf]
    intro t ht
    rw [← Bool.not_eq_false, s.lockedOut_eq_false]
    exact h t ht
  · rw [exec_teamPlace]
    exact execTeamPlace_found die x hf (fun y hy hl => hd y hy ((s.lockedOut_eq_false die y).mp hl)) (servedFirst_find hs hnd hx hp) hw (servedFirst_firstServed hs) hp

end Sys2Proof.Machine

/-! # The stage arbiter (R311; log 50) -/

namespace Sys2Proof.Machine

/-! ## One launch among those of the machine -/

section
variable (s : State) (k j : Nat) (f : Launch → Launch) (hf : ∀ l, (f l).key = l.key)
include hf

theorem State.find_updLaunch : ((s.updLaunch k f).launches.find? fun l => l.key == j) =
    (s.launches.find? fun l => l.key == j).map fun l => if l.key == k then f l else l := by
  have : ((fun l : Launch => l.key == j) ∘ fun l => if l.key == k then f l else l) = fun l => l.key == j := by
    funext l
    simp only [Function.comp]
    split <;> simp [hf]
  rw [State.updLaunch_launches, List.find?_map, this]

theorem State.updLaunch_keys : (s.updLaunch k f).launches.map (·.key) = s.launches.map (·.key) := by
  rw [State.updLaunch_launches, List.map_map]
  refine List.map_congr_left fun l _ => ?_
  simp only [Function.comp]
  split <;> simp [hf]

theorem State.launch_updLaunch_cases : (s.updLaunch k f).launch j = s.launch j ∨ (s.updLaunch k f).launch j = f (s.launch j) := by
  rw [State.launch, State.find_updLaunch s k j f hf, State.launch]
  cases s.launches.find? fun l => l.key == j with
  | none => exact .inl rfl
  | some l =>
    simp only [Option.map_some, Option.getD_some]
    split
    · exact .inr rfl
    · exact .inl rfl

theorem State.launch_updLaunch_other (h : j ≠ k) : (s.updLaunch k f).launch j = s.launch j := by
  rw [State.launch, State.find_updLaunch s k j f hf, State.launch]
  cases hl : s.launches.find? fun l => l.key == j with
  | none => rfl
  | some l =>
    have : l.key = j := by simpa using List.find?_some hl
    simp [this, h]

theorem State.launch_updLaunch_self (h : k ∈ s.launches.map (·.key)) : (s.updLaunch k f).launch k = f (s.launch k) := by
  rw [State.launch, State.find_updLaunch s k k f hf, State.launch]
  cases hl : s.launches.find? fun l => l.key == k with
  | none =>
    obtain ⟨l, hm, he⟩ := List.mem_map.mp h
    exact absurd (List.find?_eq_none.mp hl l hm) (by simp [he])
  | some l =>
    have : l.key = k := by simpa using List.find?_some hl
    simp [this]

end

theorem State.launch_of_mem {s : State} {l : Launch} (hnd : (s.launches.map (·.key)).Nodup) (hl : l ∈ s.launches) : s.launch l.key = l := by
  unfold State.launch
  cases h : s.launches.find? fun m => m.key == l.key with
  | none => exact absurd (List.find?_eq_none.mp h l hl) (by simp)
  | some m => exact List.inj_on_of_nodup_map hnd (List.mem_of_find?_eq_some h) hl (by simpa using List.find?_some h)

/-- A launch whose key is listed is found under it. -/
theorem State.launch_mem {s : State} {k : Nat} (h : k ∈ s.launches.map (·.key)) : s.launch k ∈ s.launches ∧ (s.launch k).key = k := by
  unfold State.launch
  cases hl : s.launches.find? fun l => l.key == k with
  | none =>
    obtain ⟨l, hm, he⟩ := List.mem_map.mp h
    exact absurd (List.find?_eq_none.mp hl l hm) (by simp [he])
  | some l => exact ⟨List.mem_of_find?_eq_some hl, by simpa using List.find?_some hl⟩

/-! ## Stage queues -/

theorem Launch.queueAt_die_q (l : Launch) (die n : Nat) : (l.queueAt die n).die = die ∧ (l.queueAt die n).q = n := by
  unfold Launch.queueAt
  cases h : l.queues.find? fun x => x.die == die && x.q == n with
  | none => exact ⟨rfl, rfl⟩
  | some x => simpa using List.find?_some h

theorem Launch.setQueue_key (l : Launch) (x : StageQueue) : (l.setQueue x).key = l.key := rfl

theorem Launch.queueAt_setQueue_self (l : Launch) (x : StageQueue) : (l.setQueue x).queueAt x.die x.q = x := by
  simp [Launch.queueAt, Launch.setQueue]

theorem Launch.queueAt_setQueue_other (l : Launch) (x : StageQueue) (die n : Nat) (h : x.q ≠ n) :
    (l.setQueue x).queueAt die n = l.queueAt die n := by
  simp only [Launch.queueAt, Launch.setQueue, List.find?_cons, beq_false_of_ne h, Bool.and_false, List.find?_filter]
  congr 2
  funext y
  by_cases hy : y.q = n
  · simp [hy, Ne.symm h, Bool.beq_eq_decide_eq]
  · simp [hy]

/-! ## What arbitration leaves unchanged -/

/-- What no arbitration of any stage changes; the teams that it adds are of later stages. -/
structure ArbiterFrame (s t : State) : Prop where
  mem : t.mem = s.mem
  cur : t.cur = s.cur
  others : t.others = s.others
  arbiters : t.arbiters = s.arbiters
  keys : t.launches.map (·.key) = s.launches.map (·.key)
  teams : ∃ new, t.teams = s.teams ++ new ∧ ∀ x ∈ new, x.stage ≠ 0

theorem ArbiterFrame.refl (s : State) : ArbiterFrame s s := ⟨rfl, rfl, rfl, rfl, rfl, [], by simp, by simp⟩

theorem ArbiterFrame.trans {s t u : State} (h : ArbiterFrame s t) (h' : ArbiterFrame t u) : ArbiterFrame s u := by
  obtain ⟨a, ha, hs⟩ := h.teams
  obtain ⟨b, hb, ht⟩ := h'.teams
  refine ⟨h'.mem.trans h.mem, h'.cur.trans h.cur, h'.others.trans h.others, h'.arbiters.trans h.arbiters, h'.keys.trans h.keys, a ++ b, ?_, ?_⟩
  · rw [hb, ha, List.append_assoc]
  · exact fun x hx => (List.mem_append.mp hx).elim (hs x) (ht x)

/-- What the arbitration of a stage looks at in its launch, and what the last instance of a queue is closed by. -/
structure Launch.SameAt (l m : Launch) (die n : Nat) : Prop where
  stages : m.stages = l.stages
  created : m.created = l.created
  assigned : m.assigned = l.assigned
  queue : m.queueAt die n = l.queueAt die n

theorem Launch.SameAt.refl (l : Launch) (die n : Nat) : l.SameAt l die n := ⟨rfl, rfl, rfl, rfl⟩

theorem Launch.SameAt.trans {l m k : Launch} {die n : Nat} (h : l.SameAt m die n) (h' : m.SameAt k die n) : l.SameAt k die n :=
  ⟨h'.stages.trans h.stages, h'.created.trans h.created, h'.assigned.trans h.assigned, h'.queue.trans h.queue⟩

/-- A change of a launch that leaves that of each launch leaves it of all. -/
theorem State.sameAt_updLaunch {s t u : State} {k die n : Nat} {f : Launch → Launch} (ht : t = u.updLaunch k f) (hu : u.launches = s.launches)
    (hf : ∀ l, (f l).key = l.key) (hs : ∀ l : Launch, l.SameAt (f l) die n) (j : Nat) : (s.launch j).SameAt (t.launch j) die n := by
  have : u.launch j = s.launch j := by rw [State.launch, hu, State.launch]
  rw [ht, ← this]
  rcases u.launch_updLaunch_cases k j f hf with h | h <;> rw [h]
  · exact .refl _ _ _
  · exact hs _

/-- The teams of a stage of a launch on a die that the arbiter counts: resident, parked, or offered already (log 50). -/
def State.stageTeams (s : State) (launch stage die : Nat) : List Team :=
  s.teams.filter fun x => x.launch == launch && x.stage == stage && x.die == die && !x.nmrun && x.status != .saved false

/-! ## New teams of a stage -/

/-- Some teams of a stage created, for a launch on a die. -/
structure Created (s t : State) (launch stage die : Nat) (new : List Team) : Prop where
  mem : t.mem = s.mem
  cur : t.cur = s.cur
  others : t.others = s.others
  arbiters : t.arbiters = s.arbiters
  keys : t.launches.map (·.key) = s.launches.map (·.key)
  teams : t.teams = s.teams ++ new
  offered : ∀ x ∈ new, x.launch = launch ∧ x.stage = stage ∧ x.die = die ∧ x.nmrun = false ∧ ∃ n, x.status = .waiting n
  same : ∀ k n, (s.launch k).SameAt (t.launch k) die n

theorem State.createStage_created (s : State) (launch stage die : Nat) :
    ∃ x, Created s (s.createStage launch stage die) launch stage die [x] := by
  refine ⟨_, rfl, rfl, rfl, rfl, State.updLaunch_keys _ _ _ (by simp), rfl, by simp,
    fun k n => ?_⟩
  refine State.sameAt_updLaunch (t := s.createStage launch stage die) rfl ?_ ?_ ?_ k
  · rfl
  · exact fun _ => rfl
  · exact fun _ => ⟨rfl, rfl, rfl, rfl⟩

theorem foldl_createStage (s : State) (launch stage die m : Nat) : ∃ new, new.length = m ∧
    Created s ((List.range m).foldl (fun v _ => v.createStage launch stage die) s) launch stage die new := by
  induction m with
  | zero => exact ⟨[], rfl, rfl, rfl, rfl, rfl, rfl, by simp, by simp, fun _ _ => .refl _ _ _⟩
  | succ m ih =>
    obtain ⟨new, hlen, h⟩ := ih
    rw [List.range_succ, List.foldl_append, List.foldl_cons, List.foldl_nil]
    generalize (List.range m).foldl (fun v _ => v.createStage launch stage die) s = u at h
    obtain ⟨x, hx⟩ := u.createStage_created launch stage die
    refine ⟨new ++ [x], by simp [hlen], hx.mem.trans h.mem, hx.cur.trans h.cur, hx.others.trans h.others, hx.arbiters.trans h.arbiters,
      hx.keys.trans h.keys, ?_, ?_, fun k n => (h.same k n).trans (hx.same k n)⟩
    · rw [hx.teams, h.teams, List.append_assoc]
    · exact fun y hy => (List.mem_append.mp hy).elim (h.offered y) (hx.offered y)

theorem Created.frame {s t : State} {launch stage die : Nat} {new : List Team} (h : Created s t launch stage die new) (hs : stage ≠ 0) :
    ArbiterFrame s t :=
  ⟨h.mem, h.cur, h.others, h.arbiters, h.keys, new, h.teams, fun x hx => by rw [(h.offered x hx).2.1]; exact hs⟩

/-- Every team created for a stage is counted there. -/
theorem Created.stageTeams_self {s t : State} {launch stage die : Nat} {new : List Team} (h : Created s t launch stage die new) :
    (t.stageTeams launch stage die).length = (s.stageTeams launch stage die).length + new.length := by
  have : new.filter (fun x => x.launch == launch && x.stage == stage && x.die == die && !x.nmrun && x.status != .saved false) = new := by
    refine List.filter_eq_self.mpr fun x hx => ?_
    obtain ⟨h1, h2, h3, h4, n, h5⟩ := h.offered x hx
    simp [h1, h2, h3, h4, h5]
  rw [State.stageTeams, h.teams, List.filter_append, this, List.length_append]
  rfl

/-- None of them is counted at another stage or for another launch. -/
theorem Created.stageTeams_other {s t : State} {launch stage die : Nat} {new : List Team} (h : Created s t launch stage die new)
    {k n : Nat} (hne : ¬ (launch = k ∧ stage = n)) : t.stageTeams k n die = s.stageTeams k n die := by
  have : new.filter (fun x => x.launch == k && x.stage == n && x.die == die && !x.nmrun && x.status != .saved false) = [] := by
    refine List.filter_eq_nil_iff.mpr fun x hx => ?_
    obtain ⟨h1, h2, -⟩ := h.offered x hx
    simp only [h1, h2, Bool.and_eq_true, beq_iff_eq]
    tauto
  rw [State.stageTeams, h.teams, List.filter_append, this, List.append_nil]
  rfl

end Sys2Proof.Machine

/-! # One period of the stage arbiter (R311) -/

namespace Sys2Proof.Machine

/-- The launches after the target of a stage has moved. -/
def State.retarget (s : State) (launch die n t : Nat) : State :=
  s.updLaunch launch fun k => k.setQueue { (s.launch launch).queueAt die n with target := t }

/-- The target that the arbiter gives to the consumer of queue n. -/
def Launch.wanted (l : Launch) (die n : Nat) (st : Stage) : Nat :=
  nextTarget (l.queueAt die n).tokens.length (l.depth n) (l.queueAt die n).target st.min st.max

theorem State.arbitrate_none {s : State} {launch n : Nat} (die : Nat) (h : (s.launch launch).stages[n + 1]? = none) :
    s.arbitrate launch die (n + 1) = s := by
  unfold State.arbitrate
  dsimp only
  rw [h]

theorem State.arbitrate_some {s : State} {launch n : Nat} (die : Nat) {st : Stage} (h : (s.launch launch).stages[n + 1]? = some st) :
    s.arbitrate launch die (n + 1) =
      let t := (s.launch launch).wanted die n st
      let u := s.retarget launch die n t
      if ((s.launch launch).queueAt die n).tokens.isEmpty && u.queueClosed (s.launch launch) die n then u
      else (List.range (t - (s.stageTeams launch (n + 1) die).length)).foldl (fun v _ => v.createStage launch (n + 1) die) u := by
  unfold State.arbitrate
  dsimp only
  rw [h]
  rfl

theorem State.retarget_keys (s : State) (launch die n t : Nat) : (s.retarget launch die n t).launches.map (·.key) = s.launches.map (·.key) :=
  State.updLaunch_keys _ _ _ fun l => l.setQueue_key _

theorem State.retarget_frame (s : State) (launch die n t : Nat) : ArbiterFrame s (s.retarget launch die n t) :=
  ⟨rfl, rfl, rfl, rfl, s.retarget_keys launch die n t, [], (List.append_nil _).symm, by simp⟩

/-- Another stage's target leaves what this stage is arbitrated by. -/
theorem State.retarget_sameAt (s : State) (launch die n t key m : Nat) (h : ¬ (launch = key ∧ n = m)) :
    (s.launch key).SameAt ((s.retarget launch die n t).launch key) die m := by
  by_cases hl : launch = key
  · have hn : n ≠ m := fun hn => h ⟨hl, hn⟩
    refine State.sameAt_updLaunch (t := s.retarget launch die n t) rfl rfl (fun l => l.setQueue_key _) (fun l => ⟨rfl, rfl, rfl, ?_⟩) key
    refine l.queueAt_setQueue_other _ die m ?_
    exact fun he => hn (((s.launch launch).queueAt_die_q die n).2.symm.trans he)
  · rw [State.retarget, State.launch_updLaunch_other s launch key _ (fun l => l.setQueue_key _) (Ne.symm hl)]
    exact .refl _ _ _

theorem State.retarget_queueAt (s : State) (launch die n t : Nat) (h : launch ∈ s.launches.map (·.key)) :
    ((s.retarget launch die n t).launch launch).queueAt die n = { (s.launch launch).queueAt die n with target := t } := by
  rw [State.retarget, State.launch_updLaunch_self s launch _ (fun l => l.setQueue_key _) h]
  have hq := (s.launch launch).queueAt_die_q die n
  have := (s.launch launch).queueAt_setQueue_self { (s.launch launch).queueAt die n with target := t }
  rwa [hq.1, hq.2] at this

/-- Arbitrations of other stages than queue n's consumer in a launch, on a die. -/
structure ArbitedElse (s t : State) (key n die : Nat) : Prop where
  frame : ArbiterFrame s t
  same : (s.launch key).SameAt (t.launch key) die n
  count : t.stageTeams key (n + 1) die = s.stageTeams key (n + 1) die

theorem ArbitedElse.refl (s : State) (key n die : Nat) : ArbitedElse s s key n die := ⟨.refl s, .refl _ _ _, rfl⟩

theorem ArbitedElse.trans {s t u : State} {key n die : Nat} (h : ArbitedElse s t key n die) (h' : ArbitedElse t u key n die) :
    ArbitedElse s u key n die := ⟨h.frame.trans h'.frame, h.same.trans h'.same, h'.count.trans h.count⟩

theorem State.arbitrate_else (s : State) (launch die i key n : Nat) (h : ¬ (launch = key ∧ i = n)) :
    ArbitedElse s (s.arbitrate launch die (i + 1)) key n die := by
  cases hst : (s.launch launch).stages[i + 1]? with
  | none =>
    rw [State.arbitrate_none die hst]
    exact .refl _ _ _ _
  | some st =>
    rw [State.arbitrate_some die hst]
    dsimp only
    have hu : ArbitedElse s (s.retarget launch die i ((s.launch launch).wanted die i st)) key n die :=
      ⟨s.retarget_frame _ _ _ _, s.retarget_sameAt _ _ _ _ _ _ h, rfl⟩
    split
    · exact hu
    · obtain ⟨new, -, hc⟩ := foldl_createStage (s.retarget launch die i ((s.launch launch).wanted die i st)) launch (i + 1) die
        ((s.launch launch).wanted die i st - (s.stageTeams launch (i + 1) die).length)
      exact hu.trans ⟨hc.frame (Nat.succ_ne_zero i), hc.same key n, hc.stageTeams_other (by omega)⟩

theorem foldl_arbitedElse {α : Type} (f : State → α → State) (l : List α) (key n die : Nat)
    (hf : ∀ a ∈ l, ∀ s, ArbitedElse s (f s a) key n die) (s : State) : ArbitedElse s (l.foldl f s) key n die := by
  induction l generalizing s with
  | nil => exact .refl _ _ _ _
  | cons a r ih =>
    exact (hf a List.mem_cons_self s).trans (ih (fun b hb => hf b (List.mem_cons_of_mem a hb)) (f s a))

/-- The arbitration of queue n's consumer in a launch: its target moves, and teams are created up to it (R311, log 50). -/
structure Arbited (s t : State) (l : Launch) (n die : Nat) (st : Stage) : Prop where
  frame : ArbiterFrame s t
  queue : (t.launch l.key).queueAt die n = { l.queueAt die n with target := l.wanted die n st }
  full : (l.queueAt die n).tokens ≠ [] →
    (t.stageTeams l.key (n + 1) die).length = max (s.stageTeams l.key (n + 1) die).length (l.wanted die n st)
  least : (s.stageTeams l.key (n + 1) die).length ≤ (t.stageTeams l.key (n + 1) die).length
  most : (t.stageTeams l.key (n + 1) die).length ≤ max (s.stageTeams l.key (n + 1) die).length (l.wanted die n st)
  closed : n = 0 → (l.queueAt die n).tokens = [] → s.queueClosed l die 0 = true →
    (t.stageTeams l.key (n + 1) die).length = (s.stageTeams l.key (n + 1) die).length

theorem State.arbitrate_self (s : State) (die n key : Nat) (st : Stage) (hk : key ∈ s.launches.map (·.key))
    (hst : (s.launch key).stages[n + 1]? = some st) : Arbited s (s.arbitrate key die (n + 1)) (s.launch key) n die st := by
  have hkey := (State.launch_mem hk).2
  have hf := s.retarget_frame key die n ((s.launch key).wanted die n st)
  have hq := s.retarget_queueAt key die n ((s.launch key).wanted die n st) hk
  rw [State.arbitrate_some die hst]
  dsimp only
  split
  next hc =>
    have hc : ((s.launch key).queueAt die n).tokens = [] := by
      simp only [Bool.and_eq_true, List.isEmpty_iff] at hc
      exact hc.1
    refine ⟨hf, by rw [hkey]; exact hq, fun h => absurd hc h, le_refl _, le_max_left _ _, fun _ _ _ => rfl⟩
  next hc =>
    obtain ⟨new, hlen, hn⟩ := foldl_createStage (s.retarget key die n ((s.launch key).wanted die n st)) key (n + 1) die
      ((s.launch key).wanted die n st - (s.stageTeams key (n + 1) die).length)
    have hcount := hn.stageTeams_self
    rw [hlen, show (s.retarget key die n ((s.launch key).wanted die n st)).stageTeams key (n + 1) die = s.stageTeams key (n + 1) die from rfl]
      at hcount
    refine ⟨hf.trans (hn.frame (Nat.succ_ne_zero n)), ?_, fun _ => ?_, ?_, ?_, fun h0 ht hcl => absurd ?_ hc⟩
    · rw [hkey, (hn.same key n).queue, hq]
    · rw [hkey]; omega
    · rw [hkey]; omega
    · rw [hkey]; omega
    · subst h0
      simp only [ht, List.isEmpty_nil, Bool.true_and]
      exact hcl

/-- Teams of later stages do not keep the last instance of stage 0 open or close it. -/
theorem ArbiterFrame.queueClosed_zero {s t : State} (h : ArbiterFrame s t) {l m : Launch} {die : Nat} (hs : l.SameAt m die 0)
    (hk : m.key = l.key) : t.queueClosed m die 0 = s.queueClosed l die 0 := by
  obtain ⟨new, hn, hst⟩ := h.teams
  have hg : t.groups = s.groups := by rw [State.groups, h.cur, h.others, State.groups]
  have hnone : new.filter (fun x => x.launch == l.key && x.stage == 0 && x.die == die && !x.nmrun) = [] :=
    List.filter_eq_nil_iff.mpr fun x hx => by simp [hst x hx]
  have hdone : t.stageDone m die 0 = s.stageDone l die 0 := by
    rw [State.stageDone, State.stageDone, hn, hk, hg, List.filter_append, hnone, List.append_nil]
  simp only [State.queueClosed, hs.queue, hs.created, hs.assigned, hdone]

end Sys2Proof.Machine

/-! # STAGE_ARBITER over the launches and stages of a die (R311) -/

namespace Sys2Proof.Machine

theorem exec_stageArbiter (die : Nat) (s : State) : exec (.stageArbiter die) s = execStageArbiter die s := rfl

/-- All stages of a launch that a die's arbiter looks after. -/
def State.arbitrateAll (die : Nat) (s : State) (l : Launch) : State :=
  (List.range (l.stages.length - 1)).foldl (fun v i => v.arbitrate l.key die (i + 1)) s

/-- The arbiter of a die has had one period more. -/
def State.periodOver (s : State) (d : Fin 8) : State := { s with arbiters := s.arbiters.set d (s.arbiters[d] + 1) }

theorem execStageArbiter_early (s : State) (d : Fin 8) (h : s.now / 1024 ≤ s.arbiters[d]) : execStageArbiter d.val s = .next s := by
  rw [execStageArbiter, dif_pos d.isLt, if_pos]
  simpa using Or.inr h

theorem execStageArbiter_due (s : State) (d : Fin 8) (h : s.arbiters[d] < s.now / 1024) {l : Launch} (hl : l ∈ s.staged d.val) :
    execStageArbiter d.val s = .next (((s.staged d.val).filter fun l => !l.stopped).foldl (State.arbitrateAll d.val)
      (s.periodOver d)) := by
  rw [execStageArbiter, dif_pos d.isLt, if_neg]
  · rfl
  · have hne : s.staged d.val ≠ [] := List.ne_nil_of_mem hl
    simpa [hne] using h

/-- The arbitration of one stage of a launch, among those of its other stages. -/
theorem State.arbitrateAll_self (s : State) (die n : Nat) (l : Launch) (st : Stage) (hst : l.stages[n + 1]? = some st) :
    ∃ u v, ArbitedElse s u l.key n die ∧ v = u.arbitrate l.key die (n + 1) ∧ ArbitedElse v (s.arbitrateAll die l) l.key n die := by
  have hlen : n + 1 < l.stages.length := (List.getElem?_eq_some_iff.mp hst).1
  obtain ⟨as, bs, hsplit⟩ := List.append_of_mem (List.mem_range.mpr (by omega : n < l.stages.length - 1))
  have hnd : (as ++ n :: bs).Nodup := hsplit ▸ List.nodup_range
  have hne : ∀ i, i ∈ as ∨ i ∈ bs → i ≠ n := by
    rw [List.nodup_middle, List.nodup_cons, List.mem_append] at hnd
    exact fun i hi he => hnd.1 (he ▸ hi)
  have hrest : ∀ i, i ∈ as ∨ i ∈ bs → ∀ t : State, ArbitedElse t (t.arbitrate l.key die (i + 1)) l.key n die :=
    fun i hi t => t.arbitrate_else l.key die i l.key n fun h => hne i hi h.2
  rw [State.arbitrateAll, hsplit, List.foldl_append, List.foldl_cons]
  exact ⟨_, _, foldl_arbitedElse _ as l.key n die (fun i hi => hrest i (.inl hi)) s, rfl,
    foldl_arbitedElse _ bs l.key n die (fun i hi => hrest i (.inr hi)) _⟩

theorem State.arbitrateAll_else (s : State) (die key n : Nat) (l : Launch) (h : l.key ≠ key) :
    ArbitedElse s (s.arbitrateAll die l) key n die :=
  foldl_arbitedElse _ _ key n die (fun i _ t => t.arbitrate_else l.key die i key n fun he => h he.1) s

/-- Over all launches, one stage of one launch is arbitrated once. -/
theorem foldl_arbitrateAll (s : State) (die n : Nat) (ls : List Launch) (hnd : (ls.map (·.key)).Nodup) (l : Launch) (hl : l ∈ ls) (st : Stage)
    (hst : l.stages[n + 1]? = some st) :
    ∃ u v, ArbitedElse s u l.key n die ∧ v = u.arbitrate l.key die (n + 1) ∧
      ArbitedElse v (ls.foldl (State.arbitrateAll die) s) l.key n die := by
  obtain ⟨as, bs, hsplit⟩ := List.append_of_mem hl
  have hne : ∀ m, m ∈ as ∨ m ∈ bs → m.key ≠ l.key := by
    rw [hsplit, List.map_append, List.map_cons, List.nodup_middle, List.nodup_cons, List.mem_append, List.mem_map, List.mem_map] at hnd
    exact fun m hm he => hnd.1 (hm.imp (fun h => ⟨m, h, he⟩) fun h => ⟨m, h, he⟩)
  have hrest : ∀ m, m ∈ as ∨ m ∈ bs → ∀ t : State, ArbitedElse t (t.arbitrateAll die m) l.key n die :=
    fun m hm t => t.arbitrateAll_else die l.key n m (hne m hm)
  obtain ⟨u, v, hu, hv, hw⟩ := (as.foldl (State.arbitrateAll die) s).arbitrateAll_self die n l st hst
  refine ⟨u, v, (foldl_arbitedElse _ as l.key n die (fun m hm => hrest m (.inl hm)) s).trans hu, hv, ?_⟩
  rw [hsplit, List.foldl_append, List.foldl_cons]
  exact hw.trans (foldl_arbitedElse _ bs l.key n die (fun m hm => hrest m (.inr hm)) _)

/-- What comes of a stage in a period: the arbitration of the stage as it stood, whatever was arbitrated before and after. -/
theorem Arbited.of_else {s u v t : State} {l : Launch} {n die : Nat} {st : Stage} (hk : (s.launch l.key) = l) (hmem : l ∈ s.launches)
    (hst : l.stages[n + 1]? = some st) (hu : ArbitedElse s u l.key n die) (hv : v = u.arbitrate l.key die (n + 1))
    (ht : ArbitedElse v t l.key n die) : Arbited s t l n die st := by
  have hkeys : l.key ∈ u.launches.map (·.key) := by
    rw [hu.frame.keys]
    exact List.mem_map_of_mem hmem
  have hsame := hu.same
  rw [hk] at hsame
  have hkey := (State.launch_mem hkeys).2
  have ha := u.arbitrate_self die n l.key st hkeys (by rw [hsame.stages, hst])
  rw [← hv] at ha
  have hwant : (u.launch l.key).wanted die n st = l.wanted die n st := by
    rw [Launch.wanted, Launch.wanted, hsame.queue, Launch.depth, Launch.depth, hsame.stages]
  obtain ⟨hframe, hqueue, hfull, hleast, hmost, hclosed⟩ := ha
  rw [hkey, hwant, hsame.queue] at hqueue
  rw [hkey, hwant, hsame.queue, hu.count, ← ht.count] at hfull
  rw [hkey, hu.count, ← ht.count] at hleast
  rw [hkey, hwant, hu.count, ← ht.count] at hmost
  rw [hkey, hsame.queue, hu.count, ← ht.count] at hclosed
  refine ⟨hu.frame.trans (hframe.trans ht.frame), ht.same.queue.trans hqueue, hfull, hleast, hmost, fun h0 htok hcl => ?_⟩
  subst h0
  exact hclosed rfl htok ((hu.frame.queueClosed_zero hsame hkey).trans hcl)

theorem stageArbiter : Claim.StageArbiter := by
  intro s d n l st hnd hl hstop hmask hst
  dsimp only
  refine ⟨fun h => ?_, fun h => ?_⟩
  · rw [exec_stageArbiter, execStageArbiter_early s d h]
  · have hlen : n + 1 < l.stages.length := (List.getElem?_eq_some_iff.mp hst).1
    have hstaged : l ∈ s.staged d.val := List.mem_filter.mpr ⟨hl, by simp [hmask]; omega⟩
    have hnd' : (((s.staged d.val).filter fun l => !l.stopped).map (·.key)).Nodup :=
      hnd.sublist ((List.filter_sublist.trans List.filter_sublist).map _)
    obtain ⟨u, v, hu, hv, ht⟩ := foldl_arbitrateAll (s.periodOver d) d.val n _ hnd' l (List.mem_filter.mpr ⟨hstaged, by simp [hstop]⟩) st hst
    obtain ⟨hframe, hqueue, hfull, hleast, hmost, hclosed⟩ := Arbited.of_else (s := s.periodOver d) (State.launch_of_mem hnd hl) hl hst hu hv ht
    obtain ⟨new, hteams, -⟩ := hframe.teams
    have hm := State.launch_mem (s := ((s.staged d.val).filter fun l => !l.stopped).foldl (State.arbitrateAll d.val) (s.periodOver d)) (k := l.key)
      (by rw [hframe.keys]; exact List.mem_map_of_mem hl)
    exact ⟨_, _, by rw [exec_stageArbiter, execStageArbiter_due s d h hstaged], hframe.arbiters, hm.1, hm.2, hqueue, hfull, hleast, hmost, hclosed,
      fun x hx => by rw [hteams]; exact List.mem_append_left _ hx, hframe.mem, hframe.cur, hframe.others⟩

end Sys2Proof.Machine

/-! # A place for a new team (R245, R246, R267) -/

namespace Sys2Proof.Machine

/-! ## Windows -/

theorem Window.clear_of_not_meets {v w : Window} (h : w.meets v = false) : v.Clear w := by
  simp only [Window.meets, Bool.and_eq_false_iff, decide_eq_false_iff_not, Nat.not_lt] at h
  exact h

theorem firstFit_spec {limit size : Nat} {taken : List Window} {w : Window} (h : firstFit limit size taken = some w) :
    w.size = size ∧ (size ≠ 0 → w.base + size ≤ limit) ∧ ∀ v ∈ taken, v.Clear w := by
  unfold firstFit at h
  split at h
  next h0 =>
    subst h0
    cases h
    exact ⟨rfl, fun hn => absurd rfl hn, fun v _ => .inr (Nat.zero_le _)⟩
  next h0 =>
    obtain ⟨b, -, hb⟩ := List.exists_of_findSome?_eq_some h
    simp only [Option.ite_none_right_eq_some, Option.some.injEq, Bool.and_eq_true, decide_eq_true_eq, Bool.not_eq_true',
      List.any_eq_false, Bool.not_eq_true] at hb
    obtain ⟨⟨hlim, hclear⟩, rfl⟩ := hb
    exact ⟨rfl, fun _ => hlim, fun v hv => Window.clear_of_not_meets (hclear v hv)⟩

/-- The windows of a new team, level by level. -/
theorem State.windowsFor_new {s : State} {skip : List Nat} {t : Team} {cluster : Nat} {cores : List Nat} {win : Vector Window 3}
    (h : s.windowsFor skip t cluster cores (fun _ => none) = some win) (n : Fin 3) :
    firstFit (levelSize n) (s.launch t.launch).deckle[n] (s.padsTaken skip n t.die cluster cores) = some win[n] := by
  unfold State.windowsFor at h
  dsimp only at h
  split at h
  next a b c ha hb hc =>
    cases h
    match n with
    | 0 => simpa using ha
    | 1 => simpa using hb
    | 2 => simpa using hc
  next => cases h

/-- The window of a team in the places of a new window is among those taken there. -/
theorem State.mem_padsTaken {s : State} {n : Fin 3} {die cluster : Nat} {cores : List Nat} {z : Team} {p : Pad} (hz : z ∈ s.teams)
    (hd : z.die = die) (hp : p ∈ z.pads) (hn : p.lvl = n) (hi : z.inPlace p = true)
    (h0 : n = 0 → ∃ c ∈ cores, z.unitCores[p.ix]? = some c) (h1 : n = 1 → z.cluster = cluster) :
    z.win[n] ∈ s.padsTaken [] n die cluster cores := by
  refine List.mem_map.mpr ⟨z, List.mem_filter.mpr ⟨hz, ?_⟩, rfl⟩
  simp only [List.contains_nil, Bool.not_false, Bool.true_and, Bool.and_eq_true, beq_iff_eq, List.any_eq_true]
  refine ⟨hd, p, hp, ⟨hn, hi⟩, ?_⟩
  match n with
  | 0 =>
    obtain ⟨c, hc, he⟩ := h0 rfl
    simp [he, hc]
  | 1 => simp [h1 rfl]
  | 2 => rfl

/-! ## Cores -/

theorem choose_sublist {α : Type} : ∀ (k : Nat) (l r : List α), r ∈ choose k l → r.Sublist l
  | 0, l, r, h => by
    simp only [choose, List.mem_singleton] at h
    subst h
    exact List.nil_sublist l
  | k + 1, [], r, h => by simp [choose] at h
  | k + 1, x :: l, r, h => by
    simp only [choose, List.mem_append, List.mem_map] at h
    rcases h with ⟨q, hq, rfl⟩ | h
    · exact (choose_sublist k l q hq).cons_cons x
    · exact (choose_sublist (k + 1) l r h).cons x

/-- A core set is made of the cluster's cores, each once. -/
theorem coreSets_sublist {die cluster use : Nat} {cores : List Nat} (h : cores ∈ coreSets die cluster use) :
    cores.Sublist ((List.range 4).map (die * 12 + cluster * 4 + ·)) := by
  have hr : (List.range 4).map (die * 12 + cluster * 4 + ·) =
      [die * 12 + cluster * 4, die * 12 + cluster * 4 + 1, die * 12 + cluster * 4 + 2, die * 12 + cluster * 4 + 3] := rfl
  rw [hr]
  unfold coreSets at h
  dsimp only at h
  generalize die * 12 + cluster * 4 = c at *
  split at h
  · simp only [List.mem_cons, List.not_mem_nil, or_false] at h
    rcases h with rfl | rfl
    · exact List.sublist_append_left [c, c + 1] [c + 2, c + 3]
    · exact List.sublist_append_right [c, c + 1] [c + 2, c + 3]
  · simp only [List.mem_cons, List.not_mem_nil, or_false] at h
    rcases h with rfl | rfl | rfl | rfl <;> simp
  · obtain ⟨k, -, hk⟩ := List.mem_flatMap.mp h
    exact choose_sublist _ _ _ hk

theorem coreSets_nodup {die cluster use : Nat} {cores : List Nat} (h : cores ∈ coreSets die cluster use) : cores.Nodup :=
  (List.nodup_range.map fun a b hab => by simpa using hab).sublist (coreSets_sublist h)

theorem coreSets_cluster {die cluster use : Nat} {cores : List Nat} (h : cores ∈ coreSets die cluster use) {c : Nat} (hc : c ∈ cores) :
    c / 4 = die * 3 + cluster := by
  obtain ⟨i, hi, rfl⟩ := List.mem_map.mp ((coreSets_sublist h).subset hc)
  have := List.mem_range.mp hi
  omega

theorem coreSets_pair {die cluster use : Nat} {cores : List Nat} (h : cores ∈ coreSets die cluster use) (hu : use = 3) :
    ∃ c, c % 2 = 0 ∧ cores = [c, c + 1] := by
  subst hu
  simp only [coreSets, List.mem_cons, List.not_mem_nil, or_false] at h
  rcases h with rfl | rfl
  · exact ⟨_, by omega, rfl⟩
  · exact ⟨_, by omega, rfl⟩

theorem coreSets_one {die cluster use : Nat} {cores : List Nat} (h : cores ∈ coreSets die cluster use) (hu : use = 2) : ∃ c, cores = [c] := by
  subst hu
  simp only [coreSets, List.mem_cons, List.not_mem_nil, or_false] at h
  rcases h with rfl | rfl | rfl | rfl <;> exact ⟨_, rfl⟩

/-- What it is for cores to be open to a team. -/
theorem State.coresOpen_spec {s : State} {skip : List Nat} {t : Team} {cores : List Nat} (h : s.coresOpen skip t cores = true) {c : Nat}
    (hc : c ∈ cores) : s.coreFenced c = false ∧
      ((s.launch t.launch).mxuse t.stage < 2 ∨ ∀ u ∈ s.teamsOn skip c, c ∉ u.arrays) := by
  have := List.all_eq_true.mp h c hc
  simp only [Bool.and_eq_true, Bool.not_eq_true', Bool.or_eq_true, decide_eq_true_eq, List.all_eq_true, List.contains_eq_mem,
    decide_eq_false_iff_not] at this
  obtain ⟨⟨hf, -⟩, ha⟩ := this
  exact ⟨hf, ha.imp_right fun h => h.2⟩

theorem State.mem_teamsOn {s : State} {c : Nat} {z : Team} (hz : z ∈ s.teams) (hr : z.status = .resident) (hc : c ∈ z.unitCores) :
    z ∈ s.teamsOn [] c := List.mem_filter.mpr ⟨hz, by simp [hr, hc]⟩

/-! ## Group slots -/

/-- The place of a slot, as R245 tells slots apart. -/
def Place.at3 (p : Place) : Nat × Nat × Nat := (p.coreIx, p.lane, p.slot)

/-- A slot in which no group of a resident team of the core stands. -/
structure State.SlotFree (s : State) (c : Nat) (p : Place) : Prop where
  core : p.coreIx = c
  lane : p.lane < 64
  slot : p.slot < 4
  stack : p.stack = none
  free : ∀ h ∈ s.groups, h.live = true → (∃ z ∈ s.teams, z.key = h.team ∧ z.status = .resident ∧ c ∈ z.unitCores) →
    h.place.coreIx = c → ¬ (h.place.lane = p.lane ∧ h.place.slot = p.slot)

/-- The slots of a core in which groups of resident teams stand. -/
def State.slotsUsed (s : State) (skip : List Nat) (c : Nat) : List (Nat × Nat) :=
  s.groups.filterMap fun g =>
    if g.live && ((s.teamsOn skip c).map (·.key)).contains g.team && g.place.coreIx == c then some (g.place.lane, g.place.slot) else none

/-- The i-th slot of a core. -/
def State.slotPlace (s : State) (c i : Nat) : Place :=
  { die := c / 12, cluster := c % 12 / 4, core := c % 4, plane := (s.core c).plane (i % 64), lane := i % 64, slot := i / 64 }

theorem State.freeSlots_eq (s : State) (skip : List Nat) (c : Nat) : s.freeSlots skip c =
    (List.range 256).filterMap fun i => if (s.slotsUsed skip c).contains (i % 64, i / 64) then none else some (s.slotPlace c i) := rfl

theorem State.slotPlace_coreIx (s : State) (c i : Nat) : (s.slotPlace c i).coreIx = c := by
  show c / 12 * 12 + c % 12 / 4 * 4 + c % 4 = c
  omega

theorem State.freeSlots_free {s : State} {c : Nat} {p : Place} (h : p ∈ s.freeSlots [] c) : s.SlotFree c p := by
  rw [State.freeSlots_eq] at h
  obtain ⟨i, hi, hp⟩ := List.mem_filterMap.mp h
  have hi := List.mem_range.mp hi
  split at hp
  · cases hp
  next hu =>
    cases hp
    refine ⟨s.slotPlace_coreIx c i, Nat.mod_lt _ (by decide), by show i / 64 < 4; omega, rfl, fun g hg hl hz hc he => hu ?_⟩
    obtain ⟨z, hz, hk, hr, hcz⟩ := hz
    have hmem : g.team ∈ (s.teamsOn [] c).map (·.key) := List.mem_map.mpr ⟨z, State.mem_teamsOn hz hr hcz, hk⟩
    obtain ⟨hlane, hslot⟩ := he
    refine List.contains_iff_mem.mpr (List.mem_filterMap.mpr ⟨g, hg, ?_⟩)
    rw [if_pos (by simpa [hl, hc] using hmem)]
    exact congrArg some (Prod.ext hlane hslot)

theorem State.freeSlots_nodup (s : State) (skip : List Nat) (c : Nat) : ((s.freeSlots skip c).map Place.at3).Nodup := by
  rw [State.freeSlots_eq, List.map_filterMap]
  refine List.Nodup.filterMap (fun i j p hi hj => ?_) List.nodup_range
  simp only [Option.mem_def, Option.map_eq_some_iff, Option.ite_none_left_eq_some, Option.some.injEq] at hi hj
  obtain ⟨_, ⟨-, rfl⟩, rfl⟩ := hi
  obtain ⟨_, ⟨-, rfl⟩, hj⟩ := hj
  simp only [Place.at3, State.slotPlace, Prod.mk.injEq] at hj
  omega

/-- The places that counts of groups get on cores. -/
def State.placesOn (s : State) (skip cores counts : List Nat) : List Place :=
  ((cores.map (s.freeSlots skip)).zip counts).flatMap fun q => q.1.take q.2

theorem State.placesOn_cons (s : State) (skip : List Nat) (c n : Nat) (cores counts : List Nat) :
    s.placesOn skip (c :: cores) (n :: counts) = (s.freeSlots skip c).take n ++ s.placesOn skip cores counts := rfl

theorem State.mem_placesOn {s : State} {skip cores counts : List Nat} {p : Place} (h : p ∈ s.placesOn skip cores counts) :
    ∃ c ∈ cores, p ∈ s.freeSlots skip c := by
  obtain ⟨q, hq, hp⟩ := List.mem_flatMap.mp h
  obtain ⟨c, hc, he⟩ := List.mem_map.mp (List.of_mem_zip hq).1
  exact ⟨c, hc, he ▸ List.mem_of_mem_take hp⟩

theorem State.placesOn_nodup (s : State) (cores counts : List Nat) (hn : cores.Nodup) : ((s.placesOn [] cores counts).map Place.at3).Nodup := by
  induction cores generalizing counts with
  | nil => exact List.nodup_nil
  | cons c r ih =>
    obtain ⟨hc, hr⟩ := List.nodup_cons.mp hn
    cases counts with
    | nil => exact List.nodup_nil
    | cons n ns =>
      rw [State.placesOn_cons, List.map_append, List.nodup_append]
      refine ⟨(s.freeSlots_nodup [] c).sublist ((List.take_sublist _ _).map _), ih ns hr, fun a ha b hb hab => ?_⟩
      obtain ⟨p, hp, rfl⟩ := List.mem_map.mp ha
      obtain ⟨q, hq, rfl⟩ := List.mem_map.mp hb
      obtain ⟨d, hd, hqd⟩ := State.mem_placesOn hq
      have hpc := (State.freeSlots_free (List.mem_of_mem_take hp)).core
      have hqc := (State.freeSlots_free hqd).core
      have : c = d := hpc.symm.trans ((congrArg Prod.fst hab).trans hqc)
      exact hc (this ▸ hd)

theorem State.placesOn_length (s : State) (skip cores counts : List Nat) (hlen : counts.length = cores.length)
    (h : (((cores.map (s.freeSlots skip)).zip counts).all fun q => q.2 ≤ q.1.length) = true) :
    (s.placesOn skip cores counts).length = counts.sum := by
  induction cores generalizing counts with
  | nil =>
    obtain rfl := List.length_eq_zero_iff.mp hlen
    rfl
  | cons c r ih =>
    cases counts with
    | nil => cases hlen
    | cons n ns =>
      simp only [List.map_cons, List.zip_cons_cons, List.all_cons, Bool.and_eq_true, decide_eq_true_eq] at h
      rw [State.placesOn_cons, List.length_append, List.length_take, ih ns (by simpa using hlen) h.2, Nat.min_eq_left h.1, List.sum_cons]

theorem fillCounts_length (fs : List Nat) (n : Nat) : (fillCounts fs n).length = fs.length := by
  induction fs generalizing n with
  | nil => rfl
  | cons f r ih => rw [fillCounts, List.length_cons, ih, List.length_cons]

/-! ## A place -/

/-- A place that fits a new team. -/
structure State.Fits (s : State) (t : Team) (f : Fit) : Prop where
  die : f.die = t.die
  cluster : f.cluster < 3
  cores : f.cores ∈ coreSets t.die f.cluster ((s.launch t.launch).mxuse t.stage)
  opened : s.coresOpen [] t f.cores = true
  win : ∀ n : Fin 3, firstFit (levelSize n) (s.launch t.launch).deckle[n] (s.padsTaken [] n t.die f.cluster f.cores) = some f.win[n]
  length : f.places.length = (s.launch t.launch).groups
  nodup : (f.places.map Place.at3).Nodup
  free : ∀ p ∈ f.places, ∃ c ∈ f.cores, s.SlotFree c p

theorem State.fitOn_new {s : State} {t : Team} {cluster : Nat} {cores counts : List Nat} {f : Fit}
    (h : s.fitOn [] t cluster cores counts (fun _ => none) = some f) : s.coresOpen [] t cores = true ∧
      (((cores.map (s.freeSlots [])).zip counts).all fun q => q.2 ≤ q.1.length) = true ∧
      ∃ win, s.windowsFor [] t cluster cores (fun _ => none) = some win ∧
        f = { die := t.die, cluster := cluster, cores := cores, places := s.placesOn [] cores counts, win := win } := by
  unfold State.fitOn at h
  split at h
  · cases h
  next ho =>
    dsimp only at h
    split at h
    · cases h
    next hc =>
      obtain ⟨win, hw, rfl⟩ := Option.map_eq_some_iff.mp h
      exact ⟨by simpa using ho, by simpa using hc, win, hw, rfl⟩

theorem State.fit_spec {s : State} {t : Team} {f : Fit} (h : s.fit [] t = some f) : s.Fits t f := by
  obtain ⟨cl, hcl, h⟩ := List.exists_of_findSome?_eq_some h
  obtain ⟨cores, hcores, h⟩ := List.exists_of_findSome?_eq_some h
  simp only [Option.ite_none_right_eq_some, Bool.and_eq_true, beq_iff_eq] at h
  obtain ⟨⟨hsum, -⟩, h⟩ := h
  obtain ⟨ho, hc, win, hw, rfl⟩ := State.fitOn_new h
  refine ⟨rfl, List.mem_range.mp hcl, hcores, ho, fun n => State.windowsFor_new hw n, ?_, s.placesOn_nodup _ _ (coreSets_nodup hcores), ?_⟩
  · rw [State.placesOn_length s [] cores _ (by rw [fillCounts_length, List.length_map]) hc, List.sum_eq_foldl]
    exact hsum
  · intro p hp
    obtain ⟨c, hc, hp⟩ := State.mem_placesOn hp
    exact ⟨c, hc, State.freeSlots_free hp⟩

end Sys2Proof.Machine

/-! # A new team placed (R9, R242, R245, R267) -/

namespace Sys2Proof.Machine

/-! ## What taking windows and cores leaves unchanged -/

/-- What the storage of windows and the state of cores do not touch. -/
structure State.SameTeams (s t : State) : Prop where
  cur : t.cur = s.cur
  others : t.others = s.others
  teams : t.teams = s.teams
  now : t.now = s.now

theorem State.SameTeams.refl (s : State) : s.SameTeams s := ⟨rfl, rfl, rfl, rfl⟩

theorem State.SameTeams.trans {s t u : State} (h : s.SameTeams t) (h' : t.SameTeams u) : s.SameTeams u :=
  ⟨h'.cur.trans h.cur, h'.others.trans h.others, h'.teams.trans h.teams, h'.now.trans h.now⟩

/-- The bytes of memory outside some ranges stay. -/
def State.KeepsOutside (s t : State) (out : Nat → Prop) : Prop := ∀ k, out k → cellRead t.mem k = cellRead s.mem k

/-- A fold whose steps keep the teams, and the bytes outside some ranges, keeps them. -/
theorem foldl_sameTeams {α : Type} (f : State → α → State) (out : Nat → Prop) (l : List α)
    (hf : ∀ a ∈ l, ∀ s : State, s.SameTeams (f s a) ∧ s.KeepsOutside (f s a) out) (s : State) :
    s.SameTeams (l.foldl f s) ∧ s.KeepsOutside (l.foldl f s) out := by
  induction l generalizing s with
  | nil => exact ⟨.refl s, fun _ _ => rfl⟩
  | cons a r ih =>
    obtain ⟨h, hm⟩ := hf a List.mem_cons_self s
    obtain ⟨h', hm'⟩ := ih (fun b hb => hf b (List.mem_cons_of_mem a hb)) (f s a)
    exact ⟨h.trans h', fun k hk => (hm' k hk).trans (hm k hk)⟩

theorem State.clearFrame_sameTeams (s : State) (k n : Nat) : s.SameTeams (s.clearFrame k n) := ⟨rfl, rfl, rfl, rfl⟩

theorem State.clearFrame_keeps (s : State) (k n : Nat) : s.KeepsOutside (s.clearFrame k n) fun j => j < k ∨ k + n ≤ j := by
  intro j hj
  have : ¬ (k ≤ j ∧ j < k + n) := by omega
  rw [State.clearFrame, cellRead_clearCells, if_neg this]

/-- A range that passes to a context is zeroed in itself alone. -/
theorem State.claimRange_keeps (ctx : Nat) (s : State) (k n : Nat) :
    s.SameTeams (s.claimRange ctx k n) ∧ s.KeepsOutside (s.claimRange ctx k n) fun j => j < k ∨ k + n ≤ j := by
  unfold State.claimRange
  dsimp only
  refine (foldl_sameTeams _ _ _ (fun r _ t => ?_) s).imp (fun h => ⟨h.cur, h.others, h.teams, h.now⟩) id
  split
  · exact ⟨.refl t, fun _ _ => rfl⟩
  · exact ⟨t.clearFrame_sameTeams _ _, fun j hj => t.clearFrame_keeps _ _ j (by omega)⟩

theorem State.passSlots_keeps (s : State) (c ctx : Nat) (out : Nat → Prop) :
    s.SameTeams (s.passSlots c ctx) ∧ s.KeepsOutside (s.passSlots c ctx) out := by
  unfold State.passSlots
  dsimp only
  split
  · exact ⟨.refl s, fun _ _ => rfl⟩
  · exact ⟨⟨rfl, rfl, rfl, rfl⟩, fun _ _ => rfl⟩

/-- A byte in none of a team's windows. -/
def Team.Outside (t : Team) (k : Nat) : Prop := ∀ q ∈ t.pads, k < q.key ∨ q.key + q.len ≤ k

theorem State.occupy_spec (s : State) (t : Team) : (s.occupy t).cur = s.cur ∧ (s.occupy t).others = s.others ∧
    (s.occupy t).teams = (s.teams.map fun z => if z.key == t.key then t else z) ∧ (s.occupy t).now = s.now ∧
    s.KeepsOutside (s.occupy t) t.Outside := by
  have h1 := foldl_sameTeams (fun (u : State) (p : Pad) => u.claimRange (s.launch t.launch).ctx p.key p.len) t.Outside t.pads
    (fun p hp u => (u.claimRange_keeps _ p.key p.len).imp_right fun h k hk => h k (hk p hp)) s
  have h2 := foldl_sameTeams (fun (u : State) c => u.passSlots c (s.launch t.launch).ctx) t.Outside t.unitCores
    (fun c _ u => u.passSlots_keeps c _ _) (t.pads.foldl (fun (u : State) (p : Pad) => u.claimRange (s.launch t.launch).ctx p.key p.len) s)
  have h3 : ∀ u : State, s.SameTeams u → s.KeepsOutside u t.Outside →
      let w := (u.updLaunch (s.launch t.launch).key fun l => l.queuesBack t.die false).updTeam t.key fun _ => t
      w.cur = s.cur ∧ w.others = s.others ∧ w.teams = (s.teams.map fun z => if z.key == t.key then t else z) ∧ w.now = s.now ∧
        s.KeepsOutside w t.Outside := by
    intro u hu hm
    refine ⟨hu.cur, hu.others, ?_, hu.now, hm⟩
    simp only [State.updTeam_teams, State.updLaunch_teams, hu.teams]
  unfold State.occupy
  dsimp only
  split
  · exact h3 _ h1.1 h1.2
  · exact h3 _ (h1.1.trans h2.1) fun k hk => (h2.2 k hk).trans (h1.2 k hk)

/-- The groups that a team starts with. -/
def State.startGroups (s : State) (t : Team) (first : Nat) (ps : List Place) : List Group :=
  ps.zipIdx.map fun q => Group.start (s.launch t.launch) t.stage (first + q.2) t.key q.2 s.now q.1

/-- The arrays that a placed team owns are idle, and its groups stand beside those of the others. -/
theorem State.placeTeam_eq (s : State) (t : Team) (f : Fit) :
    let u := (s.occupy (t.placedAs f ((s.launch t.launch).mxuse t.stage) s.now)).idleArrays
      (if (s.launch t.launch).mxuse t.stage < 2 then [] else f.cores)
    s.placeTeam t f = { u with
      others := u.others ++ f.places.zipIdx.map fun q => Group.start (s.launch t.launch) t.stage (u.nextId + q.2) t.key q.2 u.now q.1
      nextId := u.nextId + f.places.length } := rfl

theorem State.placeTeam_spec (s : State) (t : Team) (f : Fit) (y : Team) (hy : y = t.placedAs f ((s.launch t.launch).mxuse t.stage) s.now) :
    ∃ first, (s.placeTeam t f).cur = s.cur ∧ (s.placeTeam t f).others = s.others ++ s.startGroups t first f.places ∧
      (s.placeTeam t f).teams = (s.teams.map fun z => if z.key == y.key then y else z) ∧ s.KeepsOutside (s.placeTeam t f) y.Outside := by
  obtain ⟨hcur, hothers, hteams, hnow, hmem⟩ := s.occupy_spec y
  obtain ⟨h, hm⟩ := foldl_sameTeams (fun (v : State) c => v.setCore { v.core c with a := Vector.replicate 2 {}, w := Vector.replicate 2 {}, act := 0 })
    (fun _ => True) (if (s.launch t.launch).mxuse t.stage < 2 then [] else f.cores) (fun c _ u => ⟨⟨rfl, rfl, rfl, rfl⟩, fun _ _ => rfl⟩)
    (s.occupy y)
  have he := s.placeTeam_eq t f
  dsimp only at he
  rw [← hy] at he
  change (s.occupy y).SameTeams ((s.occupy y).idleArrays _) at h
  change (s.occupy y).KeepsOutside ((s.occupy y).idleArrays _) _ at hm
  generalize (s.occupy y).idleArrays (if (s.launch t.launch).mxuse t.stage < 2 then [] else f.cores) = u at he h hm
  rw [he]
  refine ⟨u.nextId, h.cur.trans hcur, ?_, h.teams.trans hteams, fun k hk => (hm k trivial).trans (hmem k hk)⟩
  rw [State.startGroups, ← h.now.trans hnow, ← h.others.trans hothers]

theorem State.offerNext_spec (s : State) (launch : Nat) (die : Fin 8) (since : Nat) : (s.offerNext launch die since).cur = s.cur ∧
    (s.offerNext launch die since).others = s.others ∧ (s.offerNext launch die since).mem = s.mem ∧
    ∀ x ∈ s.teams, x ∈ (s.offerNext launch die since).teams := by
  unfold State.offerNext
  dsimp only
  split
  · exact ⟨rfl, rfl, rfl, fun _ h => h⟩
  · exact ⟨rfl, rfl, rfl, fun _ h => List.mem_append_left _ h⟩

/-- A team that goes on its own gets a place that fits it, and takes it; the die's next stage-0 team may join the queue. -/
theorem State.tryPlace_new {s u : State} {x : Team} (hc : (s.launch x.launch).coop = false) (hs : x.isSaved = false)
    (h : s.tryPlace x = some u) : ∃ f, s.fit [] x = some f ∧ u.cur = (s.placeTeam x f).cur ∧ u.others = (s.placeTeam x f).others ∧
      u.mem = (s.placeTeam x f).mem ∧ ∀ z ∈ (s.placeTeam x f).teams, z ∈ u.teams := by
  have ht : s.together x = [x] := by simp [State.together, hc]
  rw [State.tryPlace, ht, Option.bind_eq_some_iff] at h
  obtain ⟨q, hq, h⟩ := h
  simp only [placeAll, State.fitAny, hs, Bool.false_eq_true, if_false, Option.bind_eq_some_iff, Option.map_some, Option.some.injEq] at hq
  obtain ⟨f, hf, rfl⟩ := hq
  refine ⟨f, hf, ?_⟩
  split at h
  · cases h
  next =>
    have hsame : ∀ v : State, v = s.placeTeam x f → v.cur = (s.placeTeam x f).cur ∧ v.others = (s.placeTeam x f).others ∧
        v.mem = (s.placeTeam x f).mem ∧ ∀ z ∈ (s.placeTeam x f).teams, z ∈ v.teams := by
      rintro v rfl
      exact ⟨rfl, rfl, rfl, fun _ hz => hz⟩
    split at h
    next hd =>
      split at h
      · cases h
        exact (s.placeTeam x f).offerNext_spec x.launch ⟨x.die, hd⟩ x.since
      · exact hsame u (Option.some.inj h).symm
    · exact hsame u (Option.some.inj h).symm

end Sys2Proof.Machine

/-! # Teams placed in order (R9, R245, R246, R267, R309-R311, R314-R317) -/

namespace Sys2Proof.Machine

theorem mem_map_replace {s : State} {x y : Team} (hx : x ∈ s.teams) (hk : y.key = x.key) :
    y ∈ s.teams.map fun z => if z.key == y.key then y else z :=
  List.mem_map.mpr ⟨x, hx, by simp [hk]⟩

theorem State.startGroups_length (s : State) (t : Team) (first : Nat) (ps : List Place) : (s.startGroups t first ps).length = ps.length := by
  simp [State.startGroups]

theorem State.startGroups_places (s : State) (t : Team) (first : Nat) (ps : List Place) :
    (s.startGroups t first ps).map (fun g => (g.place.coreIx, g.place.lane, g.place.slot)) = ps.map Place.at3 := by
  rw [State.startGroups, List.map_map]
  calc ps.zipIdx.map ((fun g : Group => (g.place.coreIx, g.place.lane, g.place.slot)) ∘ _)
      = ps.zipIdx.map (Place.at3 ∘ Prod.fst) := rfl
    _ = ps.map Place.at3 := by rw [← List.map_map, List.zipIdx_map_fst]

/-- The n-th group of a team starts at its stage's entry with s1 = ARGS (R9). -/
theorem State.startGroups_get {s : State} {t : Team} {first n : Nat} {ps : List Place} {g : Group}
    (h : (s.startGroups t first ps)[n]? = some g) : g.place ∈ ps ∧
      g = Group.start (s.launch t.launch) t.stage g.key t.key n s.now g.place := by
  simp only [State.startGroups, List.getElem?_map, List.getElem?_zipIdx, Option.map_eq_some_iff, Option.map_map] at h
  obtain ⟨p, hp, rfl⟩ := h
  exact ⟨List.mem_of_getElem? hp, by simp [Group.start]⟩

theorem teamPlaced : Claim.TeamPlaced := by
  intro s u x hx _
  dsimp only
  intro hc hs h
  obtain ⟨f, hf, hcur, hothers, hmem, hteams⟩ := State.tryPlace_new hc hs h
  have hfit := State.fit_spec hf
  obtain ⟨first, hpcur, hpothers, hpteams, hpmem⟩ := s.placeTeam_spec x f _ rfl
  refine ⟨x.placedAs f ((s.launch x.launch).mxuse x.stage) s.now, s.startGroups x first f.places, hteams _ ?_, ?_, hfit.cluster,
    coreSets_nodup hfit.cores, fun c hcm => ⟨coreSets_cluster hfit.cores hcm, (State.coresOpen_spec hfit.opened hcm).1⟩,
    coreSets_pair hfit.cores, coreSets_one hfit.cores, rfl, fun z hz hr c hcz hca hcy => ?_,
    fun n => ?_, ?_, hothers.trans hpothers, hcur.trans hpcur, ?_, fun n g hg => ?_, fun k hk => ?_⟩
  · rw [hpteams]
    exact mem_map_replace hx rfl
  · simp only [Team.placedAs, hfit.die]
  · have hcy : c ∈ if (s.launch x.launch).mxuse x.stage < 2 then [] else f.cores := hcy
    split at hcy
    · cases hcy
    next h2 =>
      rcases (State.coresOpen_spec hfit.opened hcy).2 with h | h
      · exact h2 h
      · exact h z (State.mem_teamsOn hz hr hcz) hca
  · obtain ⟨hsize, hlim, hclear⟩ := firstFit_spec (hfit.win n)
    refine ⟨hsize, fun hn => (hlim hn).trans ?_, fun z hz hd p hp hl hi h0 h1 => ?_⟩
    · match n with
      | 0 => exact le_refl _
      | 1 => exact le_refl _
      | 2 => exact le_refl _
    · exact hclear _ (State.mem_padsTaken hz hd hp hl hi h0 h1)
  · rw [State.startGroups_length, hfit.length]
  · rw [State.startGroups_places]
    exact hfit.nodup
  · obtain ⟨hp, hg⟩ := State.startGroups_get hg
    obtain ⟨c, hcm, hfree⟩ := hfit.free _ hp
    obtain ⟨rfl, hlane, hslot, hstack, hnot⟩ := hfree
    exact ⟨hg, hcm, hlane, hslot, hstack, hnot⟩
  · rw [hmem]
    exact hpmem k hk

/-- Settles O52: a place is what `State.fit` looks for, the order is that of the sorted offers, the times are those of single teams, and each
stage is arbitrated once in a period. -/
theorem teamsPlacedInOrder : Obligations.TeamsPlacedInOrder := ⟨teamPlaced, placementOrder, placementTimes, stageArbiter⟩

end Sys2Proof.Machine

/-! # The one rounding: the nearest integers of a scaled number (R37, R45, R142) -/

namespace Sys2Proof.Machine

/-! ## What the fields of an exact result stand for -/

/-- The magnitude that the fields of an exact result stand for: num / den * 2^exp, or, where more is set, one that lies between
num * 2^exp and the next multiple of 2^exp. -/
def denotes (num den : Nat) (exp : Int) (more : Bool) (a : ℝ) : Prop :=
  if more then den = 1 ∧ num * 2 ^ exp < a ∧ a < (num + 1) * 2 ^ exp else a = num / den * 2 ^ exp

/-- The remainder's code of scaleTo says where the part above the integer lies. -/
def restIs (rest : Nat) (x : ℝ) : Prop :=
  (rest = 0 ∧ x = 0) ∨ (rest = 1 ∧ 0 < x ∧ x < 1 / 2) ∨ (rest = 2 ∧ x = 1 / 2) ∨ (rest = 3 ∧ 1 / 2 < x)

theorem restIs_eq_zero_iff {rest : Nat} {x : ℝ} (h : restIs rest x) : rest = 0 ↔ x = 0 := by
  rcases h with ⟨rfl, rfl⟩ | ⟨rfl, h, -⟩ | ⟨rfl, rfl⟩ | ⟨rfl, h⟩
  · simp
  · simp [h.ne']
  · norm_num
  · have : x ≠ 0 := by linarith
    simp [this]

/-- An exponent split into its multiplier and its divisor, as scaleTo does. -/
theorem two_pow_toNat_div {K : Type} [Field K] [CharZero K] (i : Int) : (2 : K) ^ i.toNat / 2 ^ (-i).toNat = 2 ^ i := by
  rcases le_total 0 i with h | h
  · obtain ⟨n, rfl⟩ := Int.eq_ofNat_of_zero_le h
    simp
  · obtain ⟨n, hn⟩ := Int.eq_ofNat_of_zero_le (Int.neg_nonneg.mpr h)
    obtain rfl : i = -n := by omega
    simp

/-- The quotient that scaleTo divides out is the number in units of 2^q. -/
theorem scaled_eq_div (num den : Nat) (exp q : Int) :
    (num : ℝ) / den * 2 ^ exp / 2 ^ q = (num * 2 ^ (exp - q).toNat : ℕ) / (den * 2 ^ (q - exp).toNat : ℕ) := by
  have h := two_pow_toNat_div (K := ℝ) (exp - q)
  rw [neg_sub, zpow_sub₀ two_ne_zero] at h
  push_cast
  rw [mul_div_assoc, ← h]
  ring

/-- The remainder of a division and what lies above it tell where the quotient stands between two integers. -/
theorem restIs_of_remainder {r d : Nat} {more : Bool} {x : ℝ} (hr : r < d)
    (hx : if more then (r : ℝ) < x * d ∧ x * d < r + 1 ∧ 2 ∣ d else x * d = r) :
    restIs (if r = 0 then (if more then 1 else 0) else if 2 * r < d then 1 else if 2 * r = d then (if more then 3 else 2) else 3) x ∧
      0 ≤ x ∧ x < 1 := by
  have hd : (0 : ℝ) < d := by exact_mod_cast (Nat.zero_le r).trans_lt hr
  have hr' : (r : ℝ) + 1 ≤ d := by exact_mod_cast hr
  have hr0 : (0 : ℝ) ≤ r := r.cast_nonneg
  have below (y : ℝ) (h : x * d < y * d) : x < y := lt_of_mul_lt_mul_right h hd.le
  have above (y : ℝ) (h : y * d < x * d) : y < x := lt_of_mul_lt_mul_right h hd.le
  have level (y : ℝ) (h : x * d = y * d) : x = y := mul_right_cancel₀ hd.ne' h
  cases more with
  | false =>
    simp only [Bool.false_eq_true, if_false] at hx ⊢
    have h01 : 0 ≤ x ∧ x < 1 := ⟨le_of_mul_le_mul_right (by rw [zero_mul, hx]; exact hr0) hd, below 1 (by linarith)⟩
    refine ⟨?_, h01⟩
    split_ifs with h0 h1 h2
    · subst h0
      exact .inl ⟨rfl, level 0 (by simpa using hx)⟩
    · have : (2 : ℝ) * r < d := by exact_mod_cast h1
      have : (1 : ℝ) ≤ r := by exact_mod_cast Nat.pos_of_ne_zero h0
      exact .inr (.inl ⟨rfl, above 0 (by linarith), below _ (by linarith)⟩)
    · have : (2 : ℝ) * r = d := by exact_mod_cast h2
      exact .inr (.inr (.inl ⟨rfl, level _ (by linarith)⟩))
    · have : (d : ℝ) < 2 * r := by exact_mod_cast (by omega : d < 2 * r)
      exact .inr (.inr (.inr ⟨rfl, above _ (by linarith)⟩))
  | true =>
    simp only [if_true] at hx ⊢
    obtain ⟨hlo, hhi, k, rfl⟩ := hx
    push_cast at *
    have h01 : 0 < x ∧ x < 1 := ⟨above 0 (by linarith), below 1 (by linarith)⟩
    refine ⟨?_, h01.1.le, h01.2⟩
    split_ifs with h0 h1 h2
    · subst h0
      have : (1 : ℝ) ≤ k := by exact_mod_cast (by omega : 1 ≤ k)
      exact .inr (.inl ⟨rfl, h01.1, below _ (by push_cast at hhi; linarith)⟩)
    · have : (r : ℝ) + 1 ≤ k := by exact_mod_cast (by omega : r + 1 ≤ k)
      exact .inr (.inl ⟨rfl, h01.1, below _ (by linarith)⟩)
    · have : (r : ℝ) = k := by exact_mod_cast (by omega : r = k)
      exact .inr (.inr (.inr ⟨rfl, above _ (by linarith)⟩))
    · have : (k : ℝ) ≤ r := by exact_mod_cast (by omega : k ≤ r)
      exact .inr (.inr (.inr ⟨rfl, above _ (by linarith)⟩))

/-- scaleTo finds the integer below a number in units of 2^q, and where the rest stands. -/
theorem scaleTo_spec {num den : Nat} {exp q : Int} {more : Bool} {a : ℝ} (hd : 0 < den) (h : denotes num den exp more a)
    (hq : more = true → exp < q) :
    restIs (scaleTo num den exp q more).2 (a / 2 ^ q - (scaleTo num den exp q more).1) ∧
      ((scaleTo num den exp q more).1 : ℝ) ≤ a / 2 ^ q ∧ a / 2 ^ q < (scaleTo num den exp q more).1 + 1 := by
  have hD : 0 < den * 2 ^ (q - exp).toNat := by positivity
  have hscaled := scaled_eq_div num den exp q
  unfold scaleTo
  dsimp only
  generalize hn : num * 2 ^ (exp - q).toNat = n at *
  generalize hd' : den * 2 ^ (q - exp).toNat = d at *
  have hdr : (0 : ℝ) < d := by exact_mod_cast hD
  have hsplit : (n : ℝ) = d * (n / d : ℕ) + (n % d : ℕ) := by exact_mod_cast (Nat.div_add_mod n d).symm
  have key : if more then ((n % d : ℕ) : ℝ) < (a / 2 ^ q - (n / d : ℕ)) * d ∧ (a / 2 ^ q - (n / d : ℕ)) * d < (n % d : ℕ) + 1 ∧
      2 ∣ d
      else (a / 2 ^ q - (n / d : ℕ)) * d = (n % d : ℕ) := by
    cases more with
    | false =>
      simp only [denotes, Bool.false_eq_true, if_false] at h ⊢
      rw [h, hscaled, sub_mul, div_mul_cancel₀ _ hdr.ne', hsplit]
      ring
    | true =>
      simp only [denotes, if_true] at h ⊢
      obtain ⟨rfl, hlo, hhi⟩ := h
      have hlt := hq rfl
      have hnn : n = num := by rw [← hn, Int.toNat_of_nonpos (by omega), pow_zero, mul_one]
      subst hnn
      obtain ⟨j, hj⟩ : ∃ j, (q - exp).toNat = j + 1 := ⟨(q - exp).toNat - 1, by omega⟩
      have hpow : a / 2 ^ q * d = a / 2 ^ exp := by
        have hqe : (2 : ℝ) ^ q = 2 ^ exp * d := by
          rw [← hd', one_mul]
          push_cast
          rw [← zpow_natCast, ← zpow_add₀ two_ne_zero]
          congr 1
          omega
        rw [hqe]
        field_simp
      have hpos : (0 : ℝ) < 2 ^ exp := by positivity
      refine ⟨?_, ?_, ⟨2 ^ j, by rw [← hd', one_mul, hj, pow_succ']⟩⟩
      · rw [sub_mul, hpow, lt_sub_iff_add_lt, lt_div_iff₀ hpos]
        refine lt_of_eq_of_lt ?_ hlo
        rw [hsplit]
        ring
      · rw [sub_mul, hpow, sub_lt_iff_lt_add, div_lt_iff₀ hpos]
        refine lt_of_lt_of_eq hhi ?_
        rw [hsplit]
        ring
  obtain ⟨h1, h2, h3⟩ := restIs_of_remainder (Nat.mod_lt n hD) key
  exact ⟨h1, by linarith, by linarith⟩

/-! ## Rounding up -/

/-- Whether a number is rounded up depends on the ratio of its distances from its neighbours alone. -/
theorem roundsUp_mul (rm : Nat) (neg odd : Bool) {c : ℝ} (hc : 0 < c) (low high : ℝ) :
    roundsUp rm neg odd (c * low) (c * high) ↔ roundsUp rm neg odd low high := by
  unfold roundsUp
  split <;> simp [hc, hc.ne']

/-- A number that is one of its neighbours is not rounded up. -/
theorem not_roundsUp_zero (rm : Nat) (neg odd : Bool) {high : ℝ} (h : 0 < high) : ¬ roundsUp rm neg odd 0 high := by
  unfold roundsUp
  split <;> simp [h.le, h, h.ne']

/-- The rounding of the model on the code of a remainder is R37's on the distances. -/
theorem roundUp_iff (rm : Nat) (neg odd : Bool) {rest : Nat} {x : ℝ} (h : restIs rest x) :
    roundUp rm neg odd rest = true ↔ roundsUp rm neg odd x (1 - x) := by
  have hne := restIs_eq_zero_iff h
  have htie : rest = 2 ↔ x = 1 / 2 := by
    rcases h with ⟨rfl, rfl⟩ | ⟨rfl, -, h⟩ | ⟨rfl, rfl⟩ | ⟨rfl, h⟩
    · norm_num
    · exact iff_of_false (by decide) h.ne
    · norm_num
    · exact iff_of_false (by decide) h.ne'
  have habove : rest = 3 ↔ 1 / 2 < x := by
    rcases h with ⟨rfl, rfl⟩ | ⟨rfl, -, h⟩ | ⟨rfl, rfl⟩ | ⟨rfl, h⟩
    · norm_num
    · exact iff_of_false (by decide) h.not_gt
    · norm_num
    · exact iff_of_true rfl h
  have hhalf : 2 ≤ rest ↔ 1 / 2 ≤ x := by
    rw [le_iff_lt_or_eq (a := (1 : ℝ) / 2), ← habove, eq_comm (a := (1 : ℝ) / 2), ← htie]
    rcases h with ⟨rfl, -⟩ | ⟨rfl, -⟩ | ⟨rfl, -⟩ | ⟨rfl, -⟩ <;> decide
  have e1 : 1 - x ≤ x ↔ 1 / 2 ≤ x := by constructor <;> intro h <;> linarith
  have e2 : 1 - x < x ↔ 1 / 2 < x := by constructor <;> intro h <;> linarith
  have e3 : 1 - x = x ↔ x = 1 / 2 := by constructor <;> intro h <;> linarith
  unfold roundUp roundsUp
  split <;> simp [hne, hhalf, habove, htie, e1, e2, e3]

/-- roundInt rounds to the integer that R37 names, and its remainder is 0 where nothing was rounded. -/
theorem roundInt_spec (rm : Nat) (neg : Bool) {num den : Nat} {exp q : Int} {more : Bool} {a : ℝ} (hd : 0 < den)
    (h : denotes num den exp more a) (hq : more = true → exp < q) :
    roundsInt rm neg (a / 2 ^ q) (roundInt rm neg num den exp q more).1 ∧
      ((roundInt rm neg num den exp q more).2 = 0 ↔ ((roundInt rm neg num den exp q more).1 : ℝ) = a / 2 ^ q) := by
  obtain ⟨hrest, hlo, hhi⟩ := scaleTo_spec hd h hq
  unfold roundInt
  dsimp only
  generalize scaleTo num den exp q more = r at *
  have hup := roundUp_iff rm neg (r.1 % 2 == 1) hrest
  rw [show 1 - (a / 2 ^ q - r.1) = (r.1 : ℝ) + 1 - a / 2 ^ q by ring] at hup
  rw [restIs_eq_zero_iff hrest]
  constructor
  · refine ⟨r.1, hlo, hhi, ?_⟩
    by_cases hu : roundUp rm neg (r.1 % 2 == 1) r.2 = true
    · exact .inl ⟨hup.mp hu, by simp [hu]⟩
    · exact .inr ⟨fun hc => hu (hup.mpr hc), by simp [hu]⟩
  · by_cases hu : roundUp rm neg (r.1 % 2 == 1) r.2 = true
    · have hne : a / 2 ^ q - r.1 ≠ 0 := fun h0 => by
        have := hup.mp hu
        rw [h0] at this
        exact not_roundsUp_zero rm neg _ (by linarith) this
      simp only [hu, if_true, hne, false_iff]
      push_cast
      exact fun h => by linarith
    · simp only [hu]
      constructor <;> intro h <;> simp at h ⊢ <;> linarith

end Sys2Proof.Machine

/-! # The one rounding: encodings (R36, R37, R39) -/

namespace Sys2Proof.Machine

/-! ## The values of magnitude encodings -/

theorem two_pow_p {p : Nat} (hp : 2 ≤ p) : 2 ^ p = 2 * 2 ^ (p - 1) := by
  rw [← pow_succ', Nat.sub_add_cancel (by omega)]

/-- n units of the binade j places above the lowest one are the magnitude j * 2^(p-1) + n, up to the next binade's first. -/
theorem Fmt.mag_shift {f : Fmt} (hp : 2 ≤ f.p) {j n : Nat} (hn : n ≤ 2 ^ f.p) (hj : j = 0 ∨ 2 ^ (f.p - 1) ≤ n) :
    f.mag (j * 2 ^ (f.p - 1) + n) = n * 2 ^ (f.qmin + j) := by
  rw [two_pow_p hp] at hn
  unfold Fmt.mag
  dsimp only
  have hP : 0 < 2 ^ (f.p - 1) := by positivity
  generalize 2 ^ (f.p - 1) = P at *
  rcases Nat.lt_or_ge n P with h | h
  · obtain rfl : j = 0 := hj.resolve_right (by omega)
    simp [Nat.div_eq_of_lt h, Nat.mod_eq_of_lt h]
  · rcases Nat.lt_or_eq_of_le hn with h2 | rfl
    · obtain ⟨r, rfl⟩ := Nat.exists_eq_add_of_le h
      rw [show j * P + (P + r) = P * (j + 1) + r by ring, Nat.mul_add_div hP, Nat.mul_add_mod,
        Nat.div_eq_of_lt (by omega : r < P), Nat.mod_eq_of_lt (by omega : r < P)]
      simp
    · rw [show j * P + 2 * P = P * (j + 2) by ring, Nat.mul_div_cancel_left _ hP, Nat.mul_mod_right]
      simp only [Nat.add_zero, Nat.add_one_sub_one, if_neg (Nat.succ_ne_zero _)]
      push_cast
      rw [← add_assoc, zpow_add_one₀ two_ne_zero]
      ring

/-- Every magnitude lies in some binade. -/
theorem Fmt.exists_binade (f : Fmt) (n : Nat) :
    ∃ j m, n = j * 2 ^ (f.p - 1) + m ∧ m < 2 * 2 ^ (f.p - 1) ∧ (j = 0 ∨ 2 ^ (f.p - 1) ≤ m) := by
  have hP : 0 < 2 ^ (f.p - 1) := by positivity
  generalize 2 ^ (f.p - 1) = P at *
  rcases Nat.lt_or_ge n P with h | h
  · exact ⟨0, n, by omega, by omega, .inl rfl⟩
  · have hmod := Nat.mod_lt n hP
    have hdiv := Nat.div_add_mod n P
    have h1 : 1 ≤ n / P := (Nat.one_le_div_iff hP).mpr h
    obtain ⟨j, hj⟩ := Nat.exists_eq_add_of_le' h1
    rw [hj] at hdiv
    exact ⟨j, P + n % P, by linarith, by omega, .inr (by omega)⟩

theorem Fmt.mag_strictMono {f : Fmt} (hp : 2 ≤ f.p) : StrictMono f.mag := by
  refine strictMono_nat_of_lt_succ fun n => ?_
  obtain ⟨j, m, rfl, hm, hj⟩ := f.exists_binade n
  have h2 := two_pow_p hp
  rw [add_assoc, Fmt.mag_shift hp (by omega) hj, Fmt.mag_shift hp (by omega) (hj.imp_right (by omega))]
  exact mul_lt_mul_of_pos_right (by push_cast; linarith) (by positivity)

@[simp] theorem Fmt.mag_zero (f : Fmt) : f.mag 0 = 0 := by simp [Fmt.mag]

theorem Fmt.mag_nonneg {f : Fmt} (hp : 2 ≤ f.p) (n : Nat) : 0 ≤ f.mag n := by
  rw [← f.mag_zero]
  exact (Fmt.mag_strictMono hp).monotone n.zero_le

theorem Fmt.mag_eq_zero_iff {f : Fmt} (hp : 2 ≤ f.p) {n : Nat} : f.mag n = 0 ↔ n = 0 := by
  rw [← f.mag_zero]
  exact (Fmt.mag_strictMono hp).injective.eq_iff

/-- A significand of p bits at no less than the least exponent is the value of an encoding. -/
theorem Fmt.exists_mag {f : Fmt} (hp : 2 ≤ f.p) {m : Nat} {e : Int} (hm : m ≤ 2 ^ f.p) (he : f.qmin ≤ e) :
    ∃ k, f.mag k = m * 2 ^ e := by
  obtain ⟨j, hj⟩ := Int.eq_ofNat_of_zero_le (sub_nonneg.mpr he)
  obtain rfl : e = f.qmin + j := by omega
  clear he hj
  induction j generalizing m with
  | zero => exact ⟨m, by simpa using Fmt.mag_shift hp (j := 0) hm (.inl rfl)⟩
  | succ j ih =>
    rcases Nat.lt_or_ge m (2 ^ (f.p - 1)) with h | h
    · obtain ⟨k, hk⟩ := ih (m := 2 * m) (by rw [two_pow_p hp]; omega)
      refine ⟨k, hk.trans ?_⟩
      push_cast
      rw [← add_assoc, zpow_add_one₀ two_ne_zero]
      ring
    · exact ⟨_, Fmt.mag_shift hp hm (.inr h)⟩

/-! ## Rounding to an encoding -/

/-- An encoding that a number rounds to is unique: the value of an encoding rounds to that encoding. -/
theorem Fmt.rounds_mag {f : Fmt} (hp : 2 ≤ f.p) {rm : Nat} {neg : Bool} {k n : Nat} (h : f.rounds rm neg (f.mag k) n) : n = k := by
  obtain ⟨i, hlo, hhi, hup⟩ := h
  have hmono := Fmt.mag_strictMono hp
  have hle : i ≤ k := hmono.le_iff_le.mp (by exact_mod_cast hlo)
  have hlt : k < i + 1 := hmono.lt_iff_lt.mp (by exact_mod_cast hhi)
  obtain rfl : i = k := by omega
  rw [sub_self] at hup
  obtain ⟨hu, -⟩ | ⟨-, rfl⟩ := hup
  · exact absurd hu (not_roundsUp_zero _ _ _ (sub_pos.mpr hhi))
  · rfl

/-- Rounding to the units of a binade is rounding to the encodings of the format. -/
theorem Fmt.rounds_of_roundsInt {f : Fmt} (hp : 2 ≤ f.p) {rm : Nat} {neg : Bool} {a : ℝ} {j n : Nat}
    (h : roundsInt rm neg (a / 2 ^ (f.qmin + j)) n) (hlo : j = 0 ∨ 2 ^ (f.p - 1) ≤ a / 2 ^ (f.qmin + j))
    (hhi : a / 2 ^ (f.qmin + j) < 2 ^ f.p) :
    f.rounds rm neg a (j * 2 ^ (f.p - 1) + n) ∧ f.mag (j * 2 ^ (f.p - 1) + n) = n * 2 ^ (f.qmin + j) := by
  obtain ⟨k, hk, hk1, hup⟩ := h
  have hunit : (0 : ℝ) < 2 ^ (f.qmin + j) := by positivity
  have hkp : k < 2 ^ f.p := by exact_mod_cast hk.trans_lt hhi
  have hjk : j = 0 ∨ 2 ^ (f.p - 1) ≤ k := hlo.imp_right fun h => by
    have : ((2 ^ (f.p - 1) : ℕ) : ℝ) < (k + 1 : ℕ) := by push_cast; linarith
    exact Nat.lt_succ_iff.mp (by exact_mod_cast this)
  have hmag := Fmt.mag_shift hp hkp.le hjk
  have hmag1 := Fmt.mag_shift hp (n := k + 1) hkp (hjk.imp_right (by omega))
  have hn : n = k ∨ n = k + 1 := hup.symm.imp And.right And.right
  refine ⟨⟨j * 2 ^ (f.p - 1) + k, ?_, ?_, ?_⟩, ?_⟩
  · rw [hmag]
    push_cast
    exact (le_div_iff₀ hunit).mp hk
  · rw [add_assoc, hmag1]
    push_cast
    exact (div_lt_iff₀ hunit).mp hk1
  · have hodd : (j * 2 ^ (f.p - 1) + k) % 2 = k % 2 := by
      obtain ⟨c, hc⟩ : ∃ c, 2 ^ (f.p - 1) = 2 * c := ⟨2 ^ (f.p - 2), by rw [← pow_succ']; congr 1; omega⟩
      rw [hc, show j * (2 * c) = 2 * (j * c) by ring, Nat.mul_add_mod]
    have hlow : a - (f.mag (j * 2 ^ (f.p - 1) + k) : ℝ) = 2 ^ (f.qmin + j) * (a / 2 ^ (f.qmin + j) - k) := by
      rw [hmag]; push_cast; field_simp
    have hhigh : (f.mag (j * 2 ^ (f.p - 1) + (k + 1)) : ℝ) - a = 2 ^ (f.qmin + j) * (k + 1 - a / 2 ^ (f.qmin + j)) := by
      rw [hmag1]; push_cast; field_simp
    dsimp only
    rw [hodd, hlow, add_assoc, hhigh, roundsUp_mul _ _ _ hunit]
    exact hup.imp (And.imp_right (by omega)) (And.imp_right (by omega))
  · exact Fmt.mag_shift hp (by omega) (hjk.imp_right (by omega))

/-! ## Tiny results -/

/-- A number of a binade further down is tiny. -/
theorem Fmt.tiny_of_lt {f : Fmt} (hp : 2 ≤ f.p) (rm : Nat) (neg : Bool) {a : ℝ} (h : a < 2 ^ (f.qmin + (f.p : Int) - 2)) :
    f.tiny rm neg a := by
  have hunit : (2 : ℝ) ^ (f.qmin - 1) ≤ 2 ^ (f.qmin + (f.p : Int) - 2) := zpow_le_zpow_right₀ one_le_two (by omega)
  have hleast : (2 : ℝ) ^ (f.qmin + (f.p : Int) - 1) = 2 ^ (f.qmin + (f.p : Int) - 2) * 2 := by
    rw [← zpow_add_one₀ two_ne_zero]
    congr 1
    ring
  refine .inl ?_
  linarith

/-- No number from the least normal value on is tiny. -/
theorem Fmt.not_tiny_of_le {f : Fmt} (rm : Nat) (neg : Bool) {a : ℝ} (h : 2 ^ (f.qmin + (f.p : Int) - 1) ≤ a) : ¬ f.tiny rm neg a := by
  have hunit : (0 : ℝ) < 2 ^ (f.qmin - 1) := by positivity
  rintro (hc | ⟨hc, -⟩) <;> linarith

/-- In the binade below the least normal value, a number is tiny unless it rounds up to that value. -/
theorem Fmt.tiny_iff_of_lt {f : Fmt} (hp : 2 ≤ f.p) {rm : Nat} {neg : Bool} {a : ℝ} {n : Nat} (hhi : a < 2 ^ (f.qmin + (f.p : Int) - 1))
    (h : roundsInt rm neg (a / 2 ^ (f.qmin - 1)) n) : f.tiny rm neg a ↔ n < 2 ^ f.p := by
  have hunit : (0 : ℝ) < 2 ^ (f.qmin - 1) := by positivity
  have hleast : (2 : ℝ) ^ (f.qmin + (f.p : Int) - 1) = 2 ^ f.p * 2 ^ (f.qmin - 1) := by
    rw [← zpow_natCast, ← zpow_add₀ two_ne_zero]
    congr 1
    ring
  unfold Fmt.tiny
  dsimp only
  rw [hleast] at hhi ⊢
  obtain ⟨k, hk, hk1, hup⟩ := h
  rw [le_div_iff₀ hunit] at hk
  rw [div_lt_iff₀ hunit] at hk1
  have hkp : k < 2 ^ f.p := by exact_mod_cast lt_of_mul_lt_mul_right (hk.trans_lt hhi) hunit.le
  by_cases hlast : k + 1 = 2 ^ f.p
  · have hk' : (k : ℝ) = 2 ^ f.p - 1 := by
      rw [eq_sub_iff_add_eq]
      exact_mod_cast hlast
    have hodd : (k % 2 == 1) = true := by
      have := two_pow_p hp
      simp only [beq_iff_eq]
      omega
    have hlow : a - (2 ^ f.p * 2 ^ (f.qmin - 1) - 2 ^ (f.qmin - 1)) = 2 ^ (f.qmin - 1) * (a / 2 ^ (f.qmin - 1) - k) := by
      rw [hk']
      field_simp
    have hhigh : 2 ^ f.p * 2 ^ (f.qmin - 1) - a = 2 ^ (f.qmin - 1) * (k + 1 - a / 2 ^ (f.qmin - 1)) := by
      rw [hk']
      field_simp
      ring
    rw [hlow, hhigh, roundsUp_mul _ _ _ hunit]
    dsimp only at hup
    rw [hodd] at hup
    obtain ⟨hu, rfl⟩ | ⟨hu, rfl⟩ := hup
    · refine iff_of_false ?_ (by omega)
      rintro (hle | ⟨-, hn⟩)
      · have heq : a / 2 ^ (f.qmin - 1) - k = 0 := by
          rw [sub_eq_zero, div_eq_iff hunit.ne']
          rw [hk'] at hk ⊢
          linarith
        rw [heq] at hu
        refine not_roundsUp_zero rm neg true ?_ hu
        rw [sub_pos, div_lt_iff₀ hunit]
        exact hk1
      · exact hn hu
    · exact iff_of_true (.inr ⟨hhi, hu⟩) hkp
  · have hle : (k : ℝ) + 1 ≤ 2 ^ f.p - 1 := by
      have : (k : ℝ) + 2 ≤ 2 ^ f.p := by exact_mod_cast (by omega : k + 2 ≤ 2 ^ f.p)
      linarith
    refine iff_of_true (.inl ?_) ?_
    · have := mul_le_mul_of_nonneg_right hle hunit.le
      linarith
    · rcases hup with ⟨-, rfl⟩ | ⟨-, rfl⟩ <;> omega

/-- What a number rounds to with the precision of the format and no least exponent says whether it is tiny after rounding (R39). -/
theorem Fmt.tiny_iff {f : Fmt} (hp : 2 ≤ f.p) {rm : Nat} {neg : Bool} {a : ℝ} {e : Int} {n : Nat} (hlo : 2 ^ e ≤ a) (hhi : a < 2 ^ (e + 1))
    (h : roundsInt rm neg (a / 2 ^ (e - ((f.p : Int) - 1))) n) :
    f.tiny rm neg a ↔ e - ((f.p : Int) - 1) < f.qmin ∧ ¬ (e - ((f.p : Int) - 1) + 1 = f.qmin ∧ 2 ^ f.p ≤ n) := by
  rcases lt_trichotomy (e - ((f.p : Int) - 1) + 1) f.qmin with hlt | heq | hgt
  · have hbelow : a < 2 ^ (f.qmin + (f.p : Int) - 2) := hhi.trans_le (zpow_le_zpow_right₀ one_le_two (by omega))
    exact iff_of_true (Fmt.tiny_of_lt hp rm neg hbelow) ⟨by omega, fun hc => by omega⟩
  · rw [show e - ((f.p : Int) - 1) = f.qmin - 1 by omega] at h ⊢
    rw [Fmt.tiny_iff_of_lt hp (hhi.trans_eq (by congr 1; omega)) h]
    simp
  · have habove : (2 : ℝ) ^ (f.qmin + (f.p : Int) - 1) ≤ a := le_trans (zpow_le_zpow_right₀ one_le_two (by omega)) hlo
    exact iff_of_false (Fmt.not_tiny_of_le rm neg habove) fun hc => by omega

end Sys2Proof.Machine

/-! # The one rounding: the encoding and the conditions (R25, R37, R39) -/

namespace Sys2Proof.Machine

/-- ilog is the floor of the base-2 logarithm of a quotient. -/
theorem ilog_spec {num den : Nat} (hn : num ≠ 0) (hd : 0 < den) :
    (2 : ℝ) ^ ilog num den ≤ num / den ∧ (num : ℝ) / den < 2 ^ (ilog num den + 1) := by
  have hdr : (0 : ℝ) < den := by exact_mod_cast hd
  have num_lo : (2 : ℝ) ^ (Nat.log2 num : Int) ≤ num := by exact_mod_cast Nat.log2_self_le hn
  have num_hi : (num : ℝ) < 2 ^ ((Nat.log2 num : Int) + 1) := by exact_mod_cast Nat.lt_log2_self (n := num)
  have den_lo : (2 : ℝ) ^ (Nat.log2 den : Int) ≤ den := by exact_mod_cast Nat.log2_self_le hd.ne'
  have den_hi : (den : ℝ) < 2 ^ ((Nat.log2 den : Int) + 1) := by exact_mod_cast Nat.lt_log2_self (n := den)
  unfold ilog
  dsimp only
  generalize hl : (Nat.log2 num : Int) - Nat.log2 den = l
  have htest : num * 2 ^ (-l).toNat < den * 2 ^ l.toNat ↔ (num : ℝ) / den < 2 ^ l := by
    rw [← two_pow_toNat_div, div_lt_div_iff₀ hdr (by positivity), ← Nat.cast_lt (α := ℝ)]
    push_cast
    rw [mul_comm (2 ^ l.toNat : ℝ)]
  split_ifs with h <;> rw [htest] at h
  · refine ⟨?_, by simpa using h⟩
    rw [le_div_iff₀ hdr]
    calc (2 : ℝ) ^ (l - 1) * den ≤ 2 ^ (l - 1) * 2 ^ ((Nat.log2 den : Int) + 1) := by gcongr
      _ = 2 ^ (Nat.log2 num : Int) := by rw [← zpow_add₀ two_ne_zero]; congr 1; omega
      _ ≤ num := num_lo
  · refine ⟨not_lt.mp h, ?_⟩
    rw [div_lt_iff₀ hdr]
    calc (num : ℝ) < 2 ^ ((Nat.log2 num : Int) + 1) := num_hi
      _ = 2 ^ (l + 1) * 2 ^ (Nat.log2 den : Int) := by rw [← zpow_add₀ two_ne_zero]; congr 1; omega
      _ ≤ 2 ^ (l + 1) * den := by gcongr

/-- The exponent that roundFin takes is that of the number. -/
theorem denotes_binade {num den : Nat} {exp : Int} {more : Bool} {a : ℝ} (hn : num ≠ 0) (hd : 0 < den) (h : denotes num den exp more a) :
    (2 : ℝ) ^ (ilog num den + exp) ≤ a ∧ a < 2 ^ (ilog num den + exp + 1) := by
  obtain ⟨hlo, hhi⟩ := ilog_spec hn hd
  have hexp : (0 : ℝ) < 2 ^ exp := by positivity
  rw [add_right_comm, zpow_add₀ two_ne_zero, zpow_add₀ two_ne_zero]
  cases more with
  | false =>
    simp only [denotes, Bool.false_eq_true, if_false] at h
    exact h ▸ ⟨by gcongr, by gcongr⟩
  | true =>
    simp only [denotes, if_true] at h
    obtain ⟨rfl, h1, h2⟩ := h
    rw [Nat.cast_one, div_one] at hlo hhi
    refine ⟨(mul_le_mul_of_nonneg_right hlo hexp.le).trans h1.le, h2.trans_le (mul_le_mul_of_nonneg_right ?_ hexp.le)⟩
    have hnat : 0 ≤ ilog num 1 + 1 := by
      by_contra hc
      have hsmall : (2 : ℝ) ^ (ilog num 1 + 1) ≤ 1 := zpow_le_one_of_nonpos₀ one_le_two (by omega)
      have hlarge : (1 : ℝ) ≤ num := by exact_mod_cast Nat.pos_of_ne_zero hn
      linarith
    obtain ⟨i, hi⟩ := Int.eq_ofNat_of_zero_le hnat
    rw [hi] at hhi ⊢
    exact_mod_cast Nat.succ_le_of_lt (by exact_mod_cast hhi)

/-- An encoding, and what its conditions are decided by, make up a rounded result. -/
theorem Fmt.gives_of_rounds {f : Fmt} (hinf : 0 < f.inf) {rm : Nat} {ftz neg tiny inexact : Bool} {a : ℝ} {n : Nat}
    (h : f.rounds rm neg a n) (ht : tiny = true ↔ f.tiny rm neg a) (hx : inexact = true ↔ (f.mag n : ℝ) ≠ a) :
    f.gives rm ftz neg a
      (if tiny && ftz then (signBit f neg, fUF ||| fNX)
      else if f.inf ≤ n then
        (signBit f neg + (if rm = 1 || rm = 6 || (rm = 2 && !neg) || (rm = 3 && neg) then f.inf - 1 else f.inf), fOF ||| fNX)
      else (signBit f neg + n, if inexact then (if tiny then fUF ||| fNX else fNX) else 0)) := by
  refine ⟨n, h, fun hflush => ?_, fun hflush hover => ?_, fun hflush hunder => ?_⟩ <;> rw [← ht] at hflush
  · simp [hflush, signBit, fUF, fNX]
  · rw [← Bool.and_eq_true] at hflush
    rw [if_neg hflush, if_pos hover]
    refine ⟨rfl, fun hk => ?_, fun hk => ?_⟩
    · rw [if_pos (by simpa [or_assoc] using hk)]
      exact (Nat.add_sub_assoc hinf _).symm
    · rw [if_neg (by simpa [or_assoc] using hk)]
      rfl
  · rw [← Bool.and_eq_true] at hflush
    rw [if_neg hflush, if_neg (Nat.not_le.mpr hunder), ← hx, ← ht]
    refine ⟨rfl, fun h => if_neg fun hc => hx.mp hc h, fun h => ?_⟩
    rw [if_pos h]
    exact ⟨fun ht => if_pos ht, fun ht => if_neg ht⟩

/-- What the rounding needs of the two formats. -/
theorem fmt_facts {f : Fmt} (hf : f = f32 ∨ f = bf16) : 2 ≤ f.p ∧ 0 < f.inf := by
  rcases hf with rfl | rfl <;> decide

/-- The one rounding (R37, R39): what roundFin gives for a non-zero number is the format's encoding of it and its conditions. Where the
fields hold the number only up to the next integer, they must hold more bits than the format. -/
theorem roundFin_gives {f : Fmt} (hf : f = f32 ∨ f = bf16) (rm : Nat) (ftz neg : Bool) {num den : Nat} {exp : Int} {more : Bool} {a : ℝ}
    (hn : num ≠ 0) (hd : 0 < den) (h : denotes num den exp more a) (hm : more = true → 2 ^ f.p ≤ num) :
    f.gives rm ftz neg a (roundFin f rm ftz neg num den exp more) := by
  obtain ⟨hp, hinf⟩ := fmt_facts hf
  obtain ⟨hlo, hhi⟩ := denotes_binade hn hd h
  unfold roundFin
  rw [if_neg hn]
  dsimp only
  generalize ilog num den + exp = e at *
  have hfine : more = true → exp < e - ((f.p : Int) - 1) := fun h1 => by
    have hbits : (2 : ℝ) ^ (f.p + exp : Int) ≤ a := by
      simp only [denotes, h1, if_true] at h
      refine le_trans ?_ h.2.1.le
      rw [zpow_add₀ two_ne_zero, zpow_natCast]
      gcongr
      exact_mod_cast hm h1
    have := (zpow_lt_zpow_iff_right₀ (one_lt_two (α := ℝ))).mp (hbits.trans_lt hhi)
    omega
  obtain ⟨j, hj⟩ : ∃ j : Nat, (if e - ((f.p : Int) - 1) < f.qmin then f.qmin else e - ((f.p : Int) - 1)) = f.qmin + j := by
    split
    · exact ⟨0, by simp⟩
    · exact ⟨(e - ((f.p : Int) - 1) - f.qmin).toNat, by omega⟩
  obtain ⟨hround, hexact⟩ := roundInt_spec rm neg (q := f.qmin + j) hd h fun h1 => by have := hfine h1; split at hj <;> omega
  have htiny := Fmt.tiny_iff hp hlo hhi (roundInt_spec rm neg hd h hfine).1
  have hunit : (0 : ℝ) < 2 ^ (f.qmin + j) := by positivity
  obtain ⟨hrounds, hmag⟩ := Fmt.rounds_of_roundsInt hp hround (by
      by_cases h0 : j = 0
      · exact .inl h0
      · refine .inr ((le_div_iff₀ hunit).mpr (le_trans ?_ hlo))
        rw [← zpow_natCast, ← zpow_add₀ two_ne_zero]
        refine (zpow_le_zpow_iff_right₀ one_lt_two).mpr ?_
        split at hj <;> omega) (by
      rw [div_lt_iff₀ hunit, ← zpow_natCast, ← zpow_add₀ two_ne_zero]
      refine hhi.trans_le ((zpow_le_zpow_iff_right₀ one_lt_two).mpr ?_)
      split at hj <;> omega)
  rw [hj, add_sub_cancel_left, Int.toNat_natCast]
  generalize (roundInt rm neg num den exp (f.qmin + j) more) = r at *
  refine Fmt.gives_of_rounds hinf hrounds (.trans ?_ htiny.symm) ?_
  · simp [imp_iff_not_or]
  · rw [hmag, bne_iff_ne, Ne, Ne, not_iff_not, hexact, eq_div_iff hunit.ne']
    push_cast
    rfl

end Sys2Proof.Machine

/-! # Values read and rounded again (R36, R38, R43) -/

namespace Sys2Proof.Machine

/-! ## Exact results -/

theorem roundFin_zero (f : Fmt) (rm : Nat) (ftz neg : Bool) (den : Nat) (exp : Int) (more : Bool) :
    roundFin f rm ftz neg 0 den exp more = (signBit f neg, 0) := rfl

/-- A sign and a quotient of integers scaled by a power of two round as the rational that they stand for. -/
theorem roundFin_result {f : Fmt} (hf : f = f32 ∨ f = bf16) (rm : Nat) (ftz : Bool) {neg zeroNeg : Bool} {num den : Nat} {exp : Int} {v : ℚ}
    (hd : 0 < den) (hv : v = (if neg then -1 else 1) * (num / den * 2 ^ exp)) (hz : num = 0 → zeroNeg = neg) :
    f.result rm ftz v zeroNeg (roundFin f rm ftz neg num den exp false) := by
  rcases Nat.eq_zero_or_pos num with rfl | hn
  · obtain rfl := hz rfl
    obtain rfl : v = 0 := by simpa using hv
    exact ⟨fun h => absurd rfl h, fun _ => rfl⟩
  · have hpos : (0 : ℚ) < num / den * 2 ^ exp := by positivity
    have habs : |v| = num / den * 2 ^ exp := by
      rw [hv, abs_mul, abs_of_pos hpos]
      cases neg <;> simp
    have hneg : decide (v < 0) = neg := by
      cases neg <;> simp [hv, hpos, hpos.le]
    refine ⟨fun _ => ?_, fun h => ?_⟩
    · rw [hneg, habs]
      exact roundFin_gives hf rm ftz neg hn.ne' hd (by simp [denotes]) (by simp)
    · rw [h, abs_zero] at habs
      exact absurd habs hpos.ne

/-- A signed integer scaled by a power of two rounds as the rational that it stands for. -/
theorem roundFin_int_result {f : Fmt} (hf : f = f32 ∨ f = bf16) (rm : Nat) (ftz : Bool) (t : Int) (e : Int) :
    f.result rm ftz (t * 2 ^ e) false (roundFin f rm ftz (decide (t < 0)) t.natAbs 1 e false) := by
  refine roundFin_result hf rm ftz one_pos ?_ fun h => by simp [Int.natAbs_eq_zero.mp h]
  rw [Nat.cast_one, div_one, ← mul_assoc, Nat.cast_natAbs]
  rcases lt_or_ge t 0 with h | h
  · simp [h, abs_of_neg]
  · simp [h, abs_of_nonneg]

/-- The value of an encoding rounds to that encoding, in every mode and with no condition. -/
theorem roundFin_mag {f : Fmt} (hf : f = f32 ∨ f = bf16) (rm : Nat) (neg : Bool) {m k : Nat} {e : Int} (h : (m : ℚ) * 2 ^ e = f.mag k)
    (hk : k < f.inf) : roundFin f rm false neg m 1 e false = (signBit f neg + k, 0) := by
  obtain ⟨hp, -⟩ := fmt_facts hf
  rcases Nat.eq_zero_or_pos m with rfl | hm
  · rw [Nat.cast_zero, zero_mul, eq_comm, Fmt.mag_eq_zero_iff hp] at h
    rw [h, roundFin_zero, Nat.add_zero]
  · have hval : denotes m 1 e false (f.mag k) := by simp [denotes, ← h]
    obtain ⟨n, hround, -, -, hexact⟩ := roundFin_gives hf rm false neg hm.ne' one_pos hval (by simp)
    obtain rfl := Fmt.rounds_mag hp hround
    obtain ⟨h1, h2, -⟩ := hexact (by simp) hk
    exact Prod.ext h1 (h2 rfl)

/-! ## Reading encodings -/

theorem exists_nan_of_isNan {a : FVal} (h : a.isNan = true) : ∃ s, a = .nan s := by
  cases a with
  | nan s => exact ⟨s, rfl⟩
  | inf n => exact absurd h Bool.false_ne_true
  | fin n m e => exact absurd h Bool.false_ne_true

theorem bit_sign {n x : Nat} (hx : x < 2 ^ (n + 1)) : bit x n = decide (2 ^ n ≤ x) := by
  rw [pow_succ] at hx
  unfold bit
  rcases Nat.lt_or_ge x (2 ^ n) with h | h
  · simp [Nat.div_eq_of_lt h, h]
  · rw [Nat.div_eq_of_lt_le (k := 1) (by omega) (by omega)]
    simp [h]

/-- A sign bit and a magnitude make up an encoding. -/
theorem signBit_add_mag {f : Fmt} {x : Nat} (hx : x < 2 ^ (f.sign + 1)) : signBit f (decide (2 ^ f.sign ≤ x)) + x % 2 ^ f.sign = x := by
  rw [pow_succ] at hx
  unfold signBit
  rcases Nat.lt_or_ge x (2 ^ f.sign) with h | h
  · simp [Nat.mod_eq_of_lt h, h]
  · rw [if_pos (by simpa using h), Nat.mod_eq_sub_mod h, Nat.mod_eq_of_lt (by omega)]
    omega

/-- A NaN (R36, R38): it signals where the first bit of its fraction is 0. -/
theorem decodeF_nan {f : Fmt} (hf : f = f32 ∨ f = bf16) (daz : Bool) {x : Nat} (hm : f.inf < x % 2 ^ f.sign) :
    decodeF f daz x = .nan (decide (x % 2 ^ f.sign < f.inf + 2 ^ (f.p - 2))) := by
  unfold decodeF
  rw [if_pos hm]
  congr 1
  rw [Bool.eq_iff_iff, decide_eq_true_iff]
  rcases hf with rfl | rfl <;> simp only [f32, bf16, bit] at * <;> simp <;> omega

theorem decodeF_inf {f : Fmt} (daz : Bool) {x : Nat} (hx : x < 2 ^ (f.sign + 1)) (hm : x % 2 ^ f.sign = f.inf) :
    decodeF f daz x = .inf (decide (2 ^ f.sign ≤ x)) := by
  unfold decodeF
  rw [if_neg (by omega), if_pos hm, bit_sign hx]

/-- The value of a finite encoding (R36), with a subnormal read as zero under DAZ (R25); its significand has p bits. -/
theorem decodeF_fin {f : Fmt} (hp : 2 ≤ f.p) (daz : Bool) {x : Nat} (hx : x < 2 ^ (f.sign + 1)) (hm : x % 2 ^ f.sign < f.inf) :
    ∃ m e, decodeF f daz x = .fin (decide (2 ^ f.sign ≤ x)) m e ∧
      (m : ℚ) * 2 ^ e = (if daz = true ∧ x % 2 ^ f.sign < 2 ^ (f.p - 1) then 0 else f.mag (x % 2 ^ f.sign)) ∧
      m < 2 ^ f.p ∧ f.qmin ≤ e := by
  have hP : 0 < 2 ^ (f.p - 1) := by positivity
  have hmod := Nat.mod_lt (x % 2 ^ f.sign) hP
  unfold decodeF Fmt.mag
  rw [if_neg (by omega), if_neg (by omega), bit_sign hx, two_pow_p hp]
  dsimp only
  by_cases hsub : x % 2 ^ f.sign < 2 ^ (f.p - 1)
  · rw [Nat.div_eq_of_lt hsub]
    cases daz
    · exact ⟨_, _, rfl, by simp, by omega, le_rfl⟩
    · exact ⟨_, _, rfl, by simp [hsub], by omega, le_rfl⟩
  · have hne : x % 2 ^ f.sign / 2 ^ (f.p - 1) ≠ 0 := (Nat.div_pos (by omega) hP).ne'
    rw [if_neg hne]
    exact ⟨_, _, rfl, by simp [hsub, hne], by omega, by omega⟩

/-- The significand of a finite encoding is its fraction, or a normal value's with the leading bit. -/
theorem significand_of_decodeF {f : Fmt} {x m : Nat} {n : Bool} {e : Int} (h : decodeF f false x = .fin n m e) :
    (m = x % 2 ^ f.sign ∧ x % 2 ^ f.sign < 2 ^ (f.p - 1)) ∨ (2 ^ (f.p - 1) ≤ m ∧ 2 ^ (f.p - 1) ≤ x % 2 ^ f.sign) := by
  have hP : 0 < 2 ^ (f.p - 1) := by positivity
  unfold decodeF at h
  simp only [Bool.false_eq_true, if_false] at h
  split_ifs at h with _ _ hsub <;> cases h
  · have hlt := (Nat.div_eq_zero_iff_lt hP).mp hsub
    exact .inl ⟨Nat.mod_eq_of_lt hlt, hlt⟩
  · exact .inr ⟨Nat.le_add_right _ _, not_lt.mp fun hlt => hsub (Nat.div_eq_of_lt hlt)⟩

/-- An encoding is a NaN, an infinity or finite. -/
theorem decodeF_isNan_iff {f : Fmt} (hf : f = f32 ∨ f = bf16) (daz : Bool) {x : Nat} (hx : x < 2 ^ (f.sign + 1)) :
    (decodeF f daz x).isNan = true ↔ f.inf < x % 2 ^ f.sign := by
  rcases lt_trichotomy (x % 2 ^ f.sign) f.inf with h | h | h
  · obtain ⟨m, e, hd, -⟩ := decodeF_fin (fmt_facts hf).1 daz hx h
    simp [hd, FVal.isNan, h.le]
  · simp [decodeF_inf daz hx h, FVal.isNan, h]
  · simp [decodeF_nan hf daz h, FVal.isNan, h]

/-! ## Rounding a value that was read -/

/-- A value that is no NaN, read and rounded without flushing, is the encoding that it was read from. -/
theorem roundF_exactOf {f : Fmt} (hf : f = f32 ∨ f = bf16) (rm : Nat) {x : Nat} (hx : x < 2 ^ (f.sign + 1))
    (hn : (decodeF f false x).isNan = false) : roundF f rm false (exactOf (decodeF f false x)) = (x, 0) := by
  have hle : x % 2 ^ f.sign ≤ f.inf := by
    rw [← not_lt, ← decodeF_isNan_iff hf false hx, hn]
    exact Bool.false_ne_true
  rcases hle.lt_or_eq with h | h
  · obtain ⟨m, e, hd, hval, -⟩ := decodeF_fin (fmt_facts hf).1 false hx h
    rw [hd, exactOf, roundF, roundFin_mag hf rm _ (by simpa using hval) h, signBit_add_mag hx]
  · rw [decodeF_inf false hx h, exactOf, roundF, ← h, signBit_add_mag hx]

/-- Settles O24: a finite value rounds to itself, an infinity stays one, and a NaN becomes the canonical one. -/
theorem roundingLeavesValues : Obligations.RoundingLeavesValues := by
  refine ⟨fun x rm hx hn => roundF_exactOf (.inl rfl) rm hx hn, fun x rm hx hn => roundF_exactOf (.inr rfl) rm hx hn, fun x rm hn => ?_⟩
  obtain ⟨s, hd⟩ := exists_nan_of_isNan hn
  rw [hd]
  rfl

end Sys2Proof.Machine

/-! # Accumulator slots: what an addend does, in any order (R5, R55-R57) -/

namespace Sys2Proof.Machine

/-! ## Bits and two's complement -/

theorem bit_eq_testBit (s n : Nat) : bit s n = s.testBit n := by
  rw [Nat.testBit_eq_decide_div_mod_eq]; rfl

/-- The two's-complement reading of the low bits of a number is that of a bit vector. -/
theorem signed_eq_toInt {n : Nat} (hn : n ≠ 0) (w : Nat) : signed n w = (BitVec.ofNat n w).toInt := by
  obtain ⟨k, rfl⟩ := Nat.exists_eq_succ_of_ne_zero hn
  rw [BitVec.toInt_eq_toNat_cond, BitVec.toNat_ofNat]
  unfold signed
  rw [Nat.succ_eq_add_one, Nat.add_sub_cancel]
  have hcast : (2 : Int) ^ (k + 1) = ((2 ^ (k + 1) : ℕ) : Int) := by push_cast; rfl
  rw [hcast, pow_succ]
  split_ifs <;> push_cast <;> omega

/-- Setting a bit is adding it where it was clear. -/
theorem slotSet_eq_or (s n : Nat) : slotSet s n = s ||| 2 ^ n := by
  unfold slotSet
  rw [bit_eq_testBit]
  split_ifs with h
  · refine Nat.eq_of_testBit_eq fun i => ?_
    by_cases hi : n = i
    · subst hi; simp [h]
    · simp [hi]
  · rw [Nat.testBit_eq_decide_div_mod_eq, decide_eq_true_iff] at h
    have heven : s / 2 ^ n = 2 ^ 1 * (s / 2 ^ n / 2) := by omega
    have hhigh : (s ||| 2 ^ n) / 2 ^ n = s / 2 ^ n + 1 := by
      rw [Nat.or_div_two_pow, Nat.div_self (Nat.two_pow_pos n), heven, Nat.two_pow_add_eq_or_of_lt (by decide)]
    have hlow : (s ||| 2 ^ n) % 2 ^ n = s % 2 ^ n := by rw [Nat.or_mod_two_pow, Nat.mod_self, Nat.or_zero]
    rw [← Nat.div_add_mod (s ||| 2 ^ n) (2 ^ n), hhigh, hlow, mul_add_one]
    have := Nat.div_add_mod s (2 ^ n)
    omega

/-! ## One addend -/

/-- What an addend does to a slot: it sets a flag, or adds an integer to the sum (R56). -/
inductive SlotEffect where
  | mark (n : Nat)
  | plus (k : Int)

/-- An addend m * 2^e is too far above an anchor: its magnitude is 2^t or more, in units of 2^e. -/
def slotFar (m : Nat) (t : Int) : Bool := if 0 ≤ t then 2 ^ t.toNat ≤ m else m != 0

theorem slotFar_iff_ite (m : Nat) (t : Int) : slotFar m t = true ↔ if 0 ≤ t then 2 ^ t.toNat ≤ m else (m != 0) = true := by
  unfold slotFar
  split <;> simp

/-- What an addend with its anchor does to a slot of an anchor (R56). -/
def slotEffect (own x : Nat) (anchor : BitVec 8) : SlotEffect :=
  if anchor.toNat ≠ own then .mark 124
  else match decodeF f32 false x with
    | .nan _ => .mark 120
    | .inf neg => .mark (if neg then 122 else 121)
    | .fin neg m e =>
      if slotFar m (signed 8 own + 36 - e) then .mark 123
      else
        let n : Int := (roundInt 0 neg m 1 (e + 52 - signed 8 own) 0 false).1
        .plus (if neg then -n else n)

/-- A slot after an effect: the sum goes on modulo 2^112 below the anchor and the flags. -/
def SlotEffect.apply : SlotEffect → Nat → Nat
  | mark n, s => s ||| 2 ^ n
  | plus k, s => s / 2 ^ 112 * 2 ^ 112 + ((slotSum s + k) % 2 ^ 112).toNat

@[simp] theorem SlotEffect.apply_mark (n s : Nat) : (mark n).apply s = s ||| 2 ^ n := rfl

@[simp] theorem SlotEffect.apply_plus (k : Int) (s : Nat) :
    (plus k).apply s = s / 2 ^ 112 * 2 ^ 112 + ((slotSum s + k) % 2 ^ 112).toNat := rfl

theorem slotAdd_eq_apply (s x : Nat) (a : BitVec 8) : slotAdd s x a = (slotEffect (bits s 119 112) x a).apply s := by
  unfold slotAdd slotEffect
  by_cases ha : a.toNat ≠ bits s 119 112
  · rw [if_pos ha, if_pos ha, slotSet_eq_or]; rfl
  · rw [if_neg ha, if_neg ha]
    cases decodeF f32 false x with
    | nan _ => exact slotSet_eq_or s 120
    | inf neg => exact slotSet_eq_or s _
    | fin neg m e =>
      dsimp only [slotAnchor]
      by_cases hfar : slotFar m (signed 8 (bits s 119 112) + 36 - e) = true
      · rw [if_pos hfar, if_pos ((slotFar_iff_ite _ _).mp hfar), slotSet_eq_or]; rfl
      · rw [if_neg hfar, if_neg (fun h => hfar ((slotFar_iff_ite _ _).mpr h)), SlotEffect.apply_plus]
        omega

/-- The flags of a slot lie above its anchor. -/
theorem mark_mem_of_slotEffect {own x : Nat} {a : BitVec 8} {n : Nat} (h : slotEffect own x a = .mark n) : 120 ≤ n ∧ n < 128 := by
  unfold slotEffect at h
  split at h
  · cases h; decide
  · split at h
    · cases h; decide
    · cases h; split <;> decide
    · split at h <;> cases h
      decide

/-! ## The order of the addends -/

/-- An effect whose flag, if it sets one, is a flag of a slot. -/
def SlotEffect.proper : SlotEffect → Prop
  | mark n => 120 ≤ n ∧ n < 128
  | plus _ => True

theorem slotEffect_proper (own x : Nat) (a : BitVec 8) : (slotEffect own x a).proper := by
  cases h : slotEffect own x a with
  | mark n => exact mark_mem_of_slotEffect h
  | plus k => trivial

/-- The anchor and the flags of a slot after an effect. -/
def SlotEffect.high : SlotEffect → Nat → Nat
  | mark n, h => h ||| 2 ^ (n - 112)
  | plus _, h => h

@[simp] theorem SlotEffect.high_mark (n h : Nat) : (mark n).high h = h ||| 2 ^ (n - 112) := rfl
@[simp] theorem SlotEffect.high_plus (k : Int) (h : Nat) : (plus k).high h = h := rfl

/-- The sum of a slot after an effect. -/
def SlotEffect.low : SlotEffect → Nat → Nat
  | mark _, l => l
  | plus k, l => ((l + k) % 2 ^ 112).toNat

@[simp] theorem SlotEffect.low_mark (n l : Nat) : (mark n).low l = l := rfl
@[simp] theorem SlotEffect.low_plus (k : Int) (l : Nat) : (plus k).low l = ((l + k) % 2 ^ 112).toNat := rfl

theorem SlotEffect.low_lt (f : SlotEffect) {l : Nat} (hl : l < 2 ^ 112) : f.low l < 2 ^ 112 := by
  cases f with
  | mark n => exact hl
  | plus k => rw [low_plus]; omega

/-- An effect acts on the two parts of a slot apart. -/
theorem SlotEffect.apply_eq {f : SlotEffect} (hf : f.proper) (s : Nat) :
    f.apply s = 2 ^ 112 * f.high (s / 2 ^ 112) + f.low (s % 2 ^ 112) := by
  cases f with
  | mark n =>
    obtain ⟨k, rfl⟩ := Nat.exists_eq_add_of_le (show 112 ≤ n by have := hf.1; omega)
    have hdvd : 2 ^ (112 + k) = 2 ^ 112 * 2 ^ k := pow_add 2 112 k
    have hhigh : (s ||| 2 ^ (112 + k)) / 2 ^ 112 = s / 2 ^ 112 ||| 2 ^ k := by
      rw [Nat.or_div_two_pow, hdvd, Nat.mul_div_cancel_left _ (Nat.two_pow_pos 112)]
    have hlow : (s ||| 2 ^ (112 + k)) % 2 ^ 112 = s % 2 ^ 112 := by
      rw [Nat.or_mod_two_pow, hdvd, Nat.mul_mod_right, Nat.or_zero]
    rw [apply_mark, high_mark, low_mark, Nat.add_sub_cancel_left, ← hhigh, ← hlow, Nat.div_add_mod]
  | plus k =>
    rw [apply_plus, high_plus, low_plus]
    unfold slotSum signed
    split_ifs <;> omega

theorem SlotEffect.apply_parts {f : SlotEffect} (hf : f.proper) (s : Nat) :
    f.apply s / 2 ^ 112 = f.high (s / 2 ^ 112) ∧ f.apply s % 2 ^ 112 = f.low (s % 2 ^ 112) := by
  have hlow := f.low_lt (Nat.mod_lt s (Nat.two_pow_pos 112))
  rw [f.apply_eq hf, Nat.mul_add_div (Nat.two_pow_pos 112), Nat.mul_add_mod, Nat.div_eq_of_lt hlow, Nat.mod_eq_of_lt hlow]
  exact ⟨rfl, rfl⟩

/-- No effect changes the anchor of a slot. -/
theorem SlotEffect.anchor_apply {f : SlotEffect} (hf : f.proper) (s : Nat) : bits (f.apply s) 119 112 = bits s 119 112 := by
  unfold bits
  rw [(f.apply_parts hf s).1]
  cases f with
  | mark n =>
    obtain ⟨k, rfl⟩ := Nat.exists_eq_add_of_le hf.1
    rw [high_mark, show 120 + k - 112 = 8 + k by omega, show 119 + 1 - 112 = 8 from rfl, Nat.or_mod_two_pow, pow_add, Nat.mul_mod_right,
      Nat.or_zero]
  | plus k => rfl

/-- Flags are set, and integers added modulo 2^112, in any order. -/
theorem SlotEffect.apply_comm {f g : SlotEffect} (hf : f.proper) (hg : g.proper) (s : Nat) : f.apply (g.apply s) = g.apply (f.apply s) := by
  rw [f.apply_eq hf, g.apply_eq hg (f.apply s), (f.apply_parts hf s).1, (f.apply_parts hf s).2, (g.apply_parts hg s).1, (g.apply_parts hg s).2]
  have hhigh (h : Nat) : f.high (g.high h) = g.high (f.high h) := by
    cases f <;> cases g <;> simp [Nat.or_right_comm]
  have hlow (l : Nat) : f.low (g.low l) = g.low (f.low l) := by
    cases f <;> cases g <;> simp only [low_mark, low_plus]
    omega
  rw [hhigh, hlow]

theorem SlotEffect.apply_lt {f : SlotEffect} (hf : f.proper) {s : Nat} (hs : s < 2 ^ 128) : f.apply s < 2 ^ 128 := by
  cases f with
  | mark n => exact Nat.or_lt_two_pow hs (Nat.pow_lt_pow_right one_lt_two hf.2)
  | plus k => rw [apply_plus]; omega

theorem slotOrder : Claim.SlotOrder := by
  intro l x y a b hl _ _
  have hp := slotEffect_proper (bits l 119 112)
  simp only [slotAdd_eq_apply, SlotEffect.anchor_apply (hp _ _)]
  exact ⟨SlotEffect.apply_comm (hp _ _) (hp _ _) l, SlotEffect.apply_lt (hp _ _) hl⟩

/-! ## What an addend does, and what a slot reads as -/

theorem slotAnchor_eq (l : Nat) : slotAnchor l = (BitVec.ofNat 8 (l / 2 ^ 112)).toInt := by
  rw [← signed_eq_toInt (by decide)]
  unfold slotAnchor bits signed
  rw [show 119 + 1 - 112 = 8 from rfl, Nat.mod_mod]
  push_cast
  rw [Int.emod_emod_of_dvd _ dvd_rfl]

theorem slotSum_eq (l : Nat) : slotSum l = (BitVec.ofNat 112 l).toInt := signed_eq_toInt (by decide) l

/-- The test of R56 on the magnitude of an addend. -/
theorem slotFar_iff (m : Nat) (t : Int) : slotFar m t = true ↔ (2 : ℚ) ^ t ≤ m := by
  unfold slotFar
  split_ifs with h
  · obtain ⟨n, rfl⟩ := Int.eq_ofNat_of_zero_le h
    rw [decide_eq_true_iff, Int.toNat_natCast, ← Nat.cast_le (α := ℚ)]
    push_cast
    rfl
  · rw [bne_iff_ne]
    refine ⟨fun hm => ?_, fun hm h0 => ?_⟩
    · exact (zpow_le_one_of_nonpos₀ one_le_two (by omega)).trans (by exact_mod_cast Nat.pos_of_ne_zero hm)
    · have : (0 : ℚ) < 2 ^ t := by positivity
      rw [h0, Nat.cast_zero] at hm
      linarith

/-- The anchors agree as numbers where they agree as bytes. -/
theorem anchor_eq_iff (l : Nat) (a : BitVec 8) : a.toNat = bits l 119 112 ↔ a.toInt = (BitVec.ofNat 8 (l / 2 ^ 112)).toInt := by
  rw [BitVec.toInt_inj, ← BitVec.toNat_inj, BitVec.toNat_ofNat]
  rfl

theorem abs_rat_fin (neg : Bool) (m : Nat) (e : Int) : |(FVal.fin neg m e).rat| = m * 2 ^ e := by
  have h : (0 : ℚ) ≤ m * 2 ^ e := by positivity
  cases neg <;> simp [FVal.rat, abs_mul, abs_of_nonneg]

/-- The read-out of a slot without flags is its sum rounded once. -/
theorem slotRead_sum {l : Nat} (hn : bit l 120 = false) (hp : bit l 121 = false) (hm : bit l 122 = false) :
    f32.result 0 false ((slotSum l : ℚ) * 2 ^ (slotAnchor l - 52)) false (roundF f32 0 false (slotValue l)) := by
  have hvalue : slotValue l = .fin (slotSum l < 0) (slotSum l).natAbs 1 (slotAnchor l - 52) false := by
    simp [slotValue, hn, hp, hm]
  rw [hvalue]
  exact roundFin_int_result (.inl rfl) 0 false _ _

/-- A magnitude that reaches 2^36 units of the anchor is too far above it. -/
theorem slotFar_iff_abs_rat (neg : Bool) (m : Nat) (e a : Int) :
    slotFar m (a + 36 - e) = true ↔ (2 : ℚ) ^ (a + 36) ≤ |(FVal.fin neg m e).rat| := by
  rw [slotFar_iff, abs_rat_fin, zpow_sub₀ two_ne_zero, div_le_iff₀ (by positivity)]

/-- The addend of a slot is the magnitude on the grid 2^(A-52), rounded to nearest even. -/
theorem roundsInt_addend (neg : Bool) (m : Nat) (e a : Int) :
    roundsInt 0 neg ((|(FVal.fin neg m e).rat * 2 ^ (52 - a)| : ℚ) : ℝ) (roundInt 0 neg m 1 (e + 52 - a) 0 false).1 := by
  have hval : denotes m 1 (e + 52 - a) false ((|(FVal.fin neg m e).rat * 2 ^ (52 - a)| : ℚ) : ℝ) := by
    have habs : |(FVal.fin neg m e).rat * 2 ^ (52 - a)| = m * 2 ^ (e + 52 - a) := by
      rw [abs_mul, abs_rat_fin, abs_of_pos (by positivity : (0 : ℚ) < 2 ^ (52 - a)), mul_assoc, ← zpow_add₀ two_ne_zero, add_sub_assoc]
    rw [habs]
    simp [denotes]
  simpa using (roundInt_spec 0 neg one_pos hval (by simp) (q := 0)).1

/-- What an addend of the slot's own anchor does to it. -/
theorem slotEffect_own (l x : Nat) {a : BitVec 8} (ha : a.toInt = slotAnchor l) :
    slotEffect (bits l 119 112) x a = match decodeF f32 false x with
      | .nan _ => .mark 120
      | .inf neg => .mark (if neg then 122 else 121)
      | .fin neg m e =>
        if slotFar m (slotAnchor l + 36 - e) then .mark 123
        else .plus (if neg then -((roundInt 0 neg m 1 (e + 52 - slotAnchor l) 0 false).1 : Int)
          else (roundInt 0 neg m 1 (e + 52 - slotAnchor l) 0 false).1) := by
  rw [slotAnchor_eq, ← anchor_eq_iff] at ha
  rw [slotEffect, if_neg (not_not_intro ha)]
  rfl

theorem slotAddition : Claim.SlotAddition := by
  intro l x a hl hx
  dsimp only
  simp only [← slotAnchor_eq, ← slotSum_eq, ← bit_eq_testBit, slotAdd_eq_apply]
  refine ⟨fun ha => ?_, fun ha => ?_, fun h => ?_, fun hn hp hm => ?_, fun hn hp hm => ?_, fun hn hp hm => ?_⟩
  · rw [slotAnchor_eq, Ne, ← anchor_eq_iff] at ha
    rw [slotEffect, if_pos ha, SlotEffect.apply_mark]
  · rw [slotEffect_own l x ha]
    refine ⟨fun h => ?_, fun h => ?_, fun h => ?_, fun h hfar => ?_, fun h hfar => ?_⟩
    · obtain ⟨s, hd⟩ := exists_nan_of_isNan h
      rw [hd]; rfl
    · rw [h]; rfl
    · rw [h]; rfl
    all_goals obtain ⟨m, e, hd, -⟩ := decodeF_fin (f := f32) (by decide) false hx h
    all_goals rw [hd, ← slotFar_iff_abs_rat] at hfar
    all_goals rw [hd]
    · simp only [hfar, if_true, SlotEffect.apply_mark]
    · refine ⟨_, roundsInt_addend _ m e (slotAnchor l), ?_⟩
      simp only [hfar]
      rfl
  · rw [slotRead, slotValue, if_pos (by simpa using h)]; rfl
  · simp [slotRead, slotValue, hn, hp, hm, roundF, signBit, f32]
  · simp [slotRead, slotValue, hn, hp, hm, roundF, signBit, f32]
  · exact ⟨_, slotRead_sum hn hp hm⟩

/-- Settles O45: the effects of two addends commute, and each is the one that R56 states. -/
theorem laneSlotsOrdered : Obligations.LaneSlotsOrdered := ⟨slotOrder, slotAddition⟩

end Sys2Proof.Machine

/-! # Float values, special cases and the one rounding of the arithmetic (R36-R40, R43, R138) -/

namespace Sys2Proof.Machine

/-! ## Value classes -/

theorem floatValues : Claim.FloatValues := by
  refine ⟨by decide, by decide, fun f x daz hf hx => ?_⟩
  dsimp only
  have hp := (fmt_facts hf).1
  have hP : 0 < 2 ^ (f.p - 2) := by positivity
  refine ⟨fun h => ?_, fun h h' => ?_, fun h => ?_, fun h => ?_⟩
  · simp [nfOf, decodeF_nan hf _ (by omega : f.inf < x % 2 ^ f.sign), nfNan, Nat.not_lt.mpr h]
  · simp [nfOf, decodeF_nan hf _ h, nfNan, h']
  · simp [nfOf, decodeF_inf _ hx h, nfNinf, nfPinf]
  · obtain ⟨m, e, hd, hv, -⟩ := decodeF_fin hp daz hx h
    obtain ⟨m', e', hd', -⟩ := decodeF_fin hp false hx h
    exact ⟨by rw [nfOf, hd'], m, e, hd, hv⟩

/-! ## NaNs, infinities and zeros -/

theorem ite_eq_nvIf (p : Bool) : (if p then fNV else 0) = nvIf p := rfl

theorem isSnan_of_not_isNan {a : FVal} (h : a.isNan = false) : a.isSnan = false := by
  cases a with
  | nan s => simp [FVal.isNan] at h
  | inf n => rfl
  | fin n m e => rfl

theorem addX_nan (rm : Nat) {a b : FVal} (h : a.isNan = true ∨ b.isNan = true) : addX rm a b = .nan (nvIf (a.isSnan || b.isSnan)) := by
  rcases h with h | h <;> obtain ⟨s, rfl⟩ := exists_nan_of_isNan h
  · rfl
  · cases a <;> rfl

theorem mulX_nan {a b : FVal} (h : a.isNan = true ∨ b.isNan = true) : mulX a b = .nan (nvIf (a.isSnan || b.isSnan)) := by
  rcases h with h | h <;> obtain ⟨s, rfl⟩ := exists_nan_of_isNan h
  · rfl
  · cases a <;> rfl

theorem divX_nan {a b : FVal} (h : a.isNan = true ∨ b.isNan = true) : divX a b = .nan (nvIf (a.isSnan || b.isSnan)) := by
  rcases h with h | h <;> obtain ⟨s, rfl⟩ := exists_nan_of_isNan h
  · rfl
  · cases a <;> rfl

theorem nvIf_or (p q : Bool) : nvIf p ||| nvIf (p || q) = nvIf (p || q) := by
  cases p <;> cases q <;> decide

theorem fNV_or_nvIf (p : Bool) : fNV ||| nvIf p = fNV := by cases p <;> decide

/-- A NaN or an invalid product makes an invalid fused sum. -/
theorem fmaX_of_nan (rm : Nat) {a b : FVal} (c : FVal) {fl : Flags5} (h : mulX a b = .nan fl) :
    fmaX rm a b c = .nan (fl ||| nvIf (a.isSnan || b.isSnan || c.isSnan)) := by
  rw [fmaX, h]

/-- The product of two operands that are no NaNs has no condition but an invalid one's. -/
theorem mulX_cases {a b : FVal} (ha : a.isNan = false) (hb : b.isNan = false) (hi : mulX a b ≠ .nan fNV) :
    (∃ n, mulX a b = .inf n 0) ∨ ∃ n m e, mulX a b = .fin n m 1 e false := by
  cases a with
  | nan s => simp [FVal.isNan] at ha
  | inf n =>
    cases b with
    | nan s => simp [FVal.isNan] at hb
    | inf k => exact .inl ⟨_, rfl⟩
    | fin k m e =>
      by_cases h : m = 0
      · simp [mulX, h] at hi
      · exact .inl ⟨n != k, by simp [mulX, h]⟩
  | fin k m e =>
    cases b with
    | nan s => simp [FVal.isNan] at hb
    | inf n =>
      by_cases h : m = 0
      · simp [mulX, h] at hi
      · exact .inl ⟨n != k, by simp [mulX, h]⟩
    | fin n2 m2 e2 => exact .inr ⟨_, _, _, rfl⟩

/-- The addend of a fused sum with an infinite product. -/
theorem fmaX_of_inf (rm : Nat) {a b c : FVal} {n : Bool} (h : mulX a b = .inf n 0) (hc : c.isNan = false) :
    fmaX rm a b c = if c = .inf !n then .nan fNV else .inf n 0 := by
  rw [fmaX, h]
  cases c with
  | nan s => simp [FVal.isNan] at hc
  | inf k => cases n <;> cases k <;> simp
  | fin k m e => simp

/-- A NaN addend of a valid product. -/
theorem fmaX_addend_nan (rm : Nat) {a b c : FVal} (ha : a.isNan = false) (hb : b.isNan = false) (hi : mulX a b ≠ .nan fNV)
    (hc : c.isNan = true) : fmaX rm a b c = .nan (nvIf c.isSnan) := by
  obtain ⟨s, rfl⟩ := exists_nan_of_isNan hc
  rcases mulX_cases ha hb hi with ⟨n, h⟩ | ⟨n, m, e, h⟩ <;> rw [fmaX, h] <;> rfl

/-- An infinite addend of a finite product. -/
theorem fmaX_addend_inf (rm : Nat) {a b : FVal} (n : Bool) (ha : a.isNan = false) (hb : b.isNan = false) (hi : mulX a b ≠ .nan fNV)
    (hf : ∀ q, mulX a b ≠ .inf q 0) : fmaX rm a b (.inf n) = .inf n 0 := by
  rcases mulX_cases ha hb hi with ⟨q, h⟩ | ⟨k, m, e, h⟩
  · exact absurd h (hf q)
  · rw [fmaX, h]

theorem FVal.neg_facts (a : FVal) : a.neg.rat = -a.rat ∧ a.neg.isNan = a.isNan ∧ a.neg.isSnan = a.isSnan := by
  cases a with
  | nan s => simp [FVal.neg, FVal.rat, FVal.isNan, FVal.isSnan]
  | inf n => simp [FVal.neg, FVal.rat, FVal.isNan, FVal.isSnan]
  | fin n m e => cases n <;> simp [FVal.neg, FVal.rat, FVal.isNan, FVal.isSnan]

theorem floatSpecialCases : Claim.FloatSpecialCases := by
  intro f rm ftz n k a b c m e fl
  dsimp only
  obtain ⟨hrat, hnan, hsnan⟩ := a.neg_facts
  refine ⟨rfl, rfl, hrat, hnan, hsnan, rfl, fun h => ?_, fun h => ?_, ?_, rfl, rfl, rfl, rfl, rfl, rfl, rfl, ?_, fun q p r => ?_,
    rfl, fun h => ?_, ?_, ?_, fun ha hb hi => ⟨fun hc => ?_, fun hm hc => fmaX_of_inf rm hm hc, fun hm hc => ?_⟩⟩
  · have hadd := addX_nan rm h
    have hmul := mulX_nan h
    have hdiv := divX_nan h
    refine ⟨?_, ?_, ?_, ?_⟩
    · simpa only [ite_eq_nvIf, List.any_cons, List.any_nil, Bool.or_false] using hadd
    · simpa only [ite_eq_nvIf, List.any_cons, List.any_nil, Bool.or_false] using hmul
    · simpa only [ite_eq_nvIf, List.any_cons, List.any_nil, Bool.or_false] using hdiv
    · rw [fmaX_of_nan rm c hmul, nvIf_or]
      simp only [ite_eq_nvIf, List.any_cons, List.any_nil, Bool.or_false, Bool.or_assoc]
  · obtain ⟨s, rfl⟩ := exists_nan_of_isNan h
    simp only [sqrtX, ite_eq_nvIf, List.any_cons, List.any_nil, Bool.or_false, FVal.isSnan]
  · cases n <;> cases k <;> rfl
  · cases n <;> cases k <;> rfl
  · by_cases hp : p = 0 <;> simp [divX, hp]
  · simp [sqrtX, h]
  · cases k <;> rfl
  · rintro ⟨q, r, rfl⟩
    have h1 : mulX (.fin q 0 r) (.inf n) = .nan fNV := rfl
    have h2 : mulX (.inf n) (.fin q 0 r) = .nan fNV := rfl
    rw [fmaX_of_nan rm c h1, fmaX_of_nan rm c h2, fNV_or_nvIf, fNV_or_nvIf]
    exact ⟨rfl, rfl⟩
  · rw [fmaX_addend_nan rm ha hb hi hc]
    simp only [ite_eq_nvIf, List.any_cons, List.any_nil, Bool.or_false]
  · rw [hc, fmaX_addend_inf rm n ha hb hi hm]

/-! ## The one rounding -/

theorem rat_fin (neg : Bool) (m : Nat) (e : Int) : (FVal.fin neg m e).rat = (if neg then -1 else 1) * (m * 2 ^ e) := mul_assoc _ _ _

/-- A finite value as an integer in units of a lower power of two. -/
theorem rat_fin_scaled (neg : Bool) (m : Nat) {e i : Int} (h : e ≤ i) :
    (FVal.fin neg m i).rat =
      ((if neg then -((m : Int) * 2 ^ (i - e).toNat) else (m : Int) * 2 ^ (i - e).toNat : Int) : ℚ) * 2 ^ e := by
  obtain ⟨j, hj⟩ := Int.eq_ofNat_of_zero_le (sub_nonneg.mpr h)
  obtain rfl : i = e + j := by omega
  rw [rat_fin, add_sub_cancel_left, Int.toNat_natCast, zpow_add₀ two_ne_zero, zpow_natCast]
  cases neg <;> push_cast <;> simp <;> ring

/-- The sum of two finite values rounds once. -/
theorem addFin_result {f : Fmt} (hf : f = f32 ∨ f = bf16) (rm : Nat) (ftz n1 n2 : Bool) (m1 m2 : Nat) (e1 e2 : Int) :
    f.result rm ftz ((FVal.fin n1 m1 e1).rat + (FVal.fin n2 m2 e2).rat) (if m1 = 0 ∧ m2 = 0 ∧ n1 = n2 then n1 else decide (rm = 2))
      (roundF f rm ftz (addFin rm n1 m1 e1 n2 m2 e2)) := by
  unfold addFin
  dsimp only
  generalize he : (if e1 < e2 then e1 else e2) = e
  rw [rat_fin_scaled n1 m1 (show e ≤ e1 by split at he <;> omega), rat_fin_scaled n2 m2 (show e ≤ e2 by split at he <;> omega),
    ← add_mul, ← Int.cast_add]
  generalize (if n1 then -((m1 : Int) * 2 ^ (e1 - e).toNat) else (m1 : Int) * 2 ^ (e1 - e).toNat) +
    (if n2 then -((m2 : Int) * 2 ^ (e2 - e).toNat) else (m2 : Int) * 2 ^ (e2 - e).toNat) = t
  by_cases ht : t = 0
  · rw [if_pos ht, roundF, ht]
    refine ⟨fun h => absurd (by simp) h, fun _ => ?_⟩
    rw [roundFin_zero]
    simp [signBit, and_assoc]
  · rw [if_neg ht, roundF]
    have hunit : (2 : ℚ) ^ e ≠ 0 := by positivity
    exact ⟨fun h => (roundFin_int_result hf rm ftz t e).1 h, fun h => absurd h (mul_ne_zero (by exact_mod_cast ht) hunit)⟩

/-- The integer square root of a quotient holds the quotient's square root up to the next integer. -/
theorem denotes_sqrt_div (x : Nat) {y : Nat} (hy : 0 < y) (exp : Int) :
    denotes (Nat.sqrt (x / y)) 1 exp (Nat.sqrt (x / y) * Nat.sqrt (x / y) * y != x) (Real.sqrt (x / y) * 2 ^ exp) := by
  have hexp : (0 : ℝ) < 2 ^ exp := by positivity
  have hyr : (0 : ℝ) < y := by exact_mod_cast hy
  have hle : Nat.sqrt (x / y) * Nat.sqrt (x / y) * y ≤ x := (Nat.le_div_iff_mul_le hy).mp (Nat.sqrt_le _)
  have hlt : x < (Nat.sqrt (x / y) + 1) ^ 2 * y := (Nat.div_lt_iff_lt_mul hy).mp (Nat.lt_succ_sqrt' _)
  unfold denotes
  split_ifs with h
  · have hne : Nat.sqrt (x / y) * Nat.sqrt (x / y) * y < x := lt_of_le_of_ne hle (by simpa using h)
    refine ⟨rfl, mul_lt_mul_of_pos_right ?_ hexp, mul_lt_mul_of_pos_right ?_ hexp⟩
    · refine Real.lt_sqrt_of_sq_lt ?_
      rw [lt_div_iff₀ hyr, sq]
      exact_mod_cast hne
    · rw [Real.sqrt_lt' (by positivity), div_lt_iff₀ hyr]
      exact_mod_cast hlt
  · have heq : Nat.sqrt (x / y) * Nat.sqrt (x / y) * y = x := by simpa using h
    rw [Nat.cast_one, div_one]
    congr 1
    rw [Real.sqrt_eq_iff_mul_self_eq (by positivity) (by positivity), div_eq_iff hyr.ne']
    exact_mod_cast heq.symm

/-- A square root in units of half the even exponent e1. -/
theorem sqrt_eq_even (m : Nat) (e : Int) :
    Real.sqrt ((m : ℝ) * 2 ^ e) = Real.sqrt (if e % 2 = 0 then m else 2 * m : ℕ) * 2 ^ ((if e % 2 = 0 then e else e - 1) / 2) := by
  have hpos : (0 : ℝ) ≤ 2 ^ ((if e % 2 = 0 then e else e - 1) / 2) := by positivity
  rw [← Real.sqrt_sq hpos, ← Real.sqrt_mul (by positivity), ← zpow_natCast, ← zpow_mul]
  congr 1
  split_ifs with h
  · congr 2
    push_cast
    omega
  · rw [Nat.cast_mul, Nat.cast_ofNat, mul_comm (2 : ℝ) m, mul_assoc, ← zpow_one_add₀ two_ne_zero]
    congr 2
    push_cast
    omega

theorem sqrt_two_pow (k : Nat) : Real.sqrt (2 ^ (2 * k)) = 2 ^ k := by
  rw [mul_comm, pow_mul, Real.sqrt_sq (by positivity)]

/-- The square root of a finite value is rounded once (R138). -/
theorem sqrtFin_gives {f : Fmt} (hf : f = f32 ∨ f = bf16) (rm : Nat) (ftz : Bool) {m : Nat} (hm : m ≠ 0) (e : Int) :
    f.gives rm ftz false (Real.sqrt ((m : ℝ) * 2 ^ e)) (roundF f rm ftz (sqrtFin m e)) := by
  rw [sqrt_eq_even]
  unfold sqrtFin
  dsimp only
  rw [roundF]
  have hm1 : 1 ≤ if e % 2 = 0 then m else 2 * m := by split <;> omega
  generalize (if e % 2 = 0 then m else 2 * m) = m1 at *
  generalize (if e % 2 = 0 then e else e - 1) / 2 = h
  have hval : denotes (Nat.sqrt (m1 * 2 ^ 128)) 1 (h - 64) (Nat.sqrt (m1 * 2 ^ 128) * Nat.sqrt (m1 * 2 ^ 128) != m1 * 2 ^ 128)
      (Real.sqrt m1 * 2 ^ h) := by
    have hscaled : Real.sqrt m1 * 2 ^ h = Real.sqrt ((m1 * 2 ^ 128 : ℕ) / (1 : ℕ)) * 2 ^ (h - 64) := by
      rw [Nat.cast_one, div_one, Nat.cast_mul, Nat.cast_pow, Nat.cast_ofNat, Real.sqrt_mul (by positivity), sqrt_two_pow 64, mul_assoc,
        ← zpow_natCast, ← zpow_add₀ two_ne_zero]
      congr 2
      push_cast
      ring
    rw [hscaled]
    simpa only [Nat.div_one, mul_one] using denotes_sqrt_div (m1 * 2 ^ 128) one_pos (h - 64)
  have hroot : 2 ^ 64 ≤ Nat.sqrt (m1 * 2 ^ 128) := by
    rw [Nat.le_sqrt]
    calc 2 ^ 64 * 2 ^ 64 = 1 * 2 ^ 128 := by norm_num
      _ ≤ m1 * 2 ^ 128 := by gcongr
  have hp : 2 ^ f.p ≤ 2 ^ 64 := Nat.pow_le_pow_right two_pos (by rcases hf with rfl | rfl <;> decide)
  exact roundFin_gives hf rm ftz false (by omega) one_pos hval fun _ => hp.trans hroot

theorem floatRounding : Claim.FloatRounding := by
  intro f rm ftz n1 n2 n3 m1 m2 m3 e1 e2 e3 hf _ _
  dsimp only
  have hmul : (FVal.fin n1 m1 e1).rat * (FVal.fin n2 m2 e2).rat = (FVal.fin (n1 != n2) (m1 * m2) (e1 + e2)).rat := by
    rw [rat_fin, rat_fin, rat_fin, zpow_add₀ two_ne_zero]
    push_cast
    cases n1 <;> cases n2 <;> simp <;> ring
  refine ⟨addFin_result hf rm ftz n1 n2 m1 m2 e1 e2, ?_, fun h2 => ?_, ?_, fun h1 => ?_⟩
  · rw [hmul, mulX, roundF]
    exact roundFin_result hf rm ftz one_pos (by rw [rat_fin, Nat.cast_one, div_one]) fun _ => rfl
  · rw [divX, if_neg h2, roundF]
    refine roundFin_result hf rm ftz (Nat.pos_of_ne_zero h2) ?_ fun _ => rfl
    rw [rat_fin, rat_fin, zpow_sub₀ two_ne_zero]
    cases n1 <;> cases n2 <;> simp <;> field_simp
  · rw [hmul]
    convert addFin_result hf rm ftz (n1 != n2) n3 (m1 * m2) m3 (e1 + e2) e3 using 2
    · rename_i h
      exact h.2.2.symm
    · rfl
  · rw [sqrtX, if_neg h1, if_neg Bool.false_ne_true]
    exact sqrtFin_gives hf rm ftz h1 e1

end Sys2Proof.Machine

/-! # FMIN and FMAX choose by value, -0 below +0 (R40, R137, R139) -/

namespace Sys2Proof.Machine

/-! ## The order of encodings -/

/-- The value of a signed magnitude. -/
def Fmt.signedMag (f : Fmt) (i : Int) : ℚ := if i < 0 then -f.mag i.natAbs else f.mag i.natAbs

theorem Fmt.signedMag_strictMono {f : Fmt} (hp : 2 ≤ f.p) : StrictMono f.signedMag := by
  have hmono := Fmt.mag_strictMono hp
  intro i j hij
  unfold Fmt.signedMag
  split_ifs with hi hj hj
  · exact neg_lt_neg (hmono (by omega))
  · have h0 : 0 < f.mag i.natAbs := by
      rw [← f.mag_zero]
      exact hmono (by omega)
    have := Fmt.mag_nonneg hp j.natAbs
    linarith
  · omega
  · exact hmono (by omega)

/-- An encoding as it is read: with DAZ, a subnormal's fraction is zero (R25). -/
def readEnc (f : Fmt) (daz : Bool) (x : Nat) : Nat :=
  if daz = true ∧ x % 2 ^ f.sign < 2 ^ (f.p - 1) then x / 2 ^ f.sign * 2 ^ f.sign else x

/-- The signed magnitude of an encoding as it is read. -/
def signedEnc (f : Fmt) (daz : Bool) (x : Nat) : Int :=
  if x < 2 ^ f.sign then ((readEnc f daz x % 2 ^ f.sign : Nat) : Int) else -((readEnc f daz x % 2 ^ f.sign : Nat) : Int)

theorem readEnc_mod (f : Fmt) (daz : Bool) (x : Nat) :
    readEnc f daz x % 2 ^ f.sign = if daz = true ∧ x % 2 ^ f.sign < 2 ^ (f.p - 1) then 0 else x % 2 ^ f.sign := by
  unfold readEnc
  split_ifs
  · exact Nat.mul_mod_left _ _
  · rfl

/-- The value of an encoding that is finite. -/
theorem rat_decodeF_fin {f : Fmt} (hp : 2 ≤ f.p) (daz : Bool) {x : Nat} (hx : x < 2 ^ (f.sign + 1)) (hm : x % 2 ^ f.sign < f.inf) :
    (decodeF f daz x).rat = f.signedMag (signedEnc f daz x) := by
  obtain ⟨m, e, hd, hv, -⟩ := decodeF_fin hp daz hx hm
  have hv' : (m : ℚ) * 2 ^ e = f.mag (readEnc f daz x % 2 ^ f.sign) := by
    rw [hv, readEnc_mod]
    split_ifs <;> simp
  rw [hd, rat_fin, hv']
  unfold signedEnc
  generalize readEnc f daz x % 2 ^ f.sign = r
  rcases Nat.lt_or_ge x (2 ^ f.sign) with h | h
  · simp [h, h.not_ge, (Int.natCast_nonneg r).not_gt, Fmt.signedMag]
  · rcases Nat.eq_zero_or_pos r with rfl | h0
    · simp [Fmt.signedMag]
    · simp [h, h.not_gt, h0, Fmt.signedMag]

/-- The exact comparison of two finite values. -/
theorem cmpF_fin (n1 n2 : Bool) (m1 m2 : Nat) (e1 e2 : Int) :
    (cmpF (.fin n1 m1 e1) (.fin n2 m2 e2) < 0 ↔ (FVal.fin n1 m1 e1).rat < (FVal.fin n2 m2 e2).rat) ∧
      (cmpF (.fin n1 m1 e1) (.fin n2 m2 e2) = 0 ↔ (FVal.fin n1 m1 e1).rat = (FVal.fin n2 m2 e2).rat) := by
  unfold cmpF
  dsimp only
  generalize he : (if e1 < e2 then e1 else e2) = e
  have hunit : (0 : ℚ) < 2 ^ e := by positivity
  rw [rat_fin_scaled n1 m1 (show e ≤ e1 by split at he <;> omega), rat_fin_scaled n2 m2 (show e ≤ e2 by split at he <;> omega),
    mul_lt_mul_iff_left₀ hunit, mul_left_inj' hunit.ne', Int.cast_lt, Int.cast_inj]
  generalize (if n1 then -((m1 : Int) * 2 ^ (e1 - e).toNat) else (m1 : Int) * 2 ^ (e1 - e).toNat) = p
  generalize (if n2 then -((m2 : Int) * 2 ^ (e2 - e).toNat) else (m2 : Int) * 2 ^ (e2 - e).toNat) = q
  rcases lt_trichotomy p q with h | rfl | h
  · simp [h, h.ne]
  · simp
  · simp [h, h.not_gt, h.ne']

/-- An infinity lies beyond every finite value. -/
theorem signedEnc_lt_inf (f : Fmt) (daz : Bool) {x : Nat} (hm : x % 2 ^ f.sign < f.inf) :
    -(f.inf : Int) < signedEnc f daz x ∧ signedEnc f daz x < f.inf := by
  have h := readEnc_mod f daz x
  unfold signedEnc
  split_ifs at h ⊢ <;> omega

theorem signedEnc_sign (f : Fmt) (daz : Bool) (x : Nat) :
    (x < 2 ^ f.sign → 0 ≤ signedEnc f daz x) ∧ (2 ^ f.sign ≤ x → signedEnc f daz x ≤ 0) := by
  unfold signedEnc
  split_ifs <;> omega

theorem signedEnc_inf {f : Fmt} (hf : f = f32 ∨ f = bf16) (daz : Bool) {x : Nat} (hm : x % 2 ^ f.sign = f.inf) :
    signedEnc f daz x = if 2 ^ f.sign ≤ x then -(f.inf : Int) else f.inf := by
  have h := readEnc_mod f daz x
  have hn : ¬ f.inf < 2 ^ (f.p - 1) := by rcases hf with rfl | rfl <;> decide
  rw [hm, if_neg fun hc => hn hc.2] at h
  unfold signedEnc
  rw [h]
  split_ifs <;> omega

/-- Two encodings that are no NaNs compare as their signed magnitudes. -/
theorem cmpF_decodeF {f : Fmt} (hf : f = f32 ∨ f = bf16) (daz : Bool) {x y : Nat} (hx : x < 2 ^ (f.sign + 1)) (hy : y < 2 ^ (f.sign + 1))
    (hxn : x % 2 ^ f.sign ≤ f.inf) (hyn : y % 2 ^ f.sign ≤ f.inf) :
    (cmpF (decodeF f daz x) (decodeF f daz y) < 0 ↔ signedEnc f daz x < signedEnc f daz y) ∧
      (cmpF (decodeF f daz x) (decodeF f daz y) = 0 ↔ signedEnc f daz x = signedEnc f daz y) := by
  obtain ⟨hp, hinf⟩ := fmt_facts hf
  rcases hxn.lt_or_eq with hx' | hx' <;> rcases hyn.lt_or_eq with hy' | hy'
  · obtain ⟨m, e, hd, -⟩ := decodeF_fin hp daz hx hx'
    obtain ⟨m', e', hd', -⟩ := decodeF_fin hp daz hy hy'
    have hmono := Fmt.signedMag_strictMono hp
    have hcmp := cmpF_fin (decide (2 ^ f.sign ≤ x)) (decide (2 ^ f.sign ≤ y)) m m' e e'
    rwa [← hd, ← hd', rat_decodeF_fin hp daz hx hx', rat_decodeF_fin hp daz hy hy', hmono.lt_iff_lt, hmono.injective.eq_iff] at hcmp
  · obtain ⟨m, e, hd, -⟩ := decodeF_fin hp daz hx hx'
    have hlt := signedEnc_lt_inf f daz hx'
    rw [hd, decodeF_inf daz hy hy', signedEnc_inf hf daz hy']
    unfold cmpF
    by_cases h : 2 ^ f.sign ≤ y <;> simp [h] <;> omega
  · obtain ⟨m, e, hd, -⟩ := decodeF_fin hp daz hy hy'
    have hlt := signedEnc_lt_inf f daz hy'
    rw [hd, decodeF_inf daz hx hx', signedEnc_inf hf daz hx']
    unfold cmpF
    by_cases h : 2 ^ f.sign ≤ x <;> simp [h] <;> omega
  · rw [decodeF_inf daz hx hx', decodeF_inf daz hy hy', signedEnc_inf hf daz hx', signedEnc_inf hf daz hy']
    unfold cmpF
    by_cases h : 2 ^ f.sign ≤ x <;> by_cases h' : 2 ^ f.sign ≤ y <;> simp [h, h'] <;> omega

/-! ## The choice -/

/-- The place of an encoding in the order of FMIN and FMAX, -0 below +0 (R40). -/
def placeEnc (f : Fmt) (z : Nat) : Int := if z < 2 ^ f.sign then (z : Int) else -((z - 2 ^ f.sign : Nat) : Int) - 1

theorem readEnc_lt_iff (f : Fmt) (daz : Bool) (x : Nat) : readEnc f daz x < 2 ^ f.sign ↔ x < 2 ^ f.sign := by
  have hP := Nat.two_pow_pos f.sign
  unfold readEnc
  split_ifs
  · rw [← Nat.div_eq_zero_iff_lt hP, ← Nat.div_eq_zero_iff_lt hP, Nat.mul_div_cancel _ hP]
  · rfl

theorem readEnc_lt {f : Fmt} (daz : Bool) {x : Nat} (hx : x < 2 ^ (f.sign + 1)) : readEnc f daz x < 2 ^ (f.sign + 1) := by
  unfold readEnc
  split_ifs
  · exact (Nat.div_mul_le_self x _).trans_lt hx
  · exact hx

theorem placeEnc_readEnc {f : Fmt} (daz : Bool) {x : Nat} (hx : x < 2 ^ (f.sign + 1)) :
    placeEnc f (readEnc f daz x) = if x < 2 ^ f.sign then signedEnc f daz x else signedEnc f daz x - 1 := by
  have hlt := readEnc_lt daz hx
  unfold placeEnc signedEnc
  rw [pow_succ] at hlt
  simp only [readEnc_lt_iff]
  split_ifs with h
  · rw [Nat.mod_eq_of_lt ((readEnc_lt_iff f daz x).mpr h)]
  · have hge := (readEnc_lt_iff f daz x).not.mpr h
    rw [Nat.mod_eq_sub_mod (by omega), Nat.mod_eq_of_lt (by omega)]

/-- What a selection writes for a chosen operand v that was read from an encoding. -/
def writtenEnc (f : Fmt) (v : FVal) (x : Nat) : Nat :=
  match v with
  | .fin n 0 _ => signBit f n
  | _ => x

@[simp] theorem writtenEnc_inf (f : Fmt) (n : Bool) (x : Nat) : writtenEnc f (.inf n) x = x := rfl

theorem writtenEnc_fin (f : Fmt) (n : Bool) (m : Nat) (e : Int) (x : Nat) :
    writtenEnc f (.fin n m e) x = if m = 0 then signBit f n else x := by
  cases m <;> rfl

theorem readEnc_of_mod_ne_zero {f : Fmt} {daz : Bool} {x : Nat} (h : readEnc f daz x % 2 ^ f.sign ≠ 0) : readEnc f daz x = x := by
  rw [readEnc_mod] at h
  exact if_neg fun hc => h (if_pos hc)

/-- The operand that a selection chooses is written as it was read. -/
theorem writtenEnc_decodeF {f : Fmt} (hf : f = f32 ∨ f = bf16) (daz : Bool) {x : Nat} (hx : x < 2 ^ (f.sign + 1))
    (hm : x % 2 ^ f.sign ≤ f.inf) : writtenEnc f (decodeF f daz x) x = readEnc f daz x := by
  obtain ⟨hp, hinf⟩ := fmt_facts hf
  rcases hm.lt_or_eq with hm | hm
  · obtain ⟨m, e, hd, hv, -⟩ := decodeF_fin hp daz hx hm
    have hv' : (m : ℚ) * 2 ^ e = f.mag (readEnc f daz x % 2 ^ f.sign) := by
      rw [hv, readEnc_mod]
      split_ifs <;> simp
    have hzero : m = 0 ↔ readEnc f daz x % 2 ^ f.sign = 0 := by
      rw [← Fmt.mag_eq_zero_iff hp (n := readEnc f daz x % 2 ^ f.sign), ← hv', mul_eq_zero, or_iff_left (by positivity), Nat.cast_eq_zero]
    rw [hd, writtenEnc_fin]
    split_ifs with h0
    · have hsum := signBit_add_mag (readEnc_lt daz hx)
      rw [hzero.mp h0, Nat.add_zero] at hsum
      simpa only [← not_lt, readEnc_lt_iff] using hsum
    · exact (readEnc_of_mod_ne_zero (hzero.not.mp h0)).symm
  · have hn : ¬ f.inf < 2 ^ (f.p - 1) := by rcases hf with rfl | rfl <;> decide
    rw [decodeF_inf daz hx hm, writtenEnc_inf, readEnc, hm, if_neg fun hc => hn hc.2]

/-- Whether a selection of two values takes the first for the smaller one. -/
def lessF (a b : FVal) : Bool := cmpF a b < 0 || (cmpF a b == 0 && negF a && !negF b)

theorem selectF_eq (f : Fmt) (daz max : Bool) (x y : Nat) :
    selectF f daz max x y =
      let a := decodeF f daz x
      let b := decodeF f daz y
      (if a.isNan && b.isNan then f.nan else if a.isNan then writtenEnc f b y else if b.isNan then writtenEnc f a x
        else if lessF a b != max then writtenEnc f a x else writtenEnc f b y, nvIf (a.isSnan || b.isSnan)) := by
  unfold selectF lessF
  dsimp only
  split_ifs <;> rfl

theorem negF_decodeF {f : Fmt} (hp : 2 ≤ f.p) (daz : Bool) {x : Nat} (hx : x < 2 ^ (f.sign + 1)) (hm : x % 2 ^ f.sign ≤ f.inf) :
    negF (decodeF f daz x) = decide (2 ^ f.sign ≤ x) := by
  rcases hm.lt_or_eq with hm | hm
  · obtain ⟨m, e, hd, -⟩ := decodeF_fin hp daz hx hm
    rw [hd]; rfl
  · rw [decodeF_inf daz hx hm]; rfl

/-- The first of two numbers counts as the smaller one where it stands below the second, -0 below +0. -/
theorem lessF_iff {f : Fmt} (hf : f = f32 ∨ f = bf16) (daz : Bool) {x y : Nat} (hx : x < 2 ^ (f.sign + 1)) (hy : y < 2 ^ (f.sign + 1))
    (hxn : x % 2 ^ f.sign ≤ f.inf) (hyn : y % 2 ^ f.sign ≤ f.inf) :
    lessF (decodeF f daz x) (decodeF f daz y) = true ↔ placeEnc f (readEnc f daz x) < placeEnc f (readEnc f daz y) := by
  have hp := (fmt_facts hf).1
  obtain ⟨hlt, heq⟩ := cmpF_decodeF hf daz hx hy hxn hyn
  rw [placeEnc_readEnc daz hx, placeEnc_readEnc daz hy]
  simp only [lessF, Bool.or_eq_true, Bool.and_eq_true, decide_eq_true_eq, beq_iff_eq, Bool.not_eq_true', decide_eq_false_iff_not, hlt, heq,
    negF_decodeF hp daz hx hxn, negF_decodeF hp daz hy hyn]
  have hsx := signedEnc_sign f daz x
  have hsy := signedEnc_sign f daz y
  split_ifs <;> omega

/-- FMIN and FMAX of two numbers give the lower and the upper one. -/
theorem selectF_number {f : Fmt} (hf : f = f32 ∨ f = bf16) (daz max : Bool) {x y : Nat} (hx : x < 2 ^ (f.sign + 1))
    (hy : y < 2 ^ (f.sign + 1)) (hxn : x % 2 ^ f.sign ≤ f.inf) (hyn : y % 2 ^ f.sign ≤ f.inf) :
    placeEnc f (selectF f daz max x y).1 =
      if max then Max.max (placeEnc f (readEnc f daz x)) (placeEnc f (readEnc f daz y))
      else Min.min (placeEnc f (readEnc f daz x)) (placeEnc f (readEnc f daz y)) := by
  have hless := lessF_iff hf daz hx hy hxn hyn
  have hxn' := (decodeF_isNan_iff hf daz hx).not.mpr hxn.not_gt
  have hyn' := (decodeF_isNan_iff hf daz hy).not.mpr hyn.not_gt
  rw [selectF_eq]
  dsimp only
  rw [Bool.not_eq_true] at hxn' hyn'
  rw [hxn', hyn', writtenEnc_decodeF hf daz hx hxn, writtenEnc_decodeF hf daz hy hyn]
  cases hl : lessF (decodeF f daz x) (decodeF f daz y) <;> cases max <;> simp [hl] at hless ⊢ <;> omega

theorem decodeF_isSnan {f : Fmt} (hf : f = f32 ∨ f = bf16) (daz : Bool) {x : Nat} (hx : x < 2 ^ (f.sign + 1)) :
    (decodeF f daz x).isSnan = decide (f.inf < x % 2 ^ f.sign ∧ x % 2 ^ f.sign < f.inf + 2 ^ (f.p - 2)) := by
  by_cases h : f.inf < x % 2 ^ f.sign
  · simp [decodeF_nan hf daz h, FVal.isSnan, h]
  · rw [isSnan_of_not_isNan (by simpa using (decodeF_isNan_iff hf daz hx).not.mpr h)]
    simp [h]

theorem floatSelections : Claim.FloatSelections := by
  intro f daz max x y hf hx hy
  dsimp only
  have hxn := decodeF_isNan_iff hf daz hx
  have hyn := decodeF_isNan_iff hf daz hy
  refine ⟨?_, fun h h' => ?_, fun h h' => ?_, fun h h' => ?_, fun h h' => selectF_number hf daz max hx hy (not_lt.mp h) (not_lt.mp h')⟩ <;>
    rw [selectF_eq] <;> dsimp only
  · rw [decodeF_isSnan hf daz hx, decodeF_isSnan hf daz hy]
    simp only [nvIf, Bool.or_eq_true, decide_eq_true_eq]
    rfl
  · rw [hxn.mpr h, hyn.mpr h']
    rfl
  · have h0 := Bool.not_eq_true _ ▸ hyn.not.mpr h'
    rw [hxn.mpr h, h0, writtenEnc_decodeF hf daz hy (not_lt.mp h')]
    rfl
  · have h0 := Bool.not_eq_true _ ▸ hxn.not.mpr h
    rw [hyn.mpr h', h0, writtenEnc_decodeF hf daz hx (not_lt.mp h)]
    rfl

end Sys2Proof.Machine

/-! # Lane float instructions: each active thread's result and conditions (R125, R137-R143) -/

namespace Sys2Proof.Machine

theorem firstSlot_eq_none_iff (l : List (Nat × Bool)) : firstSlot l = none ↔ ∀ c ∈ l, c.2 = false := by
  induction l with
  | nil => simp [firstSlot]
  | cons c l ih =>
    obtain ⟨n, bad⟩ := c
    cases bad <;> simp [firstSlot, ih]

/-- A lane instruction that has its own effect has a type that its opcode accepts (R79, R82). -/
theorem State.laneGood_type {s : State} {op : Nat} {w : LaneFields} (h : s.laneGood op w) : w.ty.val ∈ laneTypes op := by
  obtain ⟨-, hslot, -⟩ := h
  have hty := (firstSlot_eq_none_iff _).mp hslot (2, !(laneTypes op).contains w.ty.val ||
    (op == 0xC6 && w.x.val / 16 ≤ 14 && !beaterTyOk (w.x.val / 16) w.ty.val)) (by simp [laneChecks])
  simp only [Bool.or_eq_false_iff, Bool.not_eq_false'] at hty
  exact List.contains_iff_mem.mp hty.1

/-- The arithmetic on .f32 and on the two elements of .bf16x2. -/
theorem laneFloat_good (op : Nat) (x : Nat → FVal → FVal → FVal → Exact) (w : LaneFields) (s : State) (h : s.laneGood op w)
    (hn : isLongOp op = false) :
    let g := s.cur
    let md := g.mode w.rm.val
    let half := fun (r : Word32) (j : Nat) => decodeF bf16 g.daz (r.toNat / 2 ^ (16 * j) % 2 ^ 16)
    let whole := fun (r : Word32) => decodeF f32 g.daz r.toNat
    let o32 := fun t => roundF f32 md g.ftz (x md (whole (s.srcA w t)) (whole (srcB g w t)) (whole (s.srcC w t)))
    let o16 := fun t j => twice md g.ftz (x 0 (half (s.srcA w t) j) (half (srcB g w t) j) (half (s.srcC w t) j))
    let ts := s.laneThreads w
    (w.ty.val = 0x10 → laneFloat op x w s = s.lanesTo w false (fun t => BitVec.ofNat 32 (o32 t).1)
      (ts.foldl (fun f t => f ||| (o32 t).2) 0) (ts.foldl (fun f t => f ||| nfOf f32 (o32 t).1) 0)) ∧
    (w.ty.val ≠ 0x10 → laneFloat op x w s = s.lanesTo w false (fun t => BitVec.ofNat 32 ((o16 t 1).1 * 2 ^ 16 + (o16 t 0).1))
      (ts.foldl (fun f t => f ||| ((o16 t 0).2 ||| (o16 t 1).2)) 0)
      (ts.foldl (fun f t => f ||| (nfOf bf16 (o16 t 0).1 ||| nfOf bf16 (o16 t 1).1)) 0)) := by
  dsimp only
  have hper := lanePer_good op false (fun g _ a b c => floatOp w x g a b c) w s h hn
  refine ⟨fun hty => hper.trans ?_, fun hty => hper.trans ?_⟩
  · simp only [floatOp, if_pos hty]
    rfl
  · simp only [floatOp, if_neg hty]
    rfl

theorem laneFloatArithmetic : Claim.LaneFloatArithmetic := by
  intro s w
  exact ⟨fun h => laneFloat_good 0x40 _ w s h rfl, fun h => laneFloat_good 0x41 _ w s h rfl, fun h => laneFloat_good 0x42 _ w s h rfl,
    fun h => laneFloat_good 0x43 _ w s h rfl, fun h => laneFloat_good 0x4B _ w s h rfl, fun h => laneFloat_good 0x4C _ w s h rfl⟩

/-! ## Selections and functions of one operand -/

/-- An instruction that writes each thread's FP32 result, with its conditions. -/
theorem lanePer_f32Out (op : Nat) {sgn : Bool} {body : Group → Fin 32 → Word32 → Word32 → Word32 → LaneOut} {w : LaneFields} {s : State}
    (h : s.laneGood op w) (hn : isLongOp op = false) (r : Fin 32 → Nat × Flags5)
    (hbody : ∀ t, body s.cur t (s.cur.rv w.a t) (srcB s.cur w t) (s.cur.rv w.c t) = f32Out (r t)) :
    lanePer op sgn body w s = s.lanesTo w sgn (fun t => BitVec.ofNat 32 (r t).1)
      ((s.laneThreads w).foldl (fun x t => x ||| (r t).2) 0) ((s.laneThreads w).foldl (fun x t => x ||| nfOf f32 (r t).1) 0) := by
  refine (lanePer_good op sgn body w s h hn).trans ?_
  simp only [hbody]
  rfl

/-- An instruction that writes two BF16 results of each thread, with their conditions. -/
theorem lanePer_bfOut (op : Nat) {sgn : Bool} {body : Group → Fin 32 → Word32 → Word32 → Word32 → LaneOut} {w : LaneFields} {s : State}
    (h : s.laneGood op w) (hn : isLongOp op = false) (r : Fin 32 → Nat → Nat × Flags5)
    (hbody : ∀ t, body s.cur t (s.cur.rv w.a t) (srcB s.cur w t) (s.cur.rv w.c t) = bfOut (r t 0) (r t 1)) :
    lanePer op sgn body w s = s.lanesTo w sgn (fun t => BitVec.ofNat 32 ((r t 1).1 * 2 ^ 16 + (r t 0).1))
      ((s.laneThreads w).foldl (fun x t => x ||| ((r t 0).2 ||| (r t 1).2)) 0)
      ((s.laneThreads w).foldl (fun x t => x ||| (nfOf bf16 (r t 0).1 ||| nfOf bf16 (r t 1).1)) 0) := by
  refine (lanePer_good op sgn body w s h hn).trans ?_
  simp only [hbody]
  rfl

/-- An instruction that writes each thread's result and raises no condition. -/
theorem lanePer_plain (op : Nat) {sgn : Bool} {body : Group → Fin 32 → Word32 → Word32 → Word32 → LaneOut} {w : LaneFields} {s : State}
    (h : s.laneGood op w) (hn : isLongOp op = false) (r : Fin 32 → Word32)
    (hbody : ∀ t, body s.cur t (s.cur.rv w.a t) (srcB s.cur w t) (s.cur.rv w.c t) = { val := r t }) :
    lanePer op sgn body w s = s.lanesTo w sgn r := by
  refine (lanePer_good op sgn body w s h hn).trans ?_
  have hzero {n : Nat} (ts : List (Fin 32)) : ts.foldl (fun (a : BitVec n) _ => a ||| 0) 0 = 0 := by
    induction ts with
    | nil => rfl
    | cons t ts ih => simp
  simp only [hbody, hzero]

/-- A unary instruction on FP32 writes each thread's result, with its conditions. -/
theorem laneUn_f32Out (op : Nat) {w : LaneFields} {s : State} (h : s.laneGood op w) (hn : isLongOp op = false) (hty : w.ty.val = 0x10)
    (f : Group → Nat → Nat × Flags5) :
    let r := fun t => f s.cur (s.srcA w t).toNat
    laneUn op (fun g x => f32Out (f g x)) w s = s.lanesTo w false (fun t => BitVec.ofNat 32 (r t).1)
      ((s.laneThreads w).foldl (fun x t => x ||| (r t).2) 0) ((s.laneThreads w).foldl (fun x t => x ||| nfOf f32 (r t).1) 0) := by
  unfold laneUn
  rw [hty]
  exact lanePer_f32Out op h hn (fun t => f s.cur (s.srcA w t).toNat) fun _ => rfl

/-- FMIN and FMAX on .f32. -/
theorem select_f32 (op : Nat) {w : LaneFields} {s : State} (h : s.laneGood op w) (hn : isLongOp op = false) (hty : w.ty.val = 0x10)
    (max : Bool) :
    let r := fun t => selectF f32 s.cur.daz max (s.srcA w t).toNat (srcB s.cur w t).toNat
    lanePer op false (fun g _ a b _ => selectOp w max g a b) w s = s.lanesTo w false (fun t => BitVec.ofNat 32 (r t).1)
      ((s.laneThreads w).foldl (fun x t => x ||| (r t).2) 0) ((s.laneThreads w).foldl (fun x t => x ||| nfOf f32 (r t).1) 0) :=
  lanePer_f32Out op h hn _ fun _ => by rw [selectOp, if_pos hty]; rfl

/-- FMIN and FMAX on .bf16x2. -/
theorem select_bf16 (op : Nat) {w : LaneFields} {s : State} (h : s.laneGood op w) (hn : isLongOp op = false) (hty : w.ty.val = 0x11)
    (max : Bool) :
    let r := fun t j => selectF bf16 s.cur.daz max ((s.srcA w t).toNat / 2 ^ (16 * j) % 2 ^ 16) ((srcB s.cur w t).toNat / 2 ^ (16 * j) % 2 ^ 16)
    lanePer op false (fun g _ a b _ => selectOp w max g a b) w s =
      s.lanesTo w false (fun t => BitVec.ofNat 32 ((r t 1).1 * 2 ^ 16 + (r t 0).1))
        ((s.laneThreads w).foldl (fun x t => x ||| ((r t 0).2 ||| (r t 1).2)) 0)
        ((s.laneThreads w).foldl (fun x t => x ||| (nfOf bf16 (r t 0).1 ||| nfOf bf16 (r t 1).1)) 0) :=
  lanePer_bfOut op h hn
    (fun t j => selectF bf16 s.cur.daz max ((s.srcA w t).toNat / 2 ^ (16 * j) % 2 ^ 16) ((srcB s.cur w t).toNat / 2 ^ (16 * j) % 2 ^ 16))
    fun _ => by rw [selectOp, if_neg (by rw [hty]; decide)]; rfl

/-- Clearing the sign bit (R139). -/
theorem and_abs (a : Word32) : a &&& 0x7FFFFFFF = BitVec.ofNat 32 (a.toNat % 2 ^ 31) := by
  refine BitVec.eq_of_toNat_eq ?_
  rw [BitVec.toNat_and, BitVec.toNat_ofNat, show BitVec.toNat (0x7FFFFFFF : Word32) = 2 ^ 31 - 1 from rfl, Nat.and_two_pow_sub_one_eq_mod,
    Nat.mod_eq_of_lt ((Nat.mod_lt _ (by decide)).trans (by decide))]

/-- Changing the sign bit (R139). -/
theorem xor_neg (a : Word32) : a ^^^ 0x80000000 = BitVec.ofNat 32 (if a.toNat < 2 ^ 31 then a.toNat + 2 ^ 31 else a.toNat - 2 ^ 31) := by
  have ha := a.isLt
  refine BitVec.eq_of_toNat_eq ?_
  rw [BitVec.toNat_xor, BitVec.toNat_ofNat, show BitVec.toNat (0x80000000 : Word32) = 2 ^ 31 from rfl]
  have hhigh : (a.toNat ^^^ 2 ^ 31) / 2 ^ 31 = a.toNat / 2 ^ 31 ^^^ 1 := by rw [Nat.xor_div_two_pow, Nat.div_self (Nat.two_pow_pos 31)]
  have hlow : (a.toNat ^^^ 2 ^ 31) % 2 ^ 31 = a.toNat % 2 ^ 31 := by rw [Nat.xor_mod_two_pow, Nat.mod_self, Nat.xor_zero]
  split_ifs with h
  · rw [Nat.div_eq_of_lt h, Nat.zero_xor] at hhigh
    omega
  · rw [show a.toNat / 2 ^ 31 = 1 by omega, Nat.xor_self] at hhigh
    omega

/-- The class of an encoding by its magnitude and its sign (R143). -/
theorem classOf_eq {x : Nat} (hx : x < 2 ^ 32) :
    classOf x =
      if 0x7FC00000 ≤ x % 2 ^ 31 then 1 else if 0x7F800000 < x % 2 ^ 31 then 0
      else if x % 2 ^ 31 = 0x7F800000 then (if 2 ^ 31 ≤ x then 2 else 9)
      else if x % 2 ^ 31 = 0 then (if 2 ^ 31 ≤ x then 5 else 6)
      else if x % 2 ^ 31 < 0x800000 then (if 2 ^ 31 ≤ x then 4 else 7) else if 2 ^ 31 ≤ x then 3 else 8 := by
  unfold classOf
  rcases lt_trichotomy (x % 2 ^ 31) 0x7F800000 with h | h | h
  · obtain ⟨m, e, hd, -⟩ := decodeF_fin (f := f32) (by decide) false hx h
    have hm : (m = x % 2 ^ 31 ∧ x % 2 ^ 31 < 2 ^ 23) ∨ (2 ^ 23 ≤ m ∧ 2 ^ 23 ≤ x % 2 ^ 31) := significand_of_decodeF hd
    rw [hd, show f32.sign = 31 from rfl]
    simp only [decide_eq_true_eq]
    split_ifs <;> omega
  · rw [decodeF_inf (f := f32) false hx h, show f32.sign = 31 from rfl]
    simp only [decide_eq_true_eq]
    split_ifs <;> omega
  · rw [decodeF_nan (f := f32) (.inl rfl) false h]
    simp only [decide_eq_true_eq]
    show (if x % 2 ^ 31 < 0x7FC00000 then 0 else 1) = _
    split_ifs <;> omega

theorem laneFloatFunctions : Claim.LaneFloatFunctions := by
  intro s w
  refine ⟨?_, ?_, ?_, ?_, ?_, ?_, ?_, ?_, ?_, ?_, ?_, ?_, ?_, ?_, ?_, ?_, ?_, ?_⟩
  · exact fun h hty => select_f32 0x44 h rfl hty false
  · exact fun h hty => select_f32 0x45 h rfl hty true
  · exact fun h hty => select_bf16 0x44 h rfl hty false
  · exact fun h hty => select_bf16 0x45 h rfl hty true
  · intro h
    show execFabs w s = _
    refine lanePer_plain 0x46 h rfl (fun t => BitVec.ofNat 32 ((s.srcA w t).toNat % 2 ^ 31)) fun t => ?_
    rw [State.srcA, ← and_abs]
  · intro h
    show execFneg w s = _
    refine lanePer_plain 0x47 h rfl (fun t => BitVec.ofNat 32
      (if (s.srcA w t).toNat < 2 ^ 31 then (s.srcA w t).toNat + 2 ^ 31 else (s.srcA w t).toNat - 2 ^ 31)) fun t => ?_
    rw [State.srcA, ← xor_neg]
  · exact fun h hty => laneUn_f32Out 0x49 h rfl hty fun g x => transF 0x49 g.daz g.ftz x
  · exact fun h hty => laneUn_f32Out 0x4A h rfl hty fun g x => transF 0x4A g.daz g.ftz x
  · exact fun h hty => laneUn_f32Out 0x4D h rfl hty fun g x => transF 0x4D g.daz g.ftz x
  · exact fun h hty => laneUn_f32Out 0x4E h rfl hty fun g x => transF 0x4E g.daz g.ftz x
  · exact fun h hty => laneUn_f32Out 0x4F h rfl hty fun g x => transF 0x4F g.daz g.ftz x
  · exact fun h hty => laneUn_f32Out 0x50 h rfl hty fun g x => transF 0x50 g.daz g.ftz x
  · exact fun h hty => laneUn_f32Out 0x51 h rfl hty fun g x => transF 0x51 g.daz g.ftz x
  · exact fun h hty => laneUn_f32Out 0x52 h rfl hty fun g x => fraction g.daz g.ftz x
  · exact fun h hty => laneUn_f32Out 0x53 h rfl hty fun g x => integral (g.mode w.rm.val) g.daz x
  · intro h hty
    show execFscl w s = _
    exact lanePer_f32Out 0x55 h rfl (fun t => roundF f32 (s.cur.mode w.rm.val) s.cur.ftz
      (scaleX (decodeF f32 s.cur.daz (s.srcA w t).toNat) (srcB s.cur w t).toInt)) fun _ => rfl
  · intro h
    have hty : w.ty.val = 0x10 := by simpa [laneTypes] using State.laneGood_type h
    show execFclass w s = _
    unfold execFclass laneUn
    rw [hty]
    refine lanePer_plain 0x54 h rfl _ fun t => ?_
    dsimp only
    rw [classOf_eq (s.cur.rv w.a t).isLt]
    rfl
  · intro h
    show execFexpo w s = _
    exact lanePer_plain 0x56 h rfl (fun t => exponentOf s.cur.daz (s.srcA w t).toNat) fun _ => rfl

end Sys2Proof.Machine

/-! # Results beyond the format, and FFRC, FRND, FSCL and FEXPO (R37, R39, R142, R143) -/

namespace Sys2Proof.Machine

/-! ## FP32: its range -/

theorem mag_inf_f32 : f32.mag f32.inf = 2 ^ 128 := by
  norm_num [Fmt.mag, f32]

/-- A finite FP32 value: a significand of 24 bits, no less than 2^-149 and below 2^128 (R36). -/
theorem decodeF_f32 (daz : Bool) {x : Nat} (hx : x < 2 ^ 32) (hm : x % 2 ^ 31 < 0x7F800000) :
    ∃ m e, decodeF f32 daz x = .fin (decide (2 ^ 31 ≤ x)) m e ∧ m < 2 ^ 24 ∧ -149 ≤ e ∧ (m : ℚ) * 2 ^ e < 2 ^ 128 := by
  obtain ⟨m, e, hd, hv, hlt, he⟩ := decodeF_fin (f := f32) (by decide) daz hx hm
  refine ⟨m, e, hd, hlt, he, ?_⟩
  rw [hv, ← mag_inf_f32]
  have hmono := Fmt.mag_strictMono (f := f32) (by decide)
  split_ifs
  · rw [← f32.mag_zero]
    exact hmono (by decide)
  · exact hmono hm

/-- scaleTo's integer is the floor: it reaches every integer that the number reaches. -/
theorem le_scaleTo {num den k : Nat} {exp q : Int} (more : Bool) (hd : 0 < den) (h : (k : ℝ) * 2 ^ q ≤ num / den * 2 ^ exp) :
    k ≤ (scaleTo num den exp q more).1 := by
  have hD : 0 < den * 2 ^ (q - exp).toNat := by positivity
  rw [← le_div_iff₀ (by positivity), scaled_eq_div, le_div_iff₀ (by exact_mod_cast hD)] at h
  exact (Nat.le_div_iff_mul_le hD).mpr (by exact_mod_cast h)

/-- A number below half a unit is 0 units and a rest below half. -/
theorem scaleTo_below_half {num den : Nat} {exp q : Int} (more : Bool) (hn : num ≠ 0) (hd : 0 < den)
    (h : (num : ℝ) / den * 2 ^ exp < 2 ^ (q - 1)) : scaleTo num den exp q more = (0, 1) := by
  have hD : 0 < den * 2 ^ (q - exp).toNat := by positivity
  have hN : num * 2 ^ (exp - q).toNat ≠ 0 := by positivity
  have hlt : 2 * (num * 2 ^ (exp - q).toNat) < den * 2 ^ (q - exp).toNat := by
    have hhalf : (num : ℝ) / den * 2 ^ exp / 2 ^ q < 1 / 2 := by
      rw [div_lt_iff₀ (by positivity), one_div_mul_eq_div]
      rwa [zpow_sub_one₀ two_ne_zero, ← div_eq_mul_inv] at h
    rw [scaled_eq_div, div_lt_div_iff₀ (by exact_mod_cast hD) two_pos, one_mul, mul_comm] at hhalf
    exact_mod_cast hhalf
  unfold scaleTo
  dsimp only
  rw [Nat.div_eq_of_lt (by omega), Nat.mod_eq_of_lt (by omega), if_neg hN, if_pos hlt]

theorem le_roundInt {rm : Nat} {neg : Bool} {num den k : Nat} {exp q : Int} {more : Bool} (h : k ≤ (scaleTo num den exp q more).1) :
    k ≤ (roundInt rm neg num den exp q more).1 := by
  unfold roundInt
  dsimp only
  split_ifs <;> omega

/-- A magnitude of 2^128 or more overflows in every mode (R37). -/
theorem roundFin_overflow (rm : Nat) (ftz neg : Bool) {num den : Nat} {exp : Int} (more : Bool) (hd : 0 < den)
    (h : (2 : ℝ) ^ 128 ≤ num / den * 2 ^ exp) :
    roundFin f32 rm ftz neg num den exp more =
      (signBit f32 neg + (if rm = 1 || rm = 6 || (rm = 2 && !neg) || (rm = 3 && neg) then f32.inf - 1 else f32.inf), fOF ||| fNX) := by
  have hn : num ≠ 0 := by
    rintro rfl
    norm_num at h
  obtain ⟨hlo, hhi⟩ := denotes_binade (exp := exp) (more := false) (a := num / den * 2 ^ exp) hn hd (by simp [denotes])
  unfold roundFin
  rw [if_neg hn]
  dsimp only
  generalize ilog num den + exp = e at *
  have he : 128 ≤ e := by
    have : (2 : ℝ) ^ (128 : Int) < 2 ^ (e + 1) := lt_of_le_of_lt (by exact_mod_cast h) hhi
    have := (zpow_lt_zpow_iff_right₀ (one_lt_two (α := ℝ))).mp this
    omega
  have hp : e - ((f32.p : Int) - 1) = e - 23 := rfl
  have hq : ¬ e - 23 < f32.qmin := by
    have : f32.qmin = -149 := rfl
    omega
  have hround : 2 ^ 23 ≤ (roundInt rm neg num den exp (e - 23) more).1 := by
    refine le_roundInt (le_scaleTo more hd (le_trans (le_of_eq ?_) hlo))
    rw [Nat.cast_pow, Nat.cast_ofNat, ← zpow_natCast, ← zpow_add₀ two_ne_zero]
    congr 1
    omega
  rw [hp, if_neg hq, if_neg (by simp [hq]), if_pos]
  have hinf : f32.inf = 254 * 2 ^ 23 + 2 ^ 23 := by decide
  have hj : 254 ≤ (e - 23 - f32.qmin).toNat := by
    have : f32.qmin = -149 := rfl
    omega
  rw [hinf]
  exact Nat.add_le_add (Nat.mul_le_mul_right _ hj) hround

/-- A non-zero magnitude below 2^-150 is tiny, and rounds to zero or to the least subnormal (R39). -/
theorem roundFin_underflow (rm : Nat) (ftz neg : Bool) {num den : Nat} {exp : Int} (more : Bool) (hn : num ≠ 0) (hd : 0 < den)
    (h : (num : ℝ) / den * 2 ^ exp < 2 ^ (-150 : Int)) :
    roundFin f32 rm ftz neg num den exp more =
      (signBit f32 neg + (if ftz then 0 else if roundUp rm neg false 1 then 1 else 0), fUF ||| fNX) := by
  obtain ⟨hlo, hhi⟩ := denotes_binade (exp := exp) (more := false) (a := num / den * 2 ^ exp) hn hd (by simp [denotes])
  have he := (zpow_lt_zpow_iff_right₀ (one_lt_two (α := ℝ))).mp (hlo.trans_lt h)
  unfold roundFin
  rw [if_neg hn]
  dsimp only
  generalize ilog num den + exp = e at *
  have hp : e - ((f32.p : Int) - 1) = e - 23 := rfl
  have hqmin : f32.qmin = -149 := rfl
  have hscale : scaleTo num den exp (-149) more = (0, 1) := scaleTo_below_half more hn hd h
  have hround : roundInt rm neg num den exp (-149) more = (if roundUp rm neg false 1 then 1 else 0, 1) := by
    unfold roundInt
    rw [hscale]
    rfl
  have hne : (e - 23 + 1 == (-149 : Int)) = false := by simp; omega
  have hq : e - 23 < -149 := by omega
  rw [hp, hqmin, if_pos hq, hround, hne]
  cases ftz
  · cases roundUp rm neg false 1 <;> simp [hq, f32]
  · simp [hq]

end Sys2Proof.Machine

/-! # FFRC, FRND, FSCL and FEXPO (R142, R143) -/

namespace Sys2Proof.Machine

/-! ## The parts of a finite value -/

/-- An integer rounds to itself. -/
theorem roundsInt_natCast {rm : Nat} {neg : Bool} {k n : Nat} (h : roundsInt rm neg k n) : n = k := by
  obtain ⟨i, hlo, hhi, hup⟩ := h
  have h1 : i ≤ k := by exact_mod_cast hlo
  have h2 : k < i + 1 := by exact_mod_cast hhi
  obtain rfl : i = k := by omega
  rw [sub_self] at hup
  obtain ⟨hu, -⟩ | ⟨-, rfl⟩ := hup
  · exact absurd hu (not_roundsUp_zero _ _ _ (by simp))
  · rfl

/-- The part of a value below its point: the low bits of the significand. -/
theorem sub_floor_eq (m k : Nat) : (m : ℚ) * 2 ^ (-(k : Int)) - ⌊(m : ℚ) * 2 ^ (-(k : Int))⌋ = (m % 2 ^ k : ℕ) * 2 ^ (-(k : Int)) := by
  have hfloor : ⌊(m : ℚ) * 2 ^ (-(k : Int))⌋ = (m / 2 ^ k : ℕ) := by
    rw [zpow_neg, zpow_natCast, ← div_eq_mul_inv]
    simpa using Rat.floor_intCast_div_natCast m (2 ^ k)
  have hsplit : (m : ℚ) = 2 ^ k * (m / 2 ^ k : ℕ) + (m % 2 ^ k : ℕ) := by exact_mod_cast (Nat.div_add_mod m (2 ^ k)).symm
  rw [hfloor, zpow_neg, zpow_natCast]
  nth_rw 1 [hsplit]
  rw [Int.cast_natCast]
  field_simp
  ring

/-- FFRC of a finite value (R142). -/
theorem fraction_fin {daz ftz : Bool} {x m : Nat} {n : Bool} {e : Int} (hd : decodeF f32 daz x = .fin n m e) (hm : m < 2 ^ 24) (he : -149 ≤ e) :
    f32.result 0 ftz ((if n then -1 else 1) * (|(FVal.fin n m e).rat| - ⌊|(FVal.fin n m e).rat|⌋)) n (fraction daz ftz x) ∧
      (fraction daz false x).2 = 0 := by
  rw [abs_rat_fin]
  unfold fraction
  rw [hd]
  dsimp only
  by_cases h0 : 0 ≤ e
  · rw [if_pos h0, if_pos h0]
    obtain ⟨k, rfl⟩ := Int.eq_ofNat_of_zero_le h0
    have hint : (m : ℚ) * 2 ^ (k : Int) = ((m * 2 ^ k : ℕ) : ℤ) := by push_cast; rfl
    rw [hint, Int.floor_intCast, sub_self, mul_zero]
    exact ⟨⟨fun h => absurd rfl h, fun _ => rfl⟩, rfl⟩
  · rw [if_neg h0, if_neg h0]
    obtain ⟨k, hk⟩ := Int.eq_ofNat_of_zero_le (show 0 ≤ -e by omega)
    obtain rfl : e = -k := by omega
    rw [neg_neg, Int.toNat_natCast, sub_floor_eq]
    refine ⟨roundFin_result (.inl rfl) 0 ftz one_pos (by rw [Nat.cast_one, div_one]) fun _ => rfl, ?_⟩
    have hle : m % 2 ^ k ≤ 2 ^ f32.p := (Nat.mod_le _ _).trans hm.le
    obtain ⟨j, hj⟩ := Fmt.exists_mag (f := f32) (by decide) hle he
    have hlt : f32.mag j < f32.mag f32.inf := by
      rw [hj, mag_inf_f32, zpow_neg, zpow_natCast, ← div_eq_mul_inv, div_lt_iff₀ (by positivity)]
      have h1 : ((m % 2 ^ k : ℕ) : ℚ) < 2 ^ k := by exact_mod_cast Nat.mod_lt m (Nat.two_pow_pos k)
      have h2 : (1 : ℚ) * 2 ^ k ≤ 2 ^ 128 * 2 ^ k := by gcongr; norm_num
      linarith
    rw [roundFin_mag (.inl rfl) 0 n hj.symm ((Fmt.mag_strictMono (by decide)).lt_iff_lt.mp hlt)]

/-- FRND of a finite value in a mode that has no overflow (R142). -/
theorem integral_fin (rm : Nat) {daz : Bool} {x m : Nat} {n : Bool} {e : Int} (hd : decodeF f32 daz x = .fin n m e) (hm : m < 2 ^ 24)
    (he : -149 ≤ e) (hlt : (m : ℚ) * 2 ^ e < 2 ^ 128) :
    ∃ k i : Nat, integral rm daz x = (signBit f32 n + k, 0) ∧ f32.mag k = (i : ℚ) ∧
      roundsInt rm n ((|(FVal.fin n m e).rat| : ℚ) : ℝ) i := by
  have hval : denotes m 1 e false ((|(FVal.fin n m e).rat| : ℚ) : ℝ) := by
    rw [abs_rat_fin]
    simp [denotes]
  have hround := (roundInt_spec rm n one_pos hval (by simp) (q := 0)).1
  rw [zpow_zero, div_one] at hround
  unfold integral toIntegral
  rw [hd]
  dsimp only
  generalize (roundInt rm n m 1 e 0 false).1 = i at *
  obtain ⟨k, hk, hkinf⟩ : ∃ k, f32.mag k = (i : ℚ) ∧ f32.mag k < f32.mag f32.inf := by
    rw [abs_rat_fin] at hround
    rw [mag_inf_f32]
    rcases le_or_gt 0 e with h0 | h0
    · obtain ⟨j, rfl⟩ := Int.eq_ofNat_of_zero_le h0
      have hint : (((m : ℚ) * 2 ^ (j : Int) : ℚ) : ℝ) = ((m * 2 ^ j : ℕ) : ℝ) := by push_cast; rfl
      rw [hint] at hround
      obtain rfl := roundsInt_natCast hround
      obtain ⟨k, hk⟩ := Fmt.exists_mag (f := f32) (by decide) (show m ≤ 2 ^ f32.p from hm.le) he
      exact ⟨k, by rw [hk]; push_cast; rfl, hk ▸ hlt⟩
    · have hi : i ≤ 2 ^ 23 := by
        obtain ⟨c, hc, -, hup⟩ := hround
        have hhalf : (((m : ℚ) * 2 ^ e : ℚ) : ℝ) < 2 ^ 23 := by
          push_cast
          calc (m : ℝ) * 2 ^ e ≤ m * 2 ^ (-1 : Int) := by gcongr; norm_num; omega
            _ < 2 ^ 24 * 2 ^ (-1 : Int) := by gcongr; exact_mod_cast hm
            _ = 2 ^ 23 := by norm_num
        have : c < 2 ^ 23 := by exact_mod_cast hc.trans_lt hhalf
        obtain ⟨-, rfl⟩ | ⟨-, rfl⟩ := hup <;> omega
      obtain ⟨k, hk⟩ := Fmt.exists_mag (f := f32) (e := 0) (by decide) (show i ≤ 2 ^ f32.p from hi.trans (by decide)) (by decide)
      rw [zpow_zero, mul_one] at hk
      refine ⟨k, hk, hk ▸ lt_of_le_of_lt (b := ((2 ^ 23 : ℕ) : ℚ)) (by exact_mod_cast hi) (by norm_num)⟩
  refine ⟨k, i, ?_, hk, hround⟩
  rw [roundFin_mag (.inl rfl) 0 n (k := k) (by rw [hk, zpow_zero, mul_one]) ((Fmt.mag_strictMono (by decide)).lt_iff_lt.mp hkinf)]

/-- FSCL of a finite value: a k beyond 600 either way rounds as any such k does (R143). -/
theorem scaleX_fin (rm : Nat) (ftz n : Bool) {m : Nat} {e : Int} (k : Int) (he : -149 ≤ e) (hlt : (m : ℚ) * 2 ^ e < 2 ^ 128) :
    roundF f32 rm ftz (scaleX (.fin n m e) k) = roundFin f32 rm ftz n m 1 (e + k) false := by
  unfold scaleX
  dsimp only [roundF]
  rcases Nat.eq_zero_or_pos m with rfl | hm
  · rw [roundFin_zero, roundFin_zero]
  · have hlt' : (m : ℝ) * 2 ^ e < 2 ^ 128 := by
      have := (Rat.cast_lt (K := ℝ)).mpr hlt
      rwa [Rat.cast_mul, Rat.cast_natCast, Rat.cast_zpow, Rat.cast_pow, Rat.cast_ofNat] at this
    have small (i : Int) (hi : i ≤ -600) : (m : ℝ) / (1 : ℕ) * 2 ^ (e + i) < 2 ^ (-150 : Int) := by
      rw [Nat.cast_one, div_one, zpow_add₀ two_ne_zero, ← mul_assoc]
      calc (m : ℝ) * 2 ^ e * 2 ^ i ≤ m * 2 ^ e * 2 ^ (-600 : Int) := by gcongr; norm_num
        _ < 2 ^ 128 * 2 ^ (-600 : Int) := by gcongr
        _ ≤ 2 ^ (-150 : Int) := by
          rw [← zpow_natCast, ← zpow_add₀ two_ne_zero]
          exact (zpow_le_zpow_iff_right₀ one_lt_two).mpr (by norm_num)
    have large (i : Int) (hi : 600 ≤ i) : (2 : ℝ) ^ 128 ≤ m / (1 : ℕ) * 2 ^ (e + i) := by
      rw [Nat.cast_one, div_one]
      calc (2 : ℝ) ^ 128 = 1 * 2 ^ (128 : Int) := by norm_num
        _ ≤ m * 2 ^ (e + i) := by
          gcongr
          · exact_mod_cast hm
          · norm_num
          · omega
    split_ifs with h1 h2
    · rw [roundFin_underflow rm ftz n false hm.ne' one_pos (small _ le_rfl), roundFin_underflow rm ftz n false hm.ne' one_pos (small k h1.le)]
    · rw [roundFin_overflow rm ftz n false one_pos (large _ le_rfl), roundFin_overflow rm ftz n false one_pos (large k h2.le)]
    · rfl

theorem exponentOf_fin {daz : Bool} {x m : Nat} {n : Bool} {e : Int} (hd : decodeF f32 daz x = .fin n m e) :
    ((FVal.fin n m e).rat = 0 → exponentOf daz x = 0x80000000) ∧
      ∀ i : Int, (2 : ℚ) ^ i ≤ |(FVal.fin n m e).rat| → |(FVal.fin n m e).rat| < 2 ^ (i + 1) → exponentOf daz x = BitVec.ofInt 32 i := by
  rw [← abs_eq_zero, abs_rat_fin, mul_eq_zero, or_iff_left (by positivity), Nat.cast_eq_zero]
  unfold exponentOf
  rw [hd]
  refine ⟨fun h0 => if_pos h0, fun i hlo hhi => ?_⟩
  have hm : m ≠ 0 := by
    rintro rfl
    have : (0 : ℚ) < 2 ^ i := by positivity
    simp at hlo
    linarith
  dsimp only
  rw [if_neg hm]
  have hlog : (2 : ℚ) ^ ((Nat.log2 m : Int) + e) ≤ m * 2 ^ e := by
    rw [zpow_add₀ two_ne_zero]
    gcongr
    exact_mod_cast Nat.log2_self_le hm
  have hlog1 : (m : ℚ) * 2 ^ e < 2 ^ ((Nat.log2 m : Int) + 1 + e) := by
    rw [zpow_add₀ two_ne_zero]
    gcongr
    exact_mod_cast Nat.lt_log2_self (n := m)
  have h1 := (zpow_lt_zpow_iff_right₀ (one_lt_two (α := ℚ))).mp (hlog.trans_lt hhi)
  have h2 := (zpow_lt_zpow_iff_right₀ (one_lt_two (α := ℚ))).mp (hlo.trans_lt hlog1)
  congr 1
  omega

theorem floatParts : Claim.FloatParts := by
  intro daz ftz rm x k hx _ _
  dsimp only
  refine ⟨fun hn => ?_, fun hi => ?_, fun hf => ?_⟩
  · obtain ⟨s, hd⟩ := exists_nan_of_isNan hn
    unfold fraction integral exponentOf
    rw [hd]
    exact ⟨rfl, rfl, rfl, rfl⟩
  · unfold fraction integral exponentOf
    rw [hi]
    exact ⟨rfl, rfl, rfl, rfl⟩
  · obtain ⟨m, e, hd, hm, he, hlt⟩ := decodeF_f32 daz hx hf
    obtain ⟨hzero, hexp⟩ := exponentOf_fin hd
    obtain ⟨hfrac, hexact⟩ := fraction_fin (ftz := ftz) hd hm he
    rw [hd, scaleX_fin rm ftz _ k he hlt]
    refine ⟨hfrac, hexact, fun _ => integral_fin rm hd hm he hlt, ?_, hzero, hexp⟩
    refine roundFin_result (.inl rfl) rm ftz one_pos ?_ fun _ => rfl
    rw [rat_fin, Nat.cast_one, div_one, mul_assoc, mul_assoc, zpow_add₀ two_ne_zero]

end Sys2Proof.Machine

/-! # FRCP, FRSQ, FEXP2, FLOG2, FSIN, FCOS and FTANH: special inputs, and values exact or rounded once (R41, R42) -/

namespace Sys2Proof.Machine

/-! ## Finite values -/

theorem below_iff {m : Nat} (hm : m ≠ 0) (e t : Int) : below m e t = true ↔ (m : ℚ) * 2 ^ e < 2 ^ t := by
  have hlog : (2 : ℚ) ^ ((Nat.log2 m : Int) + e) ≤ m * 2 ^ e := by
    rw [zpow_add₀ two_ne_zero]
    gcongr
    exact_mod_cast Nat.log2_self_le hm
  have hlog1 : (m : ℚ) * 2 ^ e < 2 ^ ((Nat.log2 m : Int) + e + 1) := by
    rw [add_right_comm, zpow_add₀ two_ne_zero]
    gcongr
    exact_mod_cast Nat.lt_log2_self (n := m)
  unfold below
  rw [Bool.or_eq_true, beq_iff_eq, or_iff_right hm, decide_eq_true_iff]
  constructor
  · intro h
    exact hlog1.trans_le ((zpow_le_zpow_iff_right₀ one_lt_two).mpr (by omega))
  · intro h
    exact (zpow_lt_zpow_iff_right₀ one_lt_two).mp (hlog.trans_lt h)

/-- A transcendental of a finite value other than zero. -/
theorem transF_fin {daz ftz : Bool} {x m : Nat} {n : Bool} {e : Int} (hd : decodeF f32 daz x = .fin n m e) (hm : m ≠ 0) :
    transF 0x49 daz ftz x = roundFin f32 0 ftz n 1 m (-e) false ∧
    transF 0x4D daz ftz x = exp2Fin ftz n m e ∧
    transF 0x4E daz ftz x = (if n then (f32.nan, fNV) else log2Fin ftz m e) ∧
    transF 0x51 daz ftz x = tanhFin ftz n m e := by
  unfold transF
  rw [hd]
  simp [hm]

/-- FRSQ of a finite value other than zero. -/
theorem transF_rsqrt {daz ftz : Bool} {x m : Nat} {n : Bool} {e : Int} (hd : decodeF f32 daz x = .fin n m e) (hm : m ≠ 0) :
    transF 0x4A daz ftz x =
      if n then (f32.nan, fNV)
      else
        let m1 := if e % 2 = 0 then m else 2 * m
        let e1 := if e % 2 = 0 then e else e - 1
        let r := Nat.sqrt (2 ^ 256 / m1)
        roundFin f32 0 ftz false r 1 (-(e1 / 2) - 128) (r * r * m1 != 2 ^ 256) := by
  unfold transF
  rw [hd]
  simp [hm]

/-! ## FRCP and FRSQ -/

theorem recip_gives (ftz n : Bool) {m : Nat} (hm : m ≠ 0) (e : Int) :
    f32.gives 0 ftz n (1 / |((FVal.fin n m e).rat : ℝ)|) (roundFin f32 0 ftz n 1 m (-e) false) := by
  have hval : denotes 1 m (-e) false (1 / |((FVal.fin n m e).rat : ℝ)|) := by
    rw [← Rat.cast_abs, abs_rat_fin]
    simp [denotes, zpow_neg]
    ring
  exact roundFin_gives (.inl rfl) 0 ftz n one_ne_zero (Nat.pos_of_ne_zero hm) hval (by simp)

theorem rsqrt_gives (ftz : Bool) {m : Nat} (hm : m ≠ 0) (hlt : m < 2 ^ 24) (e : Int) :
    let m1 := if e % 2 = 0 then m else 2 * m
    let e1 := if e % 2 = 0 then e else e - 1
    let r := Nat.sqrt (2 ^ 256 / m1)
    f32.gives 0 ftz false (1 / Real.sqrt ((m : ℝ) * 2 ^ e)) (roundFin f32 0 ftz false r 1 (-(e1 / 2) - 128) (r * r * m1 != 2 ^ 256)) := by
  dsimp only
  rw [sqrt_eq_even]
  have hm1 : 0 < (if e % 2 = 0 then m else 2 * m) ∧ (if e % 2 = 0 then m else 2 * m) < 2 ^ 25 := by split <;> omega
  generalize (if e % 2 = 0 then m else 2 * m) = m1 at *
  generalize (if e % 2 = 0 then e else e - 1) / 2 = h
  have hval : denotes (Nat.sqrt (2 ^ 256 / m1)) 1 (-h - 128) (Nat.sqrt (2 ^ 256 / m1) * Nat.sqrt (2 ^ 256 / m1) * m1 != 2 ^ 256)
      (1 / (Real.sqrt m1 * 2 ^ h)) := by
    have hscaled : 1 / (Real.sqrt m1 * 2 ^ h) = Real.sqrt ((2 ^ 256 : ℕ) / m1) * 2 ^ (-h - 128) := by
      rw [Nat.cast_pow, Nat.cast_ofNat, Real.sqrt_div (by positivity), sqrt_two_pow 128, zpow_sub₀ two_ne_zero, zpow_neg]
      have : (0 : ℝ) < Real.sqrt m1 := Real.sqrt_pos.mpr (by exact_mod_cast hm1.1)
      norm_cast
      field_simp
    rw [hscaled]
    exact denotes_sqrt_div (2 ^ 256) hm1.1 (-h - 128)
  have hroot : 2 ^ 24 ≤ Nat.sqrt (2 ^ 256 / m1) := by
    rw [Nat.le_sqrt, Nat.le_div_iff_mul_le hm1.1]
    calc 2 ^ 24 * 2 ^ 24 * m1 ≤ 2 ^ 24 * 2 ^ 24 * 2 ^ 25 := Nat.mul_le_mul_left _ hm1.2.le
      _ ≤ 2 ^ 256 := by norm_num
  exact roundFin_gives (.inl rfl) 0 ftz false (by omega) one_pos hval fun _ => hroot

/-! ## FEXP2 -/

/-- A magnitude as the quotient that FEXP2 divides out. -/
theorem mag_eq_div (m : Nat) (e : Int) : (m : ℚ) * 2 ^ e = (m * 2 ^ e.toNat : ℕ) / (2 ^ (-e).toNat : ℕ) := by
  rw [← two_pow_toNat_div e]
  push_cast
  ring

theorem mag_eq_natCast_iff (m k : Nat) (e : Int) : (m : ℚ) * 2 ^ e = k ↔ k * 2 ^ (-e).toNat = m * 2 ^ e.toNat := by
  rw [mag_eq_div, div_eq_iff (by positivity), eq_comm]
  norm_cast

/-- asInt finds the integer that a value is, and nothing else. -/
theorem asInt_eq_some_iff (n : Bool) (m : Nat) (e i : Int) : asInt n m e = some i ↔ (FVal.fin n m e).rat = i := by
  have hB : 0 < 2 ^ (-e).toNat := by positivity
  unfold asInt
  dsimp only
  rw [rat_fin]
  constructor
  · intro h
    split_ifs at h with hint hn <;> rw [← mag_eq_natCast_iff] at hint <;> rw [Option.some_inj] at h <;> subst h
    · rw [hint, if_pos hn, Int.cast_neg, Int.cast_natCast, neg_one_mul]
    · rw [hint, if_neg hn, one_mul, Int.cast_natCast]
  · intro h
    have habs : (m : ℚ) * 2 ^ e = i.natAbs := by
      have hnn : (0 : ℚ) ≤ m * 2 ^ e := by positivity
      rw [Nat.cast_natAbs, Int.cast_abs, ← h]
      cases n <;> simp [abs_mul]
    have hquot : m * 2 ^ e.toNat / 2 ^ (-e).toNat = i.natAbs := by
      rw [← (mag_eq_natCast_iff m _ e).mp habs, Nat.mul_div_cancel _ hB]
    rw [hquot, if_pos ((mag_eq_natCast_iff m _ e).mp habs), Option.some_inj]
    rw [habs] at h
    apply Int.cast_injective (α := ℚ)
    cases n
    · simpa only [Bool.false_eq_true, if_false, one_mul, Int.cast_natCast] using h
    · simpa only [if_true, neg_one_mul, Int.cast_neg, Int.cast_natCast] using h

theorem fxOne_pos : 0 < fxOne := Nat.two_pow_pos _

/-- The sums of powers start with their first term. -/
theorem le_expSum (n y term k : Nat) : term ≤ expSum (n + 1) y term k := Nat.le_add_right _ _

theorem fxMul_mono {a b c d : Nat} (h : a ≤ b) (h' : c ≤ d) : fxMul a c ≤ fxMul b d :=
  Nat.div_le_div_right (Nat.mul_le_mul h h')

theorem expSum_mono (n : Nat) {y y' term term' : Nat} (k : Nat) (h : y ≤ y') (h' : term ≤ term') :
    expSum n y term k ≤ expSum n y' term' k := by
  induction n generalizing term term' k with
  | zero => exact le_rfl
  | succ n ih => exact Nat.add_le_add h' (ih (k + 1) (Nat.div_le_div_right (fxMul_mono h' h)))

theorem fxOne_le_fxExp2 (f : Nat) : fxOne ≤ fxExp2 f := le_expSum 89 _ fxOne 1

theorem fxExp2_mono {f g : Nat} (h : f ≤ g) : fxExp2 f ≤ fxExp2 g := expSum_mono 90 1 (fxMul_mono h le_rfl) le_rfl

/-- 2^f for a fraction f is below 2, up to the largest fraction that a value below -150 leaves. -/
theorem fxExp2_lt {f : Nat} (h : f ≤ fxOne - 2 ^ (fxP - 16)) : fxExp2 f < 2 * fxOne :=
  (fxExp2_mono h).trans_lt (by decide +kernel)

/-- FEXP2 of an integer below 2^8 is a power of two, rounded once. -/
theorem exp2Fin_int (ftz : Bool) {n : Bool} {m : Nat} {e i : Int} (hm : m ≠ 0) (hi : (FVal.fin n m e).rat = i) (hlt : |i| < 256) :
    exp2Fin ftz n m e = roundFin f32 0 ftz false 1 1 i false := by
  have hbelow : below m e 8 = true := by
    rw [below_iff hm, ← abs_rat_fin n, hi]
    exact_mod_cast hlt
  unfold exp2Fin
  rw [hbelow, (asInt_eq_some_iff n m e i).mpr hi, if_neg (by simp)]

/-- FEXP2 of a value that is no integer, of 2^-26 or more. -/
theorem exp2Fin_fraction (ftz : Bool) {n : Bool} {m : Nat} {e : Int} (hm : m ≠ 0) (hlt : |(FVal.fin n m e).rat| < 256)
    (hge : 1 ≤ |(FVal.fin n m e).rat|) (hi : ∀ i : Int, (FVal.fin n m e).rat ≠ i) :
    exp2Fin ftz n m e =
      let x := m * fxOne * 2 ^ e.toNat / 2 ^ (-e).toNat
      if n then roundFin f32 0 ftz false (fxExp2 (fxOne - x % fxOne)) fxOne (-((x / fxOne : Nat) : Int) - 1) true
      else roundFin f32 0 ftz false (fxExp2 (x % fxOne)) fxOne ((x / fxOne : Nat) : Int) true := by
  have hbelow : below m e 8 = true := by
    rw [below_iff hm, ← abs_rat_fin n]
    exact hlt.trans_eq (by norm_num)
  have hbelow' : below m e (-26) = false := by
    rw [← Bool.not_eq_true, below_iff hm, ← abs_rat_fin n, not_lt]
    exact le_trans (by norm_num) hge
  have hnone : asInt n m e = none := by
    cases h : asInt n m e with
    | none => rfl
    | some i => exact absurd ((asInt_eq_some_iff n m e i).mp h) (hi i)
  unfold exp2Fin
  rw [hbelow, hbelow', hnone, if_neg (by simp)]
  dsimp only
  rw [if_neg Bool.false_ne_true]

/-- The integer part of a magnitude in fixed point. -/
theorem le_fixed_div {m k : Nat} {e : Int} (h : (k : ℚ) ≤ m * 2 ^ e) : k ≤ m * fxOne * 2 ^ e.toNat / 2 ^ (-e).toNat / fxOne := by
  rw [mag_eq_div, le_div_iff₀ (by positivity)] at h
  rw [Nat.le_div_iff_mul_le fxOne_pos, Nat.le_div_iff_mul_le (Nat.two_pow_pos _)]
  have : k * 2 ^ (-e).toNat ≤ m * 2 ^ e.toNat := by exact_mod_cast h
  calc k * fxOne * 2 ^ (-e).toNat = k * 2 ^ (-e).toNat * fxOne := by ring
    _ ≤ m * 2 ^ e.toNat * fxOne := Nat.mul_le_mul_right _ this
    _ = m * fxOne * 2 ^ e.toNat := by ring

/-- The fraction that a magnitude of 128 or more leaves in fixed point, if it is no integer: its last bit is 2^-16 or more. -/
theorem le_fixed_mod {m : Nat} {e : Int} (hm : m < 2 ^ 24) (h : (128 : ℚ) ≤ m * 2 ^ e) (hi : ∀ k : Nat, (m : ℚ) * 2 ^ e ≠ k) :
    2 ^ (fxP - 16) ≤ m * fxOne * 2 ^ e.toNat / 2 ^ (-e).toNat % fxOne := by
  have he : e < 0 := by
    by_contra hc
    obtain ⟨j, rfl⟩ := Int.eq_ofNat_of_zero_le (not_lt.mp hc)
    exact hi (m * 2 ^ j) (by push_cast; rfl)
  have he' : -17 < e := by
    have : (2 : ℚ) ^ (7 : Int) < 2 ^ (24 + e) := by
      rw [zpow_add₀ two_ne_zero]
      refine lt_of_lt_of_le' (?_ : (m : ℚ) * 2 ^ e < 2 ^ (24 : Int) * 2 ^ e) (le_trans (by norm_num) h)
      gcongr
      exact_mod_cast hm
    have := (zpow_lt_zpow_iff_right₀ (one_lt_two (α := ℚ))).mp this
    omega
  obtain ⟨k, rfl⟩ : ∃ k : Nat, e = -(k : Int) := ⟨(-e).toNat, by omega⟩
  have hk : k ≤ 16 := by omega
  have hmod : 1 ≤ m % 2 ^ k := by
    refine Nat.pos_of_ne_zero fun h0 => hi (m / 2 ^ k) ?_
    rw [mag_eq_natCast_iff, neg_neg, Int.toNat_natCast, Int.toNat_of_nonpos (by omega), pow_zero, mul_one]
    exact Nat.div_mul_cancel (Nat.dvd_of_mod_eq_zero h0)
  have hone : fxOne = 2 ^ k * 2 ^ (fxP - k) := by
    rw [fxOne, ← pow_add, Nat.add_sub_cancel' (hk.trans (by decide))]
  have hquot : m * fxOne * 2 ^ (-(k : Int)).toNat / 2 ^ (- -(k : Int)).toNat = m * 2 ^ (fxP - k) := by
    rw [neg_neg, Int.toNat_natCast, Int.toNat_of_nonpos (by omega), pow_zero, mul_one, hone, mul_left_comm]
    exact Nat.mul_div_cancel_left _ (Nat.two_pow_pos k)
  rw [hquot, hone, Nat.mul_mod_mul_right]
  have hpow : 2 ^ (fxP - 16) ≤ 2 ^ (fxP - k) := by
    generalize fxP = p
    exact Nat.pow_le_pow_right two_pos (Nat.sub_le_sub_left hk p)
  exact le_trans hpow (Nat.le_mul_of_pos_left _ hmod)

theorem fxOne_cast_pos : (0 : ℝ) < fxOne := by exact_mod_cast fxOne_pos

theorem ne_zero_of_rat_ne_zero {n : Bool} {m : Nat} {e : Int} (h : (FVal.fin n m e).rat ≠ 0) : m ≠ 0 := by
  rintro rfl
  simp [rat_fin] at h

/-- FEXP2 of a magnitude of 2^8 or more. -/
theorem exp2Fin_beyond (ftz : Bool) {n : Bool} {m : Nat} {e : Int} (hm : m ≠ 0) (h : ¬ |(FVal.fin n m e).rat| < 256) :
    exp2Fin ftz n m e = roundFin f32 0 ftz false 1 1 (if n then -1000 else 1000) true := by
  have hbelow : below m e 8 = false := by
    rw [← Bool.not_eq_true, below_iff hm, ← abs_rat_fin n]
    exact fun hc => h (hc.trans_eq (by norm_num))
  unfold exp2Fin
  rw [hbelow, if_pos (by simp)]
  cases n
  · rw [if_neg Bool.false_ne_true, if_neg Bool.false_ne_true]
  · rw [if_pos rfl, if_pos rfl]

/-- A fraction's power of two is no less than 1. -/
theorem two_pow_le_fxExp2 (y : Nat) {i : Nat} (hi : 128 ≤ i) : (2 : ℝ) ^ 128 ≤ fxExp2 y / fxOne * 2 ^ (i : Int) := by
  have hfrac : (1 : ℝ) ≤ fxExp2 y / fxOne := by
    rw [one_le_div fxOne_cast_pos, Nat.cast_le]
    exact fxOne_le_fxExp2 y
  rw [← one_mul ((2 : ℝ) ^ 128), zpow_natCast]
  exact mul_le_mul hfrac (pow_le_pow_right₀ one_le_two hi) (by positivity) (zero_le_one.trans hfrac)

/-- A fraction's power of two is below 2. -/
theorem fxExp2_lt_two_pow {y : Nat} (hy : y ≤ fxOne - 2 ^ (fxP - 16)) {i : Nat} (hi : 150 ≤ i) :
    (fxExp2 y : ℝ) / fxOne * 2 ^ (-(i : Int) - 1) < 2 ^ (-150 : Int) := by
  have hlt := fxExp2_lt hy
  have hcast := fxOne_cast_pos
  generalize fxExp2 y = num at hlt ⊢
  generalize fxOne = den at *
  have hfrac : (num : ℝ) / den < 2 := by
    rw [div_lt_iff₀ hcast]
    exact_mod_cast hlt
  calc (num : ℝ) / den * 2 ^ (-(i : Int) - 1) < 2 * 2 ^ (-(i : Int) - 1) := by gcongr
    _ = 2 ^ (-(i : Int)) := by rw [← zpow_one_add₀ two_ne_zero]; congr 1; ring
    _ ≤ 2 ^ (-150 : Int) := (zpow_le_zpow_iff_right₀ one_lt_two).mpr (by omega)

/-- The sign of a value other than zero is its sign bit. -/
theorem sign_of_rat {n : Bool} {m : Nat} {e : Int} (h : (FVal.fin n m e).rat ≠ 0) : n = decide ((FVal.fin n m e).rat < 0) := by
  have hm : 0 < m := Nat.pos_of_ne_zero (ne_zero_of_rat_ne_zero h)
  have hpos : (0 : ℚ) < m * 2 ^ e := by positivity
  cases n <;> simp [rat_fin, hpos, hpos.le]

theorem exp2Fin_overflow (ftz : Bool) {n : Bool} {m : Nat} {e : Int} (h : 128 ≤ (FVal.fin n m e).rat) :
    exp2Fin ftz n m e = (0x7F800000, fOF ||| fNX) := by
  have h0 : (FVal.fin n m e).rat ≠ 0 := by linarith
  have hm := ne_zero_of_rat_ne_zero h0
  have habs : |(FVal.fin n m e).rat| = (FVal.fin n m e).rat := abs_of_nonneg (by linarith)
  obtain rfl : n = false := (sign_of_rat h0).trans (decide_eq_false (by linarith))
  have large {num den : Nat} {exp : Int} {more : Bool} (hd : 0 < den) (hv : (2 : ℝ) ^ 128 ≤ num / den * 2 ^ exp) :
      roundFin f32 0 ftz false num den exp more = (0x7F800000, fOF ||| fNX) := roundFin_overflow 0 ftz false more hd hv
  have power (i : Int) (hi : 128 ≤ i) : (2 : ℝ) ^ 128 ≤ (1 : ℕ) / (1 : ℕ) * 2 ^ i := by
    rw [Nat.cast_one, div_one, one_mul, ← zpow_natCast]
    exact (zpow_le_zpow_iff_right₀ one_lt_two).mpr hi
  by_cases hlt : |(FVal.fin false m e).rat| < 256
  · by_cases hi : ∃ i : Int, (FVal.fin false m e).rat = i
    · obtain ⟨i, hi⟩ := hi
      rw [exp2Fin_int ftz hm hi (by rw [hi] at hlt; exact_mod_cast hlt)]
      exact large one_pos (power i (by rw [hi] at h; exact_mod_cast h))
    · rw [exp2Fin_fraction ftz hm hlt (by linarith) (by simpa using hi)]
      dsimp only
      rw [if_neg Bool.false_ne_true]
      rw [abs_rat_fin] at habs
      exact large fxOne_pos (two_pow_le_fxExp2 _ (le_fixed_div (k := 128) (h.trans_eq habs.symm)))
  · rw [exp2Fin_beyond ftz hm hlt, if_neg Bool.false_ne_true]
    exact large one_pos (power 1000 (by norm_num))

theorem exp2Fin_underflow (ftz : Bool) {n : Bool} {m : Nat} {e : Int} (hm24 : m < 2 ^ 24) (h : (FVal.fin n m e).rat ≤ -150) :
    exp2Fin ftz n m e = (0, fUF ||| fNX) := by
  have h0 : (FVal.fin n m e).rat ≠ 0 := by linarith
  have hm := ne_zero_of_rat_ne_zero h0
  have habs : |(FVal.fin n m e).rat| = -(FVal.fin n m e).rat := abs_of_nonpos (by linarith)
  obtain rfl : n = true := (sign_of_rat h0).trans (decide_eq_true (by linarith))
  have small {num den : Nat} {exp : Int} {more : Bool} (hn : num ≠ 0) (hd : 0 < den) (hv : (num : ℝ) / den * 2 ^ exp < 2 ^ (-150 : Int)) :
      roundFin f32 0 ftz false num den exp more = (0, fUF ||| fNX) := by
    rw [roundFin_underflow 0 ftz false more hn hd hv]
    cases ftz <;> rfl
  have power (i : Int) (hi : i < -150) : ((1 : ℕ) : ℝ) / (1 : ℕ) * 2 ^ i < 2 ^ (-150 : Int) := by
    rw [Nat.cast_one, div_one, one_mul]
    exact (zpow_lt_zpow_iff_right₀ one_lt_two).mpr hi
  by_cases hlt : |(FVal.fin true m e).rat| < 256
  · by_cases hi : ∃ i : Int, (FVal.fin true m e).rat = i
    · obtain ⟨i, hi⟩ := hi
      rw [exp2Fin_int ftz hm hi (by rw [hi] at hlt; exact_mod_cast hlt)]
      rcases (show i ≤ -150 by rw [hi] at h; exact_mod_cast h).lt_or_eq with hi150 | rfl
      · exact small one_ne_zero one_pos (power i hi150)
      · cases ftz <;> decide +kernel
    · rw [exp2Fin_fraction ftz hm hlt (by linarith) (by simpa using hi)]
      dsimp only
      rw [if_pos rfl]
      have hmag : (m : ℚ) * 2 ^ e = -(FVal.fin true m e).rat := by rw [← abs_rat_fin true, habs]
      have hint := le_fixed_div (m := m) (e := e) (k := 150) (by rw [hmag]; push_cast; linarith)
      have hmod := le_fixed_mod hm24 (by rw [hmag]; linarith) fun k hk => hi ⟨-k, by rw [hmag] at hk; push_cast; linarith⟩
      exact small (fxOne_pos.trans_le (fxOne_le_fxExp2 _)).ne' fxOne_pos (fxExp2_lt_two_pow (Nat.sub_le_sub_left hmod fxOne) hint)
  · rw [exp2Fin_beyond ftz hm hlt, if_pos rfl]
    exact small one_ne_zero one_pos (power (-1000) (by norm_num))

/-! ## FLOG2 and FTANH -/

/-- FLOG2 of a power of two is its exponent (R42). -/
theorem log2Fin_pow (ftz : Bool) {m : Nat} {e i : Int} (h : (m : ℚ) * 2 ^ e = 2 ^ i) : f32.result 0 ftz (i : ℚ) false (log2Fin ftz m e) := by
  have hm : (m : ℚ) = 2 ^ (i - e) := by rw [zpow_sub₀ two_ne_zero, ← h, mul_div_cancel_right₀ _ (by positivity)]
  have hle : 0 ≤ i - e := by
    by_contra hc
    have hlt : (m : ℚ) < 1 := hm ▸ zpow_lt_one_of_neg₀ one_lt_two (by omega)
    have h0 : m = 0 := by
      have : m < 1 := by exact_mod_cast hlt
      omega
    rw [h0, Nat.cast_zero] at hm
    exact (zpow_ne_zero _ two_ne_zero) hm.symm
  obtain ⟨k, hk⟩ := Int.eq_ofNat_of_zero_le hle
  obtain rfl : m = 2 ^ k := by
    rw [hk, zpow_natCast] at hm
    exact_mod_cast hm
  obtain rfl : i = k + e := by omega
  unfold log2Fin
  rw [Nat.log2_two_pow]
  dsimp only
  rw [if_pos rfl]
  simpa only [zpow_zero, mul_one] using roundFin_int_result (f := f32) (.inl rfl) 0 ftz (k + e) 0

/-- FTANH of a small value is the value itself, which is not exact (R41). -/
theorem tanhFin_small (ftz n : Bool) {x m : Nat} {e : Int} (hm : m ≠ 0) (hx : x < 2 ^ 31) (hmag : (m : ℚ) * 2 ^ e = f32.mag x)
    (hinf : x < f32.inf) (h : |(FVal.fin n m e).rat| < 2 ^ (-12 : Int)) :
    tanhFin ftz n m e =
      if x < 2 ^ 23 then (if ftz then (signBit f32 n, fUF ||| fNX) else (signBit f32 n + x, fUF ||| fNX)) else (signBit f32 n + x, fNX) := by
  have hbelow : below m e (-12) = true := by rwa [below_iff hm, ← abs_rat_fin n]
  have hmod : (signBit f32 n + x) % 2 ^ 31 = x := by
    cases n
    · exact (Nat.zero_add x).symm ▸ Nat.mod_eq_of_lt hx
    · exact (Nat.add_mod_left _ _).trans (Nat.mod_eq_of_lt hx)
  unfold tanhFin nearly
  rw [if_pos hbelow, roundFin_mag (.inl rfl) 0 n hmag hinf]
  dsimp only
  rw [hmod]

/-! ## Special inputs -/

theorem transF_nan (op : Nat) {daz : Bool} (ftz : Bool) {x : Nat} (h : 0x7F800000 < x % 2 ^ 31) :
    transF op daz ftz x = (0x7FC00000, if x % 2 ^ 31 < 0x7FC00000 then fNV else 0) := by
  unfold transF
  rw [decodeF_nan (f := f32) (.inl rfl) daz h]
  dsimp only [nvIf]
  simp only [decide_eq_true_eq]
  rfl

/-- The results for an infinite input (R42). -/
theorem transF_inf {daz ftz : Bool} {x : Nat} {n : Bool} (hd : decodeF f32 daz x = .inf n) :
    [0x49, 0x4A, 0x4D, 0x4E, 0x4F, 0x50, 0x51].map (fun op => transF op daz ftz x) =
      if n then [(2 ^ 31, 0), (0x7FC00000, fNV), (0, 0), (0x7FC00000, fNV), (0x7FC00000, fNV), (0x7FC00000, fNV), (0xBF800000, 0)]
      else [(0, 0), (0, 0), (0x7F800000, 0), (0x7F800000, 0), (0x7FC00000, fNV), (0x7FC00000, fNV), (0x3F800000, 0)] := by
  unfold transF
  rw [hd]
  cases n <;> rfl

/-- The results for a zero input (R42). -/
theorem transF_zero {daz ftz : Bool} {x : Nat} {n : Bool} {e : Int} (hd : decodeF f32 daz x = .fin n 0 e) :
    [0x49, 0x4A, 0x4D, 0x4E, 0x4F, 0x50, 0x51].map (fun op => transF op daz ftz x) =
      let z := if n then 2 ^ 31 else 0
      [(z + 0x7F800000, fDZ), (z + 0x7F800000, fDZ), (0x3F800000, 0), (0xFF800000, fDZ), (z, 0), (0x3F800000, 0), (z, 0)] := by
  unfold transF
  rw [hd]
  cases n <;> rfl

/-! ## The claim -/

/-- The results for a finite input other than zero. -/
theorem transF_finite (daz ftz : Bool) {x : Nat} (hx : x < 2 ^ 32) (hf : x % 2 ^ 31 < 0x7F800000) (hv : (decodeF f32 daz x).rat ≠ 0) :
    let v := (decodeF f32 daz x).rat
    let neg := decide (2 ^ 31 ≤ x)
    let mag := x % 2 ^ 31
    let f := fun op => transF op daz ftz x
    f32.gives 0 ftz neg (1 / |(v : ℝ)|) (f 0x49) ∧
    (neg = true → f 0x4A = (0x7FC00000, fNV) ∧ f 0x4E = (0x7FC00000, fNV)) ∧
    (neg = false → f32.gives 0 ftz false (1 / Real.sqrt (v : ℝ)) (f 0x4A)) ∧
    (∀ i : Int, v = i → -149 ≤ i → i ≤ 127 → f32.gives 0 ftz false ((2 : ℝ) ^ i) (f 0x4D)) ∧
    (128 ≤ v → f 0x4D = (0x7F800000, fOF ||| fNX)) ∧ (v ≤ -150 → f 0x4D = (0, fUF ||| fNX)) ∧
    (∀ i : Int, v = (2 : ℚ) ^ i → f32.result 0 ftz (i : ℚ) false (f 0x4E)) ∧
    (|v| < (2 : ℚ) ^ (-12 : Int) →
      (2 ^ 23 ≤ mag → f 0x51 = (x, fNX)) ∧
      (mag < 2 ^ 23 → f 0x51 = (if ftz then (if neg then 2 ^ 31 else 0) else x, fUF ||| fNX))) := by
  obtain ⟨m, e, hd, hval, hm24, -⟩ : ∃ m e, decodeF f32 daz x = .fin (decide (2 ^ 31 ≤ x)) m e ∧
      (m : ℚ) * 2 ^ e = (if daz = true ∧ x % 2 ^ 31 < 2 ^ 23 then 0 else f32.mag (x % 2 ^ 31)) ∧ m < 2 ^ 24 ∧ -149 ≤ e :=
    decodeF_fin (f := f32) (by decide) daz hx hf
  have hsum : signBit f32 (decide (2 ^ 31 ≤ x)) + x % 2 ^ 31 = x := signBit_add_mag (f := f32) hx
  rw [hd] at hv ⊢
  have hm := ne_zero_of_rat_ne_zero hv
  have hmag : (m : ℚ) * 2 ^ e = f32.mag (x % 2 ^ 31) := by
    rw [hval]
    refine if_neg fun hc => ?_
    rw [if_pos hc, mul_eq_zero, or_iff_left (by positivity), Nat.cast_eq_zero] at hval
    exact hm hval
  obtain ⟨hrcp, hexp, hlog, htanh⟩ := transF_fin (ftz := ftz) hd hm
  have hrsq := transF_rsqrt (ftz := ftz) hd hm
  dsimp only
  rw [hrcp, hrsq, hexp, hlog, htanh]
  generalize decide (2 ^ 31 ≤ x) = n at *
  have hpos : (n = false) → (FVal.fin n m e).rat = m * 2 ^ e := by
    rintro rfl
    rw [rat_fin, if_neg Bool.false_ne_true, one_mul]
  refine ⟨recip_gives ftz n hm e, ?_, ?_, fun i hi hlo hhi => ?_, exp2Fin_overflow ftz,
    exp2Fin_underflow ftz hm24, fun i hi => ?_, fun hsmall => ?_⟩
  · rintro rfl
    exact ⟨rfl, rfl⟩
  · intro hn
    rw [hpos hn, hn, if_neg Bool.false_ne_true, Rat.cast_mul, Rat.cast_natCast, Rat.cast_zpow, Rat.cast_ofNat]
    exact rsqrt_gives ftz hm hm24 e
  · rw [exp2Fin_int ftz hm hi (by rw [abs_lt]; omega)]
    exact roundFin_gives (.inl rfl) 0 ftz false one_ne_zero one_pos (by simp [denotes]) (by simp)
  · have hi0 : (0 : ℚ) < 2 ^ i := by positivity
    have hn : n = false := (sign_of_rat hv).trans (decide_eq_false (by rw [hi]; exact hi0.le.not_gt))
    rw [hn, if_neg Bool.false_ne_true]
    exact log2Fin_pow ftz ((hpos hn).symm.trans hi)
  · rw [tanhFin_small ftz n hm (Nat.mod_lt _ (by decide)) hmag hf hsmall, hsum]
    refine ⟨fun h => if_neg (by omega), fun h => ?_⟩
    rw [if_pos h]
    cases ftz <;> rfl

theorem floatTranscendentals : Claim.FloatTranscendentals := by
  intro daz ftz x hx
  dsimp only
  refine ⟨fun h op _ => transF_nan op ftz h, fun h => ?_, fun h => ?_, fun h => ?_, fun h hv => transF_finite daz ftz hx h hv⟩
  · subst h
    exact transF_inf (n := false) (decodeF_inf (f := f32) daz hx rfl)
  · subst h
    exact transF_inf (n := true) (decodeF_inf (f := f32) daz hx rfl)
  · have hmag : x % 2 ^ 31 < 0x7F800000 := by omega
    obtain ⟨m, e, hd, hv, -⟩ := decodeF_fin (f := f32) (by decide) daz hx hmag
    have h0 : (m : ℚ) * 2 ^ e = 0 := by
      rw [hv]
      rcases h with h | h
      · have h' : x % 2 ^ f32.sign = 0 := h
        rw [h', f32.mag_zero, ite_self]
      · exact if_pos h
    obtain rfl : m = 0 := by
      rwa [mul_eq_zero, or_iff_left (by positivity), Nat.cast_eq_zero] at h0
    exact transF_zero hd

/-- Settles O23: the arithmetic, the selections and the functions round the exact value once where R37-R44 and R137-R143 say so, and give
the stated values for special inputs. -/
theorem laneFloatResults : Obligations.LaneFloatResults :=
  ⟨laneFloatArithmetic, laneFloatFunctions, floatValues, floatSpecialCases, floatRounding, floatSelections, floatTranscendentals, floatParts⟩

end Sys2Proof.Machine
